-- ==== Sys2Proof/Word.lean ====
section
/-! DEFINITION. The word types of the Ocpel 2 state-coding engine and the type of its byte memories. -/

namespace Sys2Proof

/-- A byte, the unit of every structure the engine reads or writes (R8). -/
abbrev Byte := BitVec 8

/-- A register of the engine: 32 bits (file 13, opening words). -/
abbrev Word := BitVec 32

/-- A 64-bit value, such as an instant of hall time (R6, R10). -/
abbrev Quad := BitVec 64

/-- A sequence of bytes, lowest address first. -/
abbrev Bytes := List Byte

/-- A byte memory: the listed bytes, addresses strictly rising, none equal to what an unlisted byte
reads as (assumption 1). -/
abbrev Mem := List Host.Cell

end Sys2Proof
end

