-- ==== Sys2Proof/Syntax.lean ====
section
/-! DEFINITION. The commands of the engine: one constructor of `Instr` per row of spec/opcode_table.json,
with the operands the model gives it (the table gives none), and the data those operands are made of:
the inputs of the neighbours (`Env`), packets, culvert frames, start inputs. -/

namespace Sys2Proof

/-- A job-relative coordinate (R20, R49). -/
structure Coord where
  a : Nat
  b : Nat
  c : Nat
  deriving DecidableEq, Repr

/-- A disturbance of one SRAM codeword (R244 to R246): the bits it flips, met by the given reader. The
readers are numbered as OSE_SRAM_LAST numbers them (R270): 0 fetch, 1 DMA, 2 pool, 3 arrival, 4 undo
descriptor, 5 plan, 6 chain or repair buffer, 7 update staging. `which` names the item read: the
controller, the ring, the slot of the pool, the bank-share slot, the chunk, the plan slot (0 active,
1 standby), the buffer slot. -/
structure Upset where
  reader : Nat
  bank   : Nat
  byte   : Nat
  mask   : BitVec 13
  which  : Nat
  /-- The host address of the access, where a ring's DMA reads the byte (R379). -/
  addr   : Nat := 0
  deriving DecidableEq, Repr

/-- What the neighbours supply with a command (assumption 2): hall time and host time, the stores that
host software and the compute clusters made since the last command, the beats that memory
controllers mark uncorrectable (R46), the bits of HBM and of SRAM that a disturbance flipped, the 4 KiB
flash units that read as uncorrectable (R63), a new report of the operating point, and whether the channel blocks write the
corrections of this command's reads back only after it (R255), and whether the engine detects a fault in itself (R381). -/
structure Env where
  ht            : Nat
  hostTime      : Nat
  hostStores    : List (Nat × Bytes) := []
  computeStores : List (Nat × Bytes) := []
  badBeats      : List Nat := []
  flips         : List (Nat × Byte) := []
  upsets        : List Upset := []
  badUnits      : List Nat := []
  point         : Option (Nat × Nat) := none
  lateFix       : Bool := false
  selfFault     : Bool := false
  deriving DecidableEq, Repr

/-! ### Packets -/

/-- The fields of the engine packet header that a row does not fix (R49). -/
structure PktHead where
  jobId   : Nat
  gen     : Nat
  epoch   : Nat
  sender  : Coord
  offset  : Nat := 0
  stepLow : Nat := 0
  deriving DecidableEq, Repr

/-- The 11 B prefix of a PARTIAL packet (R114), its flags one by one. -/
structure Prefix where
  digest  : Nat
  coll    : Nat
  reach   : Nat
  count   : Nat
  path    : Bool := false
  down    : Bool := false
  record  : Bool := false
  fault   : Bool := false
  abort   : Bool := false
  retry   : Bool := false
  scale   : Bool := false
  deriving DecidableEq, Repr

/-- A lane: its s40 value and its residue code, 7 for a poisoned lane (R111). -/
structure Lane where
  val  : BitVec 40
  code : Nat
  deriving DecidableEq, Repr

/-- A result record after its prefix (R117). -/
structure ResultRec where
  compared   : Nat
  mismatched : Nat
  unverified : Nat
  retryList  : List Nat
  verdict    : Nat
  bitmap     : List Nat
  deriving DecidableEq, Repr

/-- A marker payload (R186). -/
structure Marker where
  step     : Nat
  kind     : Nat
  role     : Nat
  mask     : BitVec 16
  chunk    : Nat
  position : Nat
  deriving DecidableEq, Repr

/-- An acknowledgement payload (R187). -/
structure AckBody where
  step    : Nat
  limit   : Nat
  entries : List Nat
  deriving DecidableEq, Repr

/-- An agreement contribution (R203). -/
structure Contribution where
  step      : Nat
  planId    : Nat
  committed : Nat
  complete  : Nat
  covered   : Nat
  firstInc  : Nat
  deriving DecidableEq, Repr

/-- An agreement verdict (R203). -/
structure Verdict where
  step     : Nat
  planId   : Nat
  commitAt : Nat
  complete : Nat
  verdict  : Nat
  firstInc : Nat
  deriving DecidableEq, Repr

/-- The fields of a start that every record of it carries (R337). -/
structure StartFields where
  jobChips   : Nat
  tag        : Nat
  root       : Coord
  epoch      : Nat
  instant    : Nat
  deadline   : Nat
  routeBound : Nat
  treeA      : Nat
  treeB      : Nat
  deriving DecidableEq, Repr

/-- A start record (R337): its kind is the row's, `tree` its tree byte, `sumOk` whether its checksum is valid,
`bitmap` the job indices of a kind 3 record. -/
structure StartRec where
  tree   : Nat
  sumOk  : Bool := true
  fields : StartFields
  bitmap : List Nat := []
  deriving DecidableEq, Repr

/-- A chain record of the refill (R224). -/
structure ChainRec where
  refillId   : Nat
  kind       : Nat
  equation   : Nat
  stripe     : Nat
  position   : Nat
  arrival    : Nat
  hop        : Nat
  empty      : Bool := false
  pending    : List (BitVec 16)
  holderStep : Nat
  deriving DecidableEq, Repr

/-- A repair record (R258). -/
structure RepairRec where
  tag       : Nat
  kind      : Nat
  target    : Nat
  stripe    : Nat
  mask      : BitVec 16
  arrival   : Nat
  hop       : Nat
  requester : Coord
  equation  : Nat
  pending   : List (BitVec 16)
  offset    : Nat
  deriving DecidableEq, Repr

/-- A control record of a restore (R315). -/
structure RestoreRec where
  digest   : Nat
  kind     : Nat
  stale    : Bool := false
  missing  : Bool := false
  vector   : Nat := 0
  step     : Nat := 0
  complete : Nat := 0
  covered  : Nat := 0
  position : Nat := 0
  source   : Nat := 0
  status   : Nat := 0
  deriving DecidableEq, Repr

/-- The payload of an engine packet, by what it carries; `Payload.bytes` gives its bytes. -/
inductive Payload where
  | data (bs : Bytes)
  | marker (m : Marker)
  | ack (k : AckBody)
  | lanes (p : Prefix) (ls : List Lane)
  | exps (p : Prefix) (es : List Int)
  | upRecord (p : Prefix) (bitmap : List Nat)
  | resultRecord (p : Prefix) (r : ResultRec)
  | abortRecord (p : Prefix)
  | contribution (c : Contribution)
  | verdict (v : Verdict)
  | start (kind : Nat) (r : StartRec)
  | chain (r : ChainRec)
  | repair (r : RepairRec)
  | restore (r : RestoreRec)
  deriving DecidableEq, Repr

/-- Where a packet goes: one chip, or every leaf of a multicast tree (R48). -/
inductive Dest where
  | chip (c : Coord)
  | tree (t : Nat)
  deriving DecidableEq, Repr

/-- A packet that the engine sends (R49), with its destination. -/
structure Packet where
  dest    : Dest
  head    : PktHead
  cls     : Nat
  window  : Nat
  payload : Payload
  deriving DecidableEq, Repr

/-- A received packet that carries no function's payload: its header fields as they arrive (R49, R50). -/
structure RawPkt where
  head   : PktHead
  cls    : Nat
  window : Nat
  len    : Nat
  deriving DecidableEq, Repr

/-! ### Culvert frames -/

/-- The common header of a manager frame (R447). -/
structure FrameHead where
  seq    : Nat
  tag    : Nat
  format : Nat := 2
  deriving DecidableEq, Repr

/-- The manager's messages and their bodies (R447, R449). A BEGIN_REFILL part other than part 0 carries no
header fields beyond its coordinates. -/
inductive CulMsg where
  | queryStatus
  | basinMap (extent coord tree geom axis planId : Nat)
  | freezeJob
  | releaseJob (refillId kind instant firstTurn : Nat)
  | beginRefill (part parts refillId committed commitAt startAt deadline : Nat) (lost : List Coord)
  | policy (step policy : Nat)
  | modeChange (epoch instant mode flags : Nat)
  | start (jobChips epoch instant deadline routeBound treeA treeB : Nat)
  | startAbort
  | fwStage (action parts version : Nat) (digest : Bytes)
  | fwActivate (version deadline : Nat)
  | fwConfirm (version : Nat)
  | clearDry (serial : Nat)
  deriving DecidableEq, Repr

/-- Why a frame is bad (R71, R447): its CRC, its type, or its format byte. -/
inductive BadFrame where
  | crc
  | unknownType (type : Nat)
  | format (type format seq : Nat)
  deriving DecidableEq, Repr

/-! ### The start sequence -/

/-- What the hardware and the neighbours supply to a start (R431): the identity record, the flash partition,
the outcome of the tests and of the auxiliary controllers, how long it took, a trap during it, the stage at which a
hang or a reset cuts it off. -/
structure StartIn where
  identity   : Bytes
  flashBase  : Nat
  flashLen   : Nat
  journalOk  : Bool := true
  testSram   : Bool := true
  testPage   : Bool := true
  testBasin  : Bool := true
  testResidue : Bool := true
  firstBad   : Nat := 31
  testNs     : Nat := 0
  auxOk      : Bool := true
  badFlash   : List Nat := []
  /-- A controller traps at this stage (R431, R434): which, its cause, the address. -/
  trapStage  : Option Nat := none
  trapBy     : Fin 4 := 0
  trapCause  : Nat := 4
  trapAt     : Nat := 0
  cutStage   : Option Nat := none
  totalNs    : Nat := 0
  /-- The module lost power before the start: the always-on scratch and the SRAM are gone (R70). -/
  powerLost  : Bool := false
  deriving DecidableEq, Repr

/-- The commands (spec/opcode_table.json, one row each). `e` is what the neighbours supply with the command, `q` a
ring, `j` the submission index of the descriptor meant, `i` the index of the turn in the active plan. -/
inductive Instr where
  -- host descriptors
  | regionSet (e : Env) (q : Fin 16) (j : Nat)
  | stateFill (e : Env) (q : Fin 16) (j : Nat)
  | planLoad (e : Env) (q : Fin 16) (j : Nat)
  | planArm (e : Env) (q : Fin 16) (j : Nat)
  | planRetire (e : Env) (q : Fin 16) (j : Nat)
  | snapPond (e : Env) (q : Fin 16) (j : Nat)
  | snapDrain (e : Env) (q : Fin 16) (j : Nat)
  | snapExport (e : Env) (q : Fin 16) (j : Nat)
  | snapManifest (e : Env) (q : Fin 16) (j : Nat)
  | restoreScan (e : Env) (q : Fin 16) (j : Nat)
  | restoreLoad (e : Env) (q : Fin 16) (j : Nat)
  | restoreReslice (e : Env) (q : Fin 16) (j : Nat)
  | scrubRange (e : Env) (q : Fin 16) (j : Nat)
  | repairRange (e : Env) (q : Fin 16) (j : Nat)
  | healthRead (e : Env) (q : Fin 16) (j : Nat)
  | counterRead (e : Env) (q : Fin 16) (j : Nat)
  | streamWindow (e : Env) (q : Fin 16) (j : Nat)
  | fwStageDesc (e : Env) (q : Fin 16) (j : Nat)
  | fence (e : Env) (q : Fin 16) (j : Nat)
  | unknownOpcode (e : Env) (q : Fin 16) (j : Nat)
  | descriptorStart (e : Env) (q : Fin 16)
  -- rings
  | ringPoll (e : Env) (q : Fin 16)
  | msixHoldoffExpiry (e : Env) (q : Fin 16)
  | hostAccessError (e : Env) (q : Fin 16) (addr : Nat) (ownRing : Bool)
  | ringEnable (e : Env) (q : Fin 16) (reportIrq : Bool)
  | ringDisable (e : Env) (q : Fin 16) (reportIrq : Bool)
  | ringDisableDone (e : Env) (q : Fin 16)
  | ringReset (e : Env) (q : Fin 16)
  | ringResetDone (e : Env) (q : Fin 16)
  -- registers and configuration
  | configCommit (e : Env)
  | configDiscard (e : Env)
  | configCommitApply (e : Env)
  | shadowRegisterWrite (e : Env) (off : Nat) (v : Word)
  | engineReset (e : Env) (st : StartIn)
  | controllerRestart (e : Env)
  | controllerRestartDone (e : Env)
  | powerRequest (e : Env) (v : Word)
  | powerTransitionDone (e : Env) (st : StartIn)
  | errorInject (e : Env) (n : Fin 24) (v : Word)
  | registerWrite (e : Env) (off : Nat) (v : Word)
  | badRegisterAccess (e : Env) (off : Nat) (isWrite : Bool)
  | wideRegisterCapture (e : Env) (off : Nat)
  | intakeEntryCapture (e : Env) (w : Fin 64)
  -- culvert
  | queryStatus (e : Env) (f : FrameHead)
  | basinMap (e : Env) (f : FrameHead) (extent coord tree geom axis planId : Nat)
  | freezeJob (e : Env) (f : FrameHead)
  | releaseJob (e : Env) (f : FrameHead) (refillId kind instant firstTurn : Nat)
  | beginRefill (e : Env) (part parts refillId committed commitAt startAt deadline : Nat) (lost : List Coord)
  | policy (e : Env) (f : FrameHead) (step pol : Nat)
  | modeChange (e : Env) (f : FrameHead) (epoch instant mode flags : Nat)
  | start (e : Env) (f : FrameHead) (jobChips epoch instant deadline routeBound treeA treeB : Nat)
  | startAbort (e : Env) (f : FrameHead)
  | firmwareStage (e : Env) (f : FrameHead) (action parts version : Nat) (digest : Bytes)
  | firmwareActivate (e : Env) (f : FrameHead) (version deadline : Nat)
  | firmwareConfirm (e : Env) (f : FrameHead) (version : Nat)
  | clearDry (e : Env) (f : FrameHead) (serial : Nat) (st : StartIn)
  | culvertBadFrame (e : Env) (bad : BadFrame)
  | heartbeat (e : Env)
  | event (e : Env)
  | dryEventRepeat (e : Env)
  -- packets: basin code and agreement
  | mirroredInputStore (e : Env) (h : PktHead) (bs : Bytes)
  | malformedPacket (e : Env) (p : RawPkt)
  | accumXor (e : Env) (h : PktHead) (bs : Bytes)
  | chunkMarker (e : Env) (h : PktHead) (step role : Nat) (mask : BitVec 16) (chunk position : Nat)
  | progressMarker (e : Env) (h : PktHead) (step role position : Nat)
  | finalMarker (e : Env) (h : PktHead) (step role : Nat)
  | invalidateMarker (e : Env) (h : PktHead) (step chunk : Nat) (mask : BitVec 16) (position : Nat)
  | ack (e : Env) (h : PktHead) (k : AckBody)
  | ackFlush (e : Env) (dest : Coord)
  | progressTimer (e : Env) (dest : Coord)
  | agreementContribution (e : Env) (h : PktHead) (k : Contribution)
  | agreeVerdict (e : Env) (h : PktHead) (v : Verdict)
  | commitCutoff (e : Env)
  | commitRootTimeout (e : Env)
  | noVerdict (e : Env)
  | updateWaitTimeout (e : Env) (energy : Nat)
  -- reduction
  | partialFrame (e : Env) (h : PktHead) (body : Payload)
  | partialRecord (e : Env) (h : PktHead) (p : Prefix) (bitmap : List Nat)
  | path1FinalFrame (e : Env) (h : PktHead) (p : Prefix) (ls : List Lane)
  | resultFrame (e : Env) (h : PktHead) (body : Payload)
  | resultRecord (e : Env) (h : PktHead) (p : Prefix) (r : ResultRec)
  | abortRecord (e : Env) (h : PktHead) (p : Prefix)
  | retryFrame (e : Env) (h : PktHead) (p : Prefix) (ls : List Lane)
  | reduceCutoff (e : Env) (i : Nat) (path1 : Bool) (root : Nat)
  | reduceDeadline (e : Env) (i : Nat)
  | dualPathSettle (e : Env) (coll reach : Nat)
  | retryDeadline (e : Env)
  -- turns
  | stepStart (e : Env)
  | leaseRaise (e : Env) (i : Nat)
  | mirrorTurn (e : Env) (i : Nat) (inputs : Bytes)
  | scaleTurn (e : Env) (i : Nat)
  | reduceTurn (e : Env) (i : Nat)
  | gapTurn (e : Env) (i : Nat)
  | checkTurn (e : Env) (i : Nat)
  | updateTurn (e : Env) (i : Nat)
  | deltaTurn (e : Env) (i : Nat)
  | commitTurn (e : Env) (i : Nat)
  | pondTurn (e : Env) (i : Nat)
  | turnWorkComplete (e : Env) (i : Nat) (energy : Nat)
  | allotmentWindowTick (e : Env) (grant : Nat) (turnUse : Nat)
  | replicaSample (e : Env) (chain : Fin 24) (reading : Nat)
  | leaseGrant (e : Env)
  | breach (e : Env)
  | lockDrop (e : Env)
  | lockRegain (e : Env)
  | partitionWindowsReport (e : Env)
  | flashBarrierDone (e : Env)
  -- starts, modes
  | startRecord (e : Env) (h : PktHead) (r : StartRec)
  | startAckRecord (e : Env) (h : PktHead) (r : StartRec)
  | goRecord (e : Env) (h : PktHead) (r : StartRec)
  | abortStartRecord (e : Env) (h : PktHead) (r : StartRec)
  | startAckCutoff (e : Env) (ackTree : Nat)
  | startDeadline (e : Env)
  | startInstant (e : Env)
  | modeChangeInstant (e : Env)
  -- refill
  | refillStart (e : Env)
  | refillDeadline (e : Env)
  | refillPlotStore (e : Env) (h : PktHead) (bs : Bytes)
  | refillCisternStore (e : Env) (h : PktHead) (bs : Bytes)
  | chainPages (e : Env) (h : PktHead) (bs : Bytes)
  | localRepairRecord (e : Env) (h : PktHead) (r : ChainRec)
  | syndromeRecord (e : Env) (h : PktHead) (r : ChainRec)
  | remainderRecord (e : Env) (h : PktHead) (r : ChainRec)
  | bankRebuildRecord (e : Env) (h : PktHead) (r : ChainRec)
  | bankShareStore (e : Env) (h : PktHead) (bs : Bytes)
  | creditRecord (e : Env) (h : PktHead) (r : ChainRec)
  | closureRequest (e : Env) (h : PktHead) (r : ChainRec)
  | absentRecord (e : Env) (h : PktHead) (r : ChainRec)
  | chainRequest (e : Env) (h : PktHead) (r : ChainRec)
  | decodedRecord (e : Env) (h : PktHead) (r : ChainRec)
  | noGradientRecord (e : Env) (h : PktHead) (r : ChainRec)
  | releaseInstant (e : Env)
  -- repair
  | repairRequest (e : Env) (h : PktHead) (r : RepairRec)
  | repairChainRecord (e : Env) (h : PktHead) (r : RepairRec)
  | repairDone (e : Env) (h : PktHead) (r : RepairRec)
  | repairPushRequest (e : Env) (h : PktHead) (r : RepairRec)
  | repairRefused (e : Env) (h : PktHead) (r : RepairRec)
  | repairTimeout (e : Env) (tag : Nat)
  -- restore
  | restoreDataStore (e : Env) (h : PktHead) (bs : Bytes)
  | restoreChoice (e : Env) (h : PktHead) (r : RestoreRec)
  | restoreChoiceVerdict (e : Env) (h : PktHead) (r : RestoreRec)
  | restoreCredit (e : Env) (h : PktHead) (r : RestoreRec)
  | restoreWithdraw (e : Env) (h : PktHead) (r : RestoreRec)
  | restoreRequest (e : Env) (h : PktHead) (r : RestoreRec)
  | restoreDone (e : Env) (h : PktHead) (r : RestoreRec)
  | restoreDoneVerdict (e : Env) (h : PktHead) (r : RestoreRec)
  | restoreChoiceDeadline (e : Env)
  | restoreDoneDeadline (e : Env)
  -- firmware, controllers, resets
  | handover (e : Env) (ready : Bool)
  | activationLapse (e : Env)
  | controllerTrap (e : Env) (c : Fin 4) (cause addr : Nat)
  | watchdogExpiry (e : Env) (c : Fin 4) (addr : Nat)
  | chipColdReset (e : Env) (st : StartIn)
  | chipWarmReset (e : Env) (st : StartIn)
  | startRetry (e : Env) (st : StartIn)
  | turnPlannedEnd (e : Env) (i : Nat)
  | restoreCutoff (e : Env)
  | flashWriteFailure (e : Env)
  | unmappedWindowPacket (e : Env) (p : RawPkt)
  | repairPages (e : Env) (h : PktHead) (bs : Bytes)
  deriving DecidableEq, Repr

end Sys2Proof
end

