-- ==== Sys2Proof/Decode.lean ====
section
/-! DEFINITION. The decoder of opcode-table words. The table of this block gives no row any bits: a command is not spelled by a word,
but by a register access, a descriptor, a packet, a frame or an event of a neighbour. -/

namespace Sys2Proof

/-- The command a word spells by the table's bits: none, for the table gives no row a pattern of bits. -/
def decodeTableWord (_nbits _w : Nat) : Option Instr := none

end Sys2Proof
end

