-- ==== Sys2Proof/Machine/Bits.lean ====
section
/-! DEFINITION. Byte order, bit fields, rounding division, saturation and CRC-32C: the helpers every layout uses (R8). -/

namespace Sys2Proof.Machine

open Sys2Proof

/-- The quotient rounded up, as the manual writes `ceil(x ÷ y)`. -/
def ceilDiv (x y : Nat) : Nat := (x + y - 1) / y

/-- `x` rounded up to a multiple of `y`. -/
def roundUp (x y : Nat) : Nat := ceilDiv x y * y

/-- `n` bytes of `v`, little-endian (R8). -/
def le : Nat → Nat → Bytes
  | 0, _ => []
  | n + 1, v => BitVec.ofNat 8 v :: le n (v / 256)

/-- The little-endian value of a sequence of bytes (R8). -/
def ofLe : Bytes → Nat
  | [] => 0
  | b :: bs => b.toNat + 256 * ofLe bs

/-- `n` bytes of `bs` from `off`, zero where `bs` ends. -/
def slice (off n : Nat) (bs : Bytes) : Bytes :=
  let r := (bs.drop off).take n
  r ++ List.replicate (n - r.length) 0#8

/-- The little-endian field of `n` bytes at byte `off`. -/
def field (off n : Nat) (bs : Bytes) : Nat := ofLe (slice off n bs)

/-- Bits [hi:lo] of a number. -/
def bits (hi lo v : Nat) : Nat := (v >>> lo) % 2 ^ (hi + 1 - lo)

/-- Bit `i` of a number. -/
def bit (i v : Nat) : Bool := v.testBit i

/-- A flag as a bit. -/
def b2n (b : Bool) : Nat := if b then 1 else 0

/-- Zero bytes. -/
def zeros (n : Nat) : Bytes := List.replicate n 0#8

/-- Zero bytes appended up to a multiple of `k`. -/
def padTo (k : Nat) (bs : Bytes) : Bytes := bs ++ zeros (roundUp bs.length k - bs.length)

/-- `bs` laid over a zero structure of `n` bytes at byte `off`. -/
def putAt (off : Nat) (v : Bytes) (bs : Bytes) : Bytes := bs.take off ++ v ++ bs.drop (off + v.length)

/-- Bytewise XOR, the length of the first. -/
def xorBytes : Bytes → Bytes → Bytes
  | [], _ => []
  | a :: as, [] => a :: as
  | a :: as, b :: bs => (a ^^^ b) :: xorBytes as bs

/-- A value cut to 32 bits. -/
def u32 (n : Nat) : Nat := n % 2 ^ 32

/-- A value held to 32 bits, as counters and report fields are (R385). -/
def sat32 (n : Nat) : Nat := min n (2 ^ 32 - 1)

/-- A count of 40 bits, saturating (R165). -/
def sat40 (n : Nat) : Nat := min n (2 ^ 40 - 1)

/-- One bit of the CRC-32C division (polynomial 0x1EDC6F41, bit-reflected). -/
def crcBit (c : Nat) : Nat := if c % 2 = 1 then (c / 2) ^^^ 0x82F63B78 else c / 2

/-- One byte of CRC-32C. -/
def crcByte (c : Nat) (b : Byte) : Nat :=
  crcBit (crcBit (crcBit (crcBit (crcBit (crcBit (crcBit (crcBit (c ^^^ b.toNat))))))))

/-- CRC-32C of a sequence of bytes (the Castagnoli code, assumption 9). -/
def crc32c (bs : Bytes) : Nat := (bs.foldl crcByte 0xFFFFFFFF) ^^^ 0xFFFFFFFF

/-- The bits of a bitmap held as a list of set indices: `n` bytes, bit i at byte i div 8 (R117, R337). -/
def bitmapBytes (n : Nat) (set : List Nat) : Bytes :=
  (List.range n).map fun k => BitVec.ofNat 8 ((List.range 8).foldl (fun acc i => if set.contains (8 * k + i) then acc + 2 ^ i else acc) 0)

/-- The set bits of the low `n` bits of a number, ascending. -/
def setBits (n v : Nat) : List Nat := (List.range n).filter fun i => v.testBit i

/-- The union of two index sets, ascending order not kept, no repeats. -/
def unionIdx (xs ys : List Nat) : List Nat := xs ++ ys.filter fun y => !xs.contains y

/-- A coordinate in 16 bits: [4:0] a, [9:5] b, [13:10] c (R209, R337). -/
def coordWord (c : Coord) : Nat := c.a % 32 + (c.b % 32) * 32 + (c.c % 16) * 1024

/-- The coordinate of a 16-bit field. -/
def coordOf (w : Nat) : Coord := ⟨bits 4 0 w, bits 9 5 w, bits 13 10 w⟩

/-- The index list 0 … n − 1 from `a` upward. -/
def upFrom (a n : Nat) : List Nat := (List.range n).map (a + ·)

/-- `(n, x)` pairs of a list, counting from `a`. -/
def indexed {α : Type} (a : Nat) : List α → List (Nat × α)
  | [] => []
  | x :: xs => (a, x) :: indexed (a + 1) xs

/-- The last element satisfying a test. -/
def lastWith {α : Type} (p : α → Bool) (xs : List α) : Option α := xs.foldl (fun acc x => if p x then some x else acc) none

/-- The list with the first element that satisfies the test replaced. -/
def updFirst {α : Type} (p : α → Bool) (f : α → α) : List α → List α
  | [] => []
  | x :: xs => if p x then f x :: xs else x :: updFirst p f xs

/-- Insert or replace the value of a key. -/
def putKey {κ α : Type} [DecidableEq κ] (k : κ) (v : α) : List (κ × α) → List (κ × α)
  | [] => [(k, v)]
  | (k', v') :: xs => if k' = k then (k, v) :: xs else (k', v') :: putKey k v xs

/-- The value of a key, or a default. -/
def getKey {κ α : Type} [DecidableEq κ] (k : κ) (d : α) : List (κ × α) → α
  | [] => d
  | (k', v') :: xs => if k' = k then v' else getKey k d xs

/-- The least of a list of numbers, none when it is empty. -/
def minOf (xs : List Nat) : Option Nat := xs.foldl (fun acc x => match acc with | none => some x | some y => some (min x y)) none

/-- The sum of a list of numbers. -/
def sumOf (xs : List Nat) : Nat := xs.foldl (· + ·) 0

/-- The largest of a list of numbers, 0 when it is empty. -/
def maxOf (xs : List Nat) : Nat := xs.foldl max 0

end Sys2Proof.Machine
end

