-- ==== Sys2Proof/Machine/Codes.lean ====
section
/-! DEFINITION. The codes of the engine: GF(2^8) of the basin code, the 13-bit SRAM byte code, the page
guard over GF(2^16), the furrow generator, SHA-256. -/

namespace Sys2Proof.Machine

open Sys2Proof

/-! ### GF(2^8), polynomial 0x11D (R175) -/

/-- Multiplication by x. -/
def gfDouble (a : Byte) : Byte := if a.msb then (a <<< 1) ^^^ 0x1D#8 else a <<< 1

/-- The product by the bits of the second factor, `n` of them left. -/
def gfMulGo : Nat → Byte → Byte → Byte → Byte
  | 0, _, _, acc => acc
  | n + 1, a, b, acc => gfMulGo n (gfDouble a) (b >>> 1) (if b.getLsbD 0 then acc ^^^ a else acc)

/-- The product in GF(2^8) (R175). -/
def gfMul (a b : Byte) : Byte := gfMulGo 8 a b 0#8

/-- The inverse in GF(2^8), a^254; 0 for 0. -/
def gfInv (a : Byte) : Byte :=
  let a2 := gfMul a a
  let a4 := gfMul a2 a2
  let a8 := gfMul a4 a4
  let a16 := gfMul a8 a8
  let a32 := gfMul a16 a16
  let a64 := gfMul a32 a32
  let a128 := gfMul a64 a64
  gfMul a128 (gfMul a64 (gfMul a32 (gfMul a16 (gfMul a8 (gfMul a4 a2)))))

/-- α_m, the coefficient of member m in global parity 0 (R176). -/
def alpha (m : Nat) : Byte :=
  [0x10#8, 0x11#8, 0x12#8, 0x13#8, 0x20#8, 0x24#8, 0x28#8, 0x2C#8,
   0x30#8, 0x35#8, 0x3A#8, 0x3F#8, 0x40#8, 0x46#8, 0x4B#8, 0x4D#8].getD m 0#8

/-- The coefficient of member m in global parity h: α_m^(h+1) (R176, R192). -/
def coef (m h : Nat) : Byte := if h = 0 then alpha m else gfMul (alpha m) (alpha m)

/-- A constant times a sequence of bytes. -/
def gfScale (k : Byte) (bs : Bytes) : Bytes := bs.map (gfMul k)

/-! ### The SRAM byte code (R244, R245) -/

/-- The check bits c4…c0 of a data byte (R244). -/
def sramCheck (d : Byte) : BitVec 5 :=
  let b := fun i => d.getLsbD i
  let c0 := b 0 ^^ b 1 ^^ b 3 ^^ b 4 ^^ b 6
  let c1 := b 0 ^^ b 2 ^^ b 3 ^^ b 5 ^^ b 6
  let c2 := b 1 ^^ b 2 ^^ b 3 ^^ b 7
  let c3 := b 4 ^^ b 5 ^^ b 6 ^^ b 7
  let dp := b 0 ^^ b 1 ^^ b 2 ^^ b 3 ^^ b 4 ^^ b 5 ^^ b 6 ^^ b 7
  let c4 := dp ^^ c0 ^^ c1 ^^ c2 ^^ c3
  BitVec.ofNat 5 (b2n c0 + 2 * b2n c1 + 4 * b2n c2 + 8 * b2n c3 + 16 * b2n c4)

/-- The codeword: the byte in [12:5], the check bits in [4:0] (R244). -/
def sramEncode (d : Byte) : BitVec 13 := d ++ sramCheck d

/-- The outcome of an SRAM read (R245). -/
inductive SramRead where
  | good (d : Byte)
  | corrected (d : Byte) (fixed : BitVec 13)
  | uncorrectable
  deriving DecidableEq, Repr

/-- The codeword bit at Hamming position `s`: 1, 2, 4, 8 hold c0 to c3, the others d0 to d7 in order. -/
def sramPosition (s : Nat) : Nat :=
  match s with
  | 0 => 4 | 1 => 0 | 2 => 1 | 4 => 2 | 8 => 3
  | 3 => 5 | 5 => 6 | 6 => 7 | 7 => 8 | 9 => 9 | 10 => 10 | 11 => 11 | _ => 12

/-- Read of a stored codeword (R245). -/
def sramDecode (w : BitVec 13) : SramRead :=
  let d : Byte := w.extractLsb' 5 8
  let stored := w.extractLsb' 0 4
  let syn := ((sramCheck d).extractLsb' 0 4 ^^^ stored).toNat
  let parityBad := (List.range 13).foldl (fun p i => p ^^ w.getLsbD i) false
  if !parityBad then (if syn = 0 then .good d else .uncorrectable)
  else if syn ≤ 12 then
    let w' := w ^^^ (1#13 <<< sramPosition syn)
    .corrected (w'.extractLsb' 5 8) w'
  else .uncorrectable

/-! ### The page guard over GF(2^16), polynomial 0x1_100B, α = x (R247) -/

/-- Multiplication by x in GF(2^16). -/
def pgDouble (a : Nat) : Nat := if a < 0x8000 then 2 * a else (2 * a) ^^^ 0x1100B

/-- The product by the bits of `b`. -/
def pgMulGo : Nat → Nat → Nat → Nat → Nat
  | 0, _, _, acc => acc
  | n + 1, a, b, acc => pgMulGo n (pgDouble a) (b / 2) (if b % 2 = 1 then acc ^^^ a else acc)

/-- The product in GF(2^16). -/
def pgMul (a b : Nat) : Nat := pgMulGo 16 a b 0

/-- a^n by squaring, `k` bits of the exponent. -/
def pgPowGo : Nat → Nat → Nat → Nat → Nat
  | 0, _, _, acc => acc
  | k + 1, a, n, acc => pgPowGo k (pgMul a a) (n / 2) (if n % 2 = 1 then pgMul acc a else acc)

/-- a^n in GF(2^16), for n below 2^17. -/
def pgPow (a n : Nat) : Nat := pgPowGo 17 a n 1

/-- The inverse in GF(2^16): a^65534. -/
def pgInv (a : Nat) : Nat := pgPow a 65534

/-- A polynomial over GF(2^16), coefficient of x^i at index i; addition is XOR. -/
abbrev Poly := List Nat

/-- The sum of two polynomials. -/
def polyAdd : Poly → Poly → Poly
  | [], q => q
  | p, [] => p
  | a :: p, b :: q => (a ^^^ b) :: polyAdd p q

/-- A constant times a polynomial. -/
def polyScale (k : Nat) (p : Poly) : Poly := p.map (pgMul k)

/-- The product of two polynomials. -/
def polyMul : Poly → Poly → Poly
  | [], _ => []
  | a :: p, q => polyAdd (polyScale a q) (0 :: polyMul p q)

/-- The value of a polynomial at a point. -/
def polyEval (p : Poly) (x : Nat) : Nat := p.foldr (fun c acc => c ^^^ pgMul acc x) 0

/-- Trailing zero coefficients dropped. -/
def polyTrim (p : Poly) : Poly := (p.reverse.dropWhile (· = 0)).reverse

/-- The generator (x + α^1) … (x + α^(2t)) (R247). -/
def pgGenerator (t : Nat) : Poly := (List.range (2 * t)).foldl (fun g i => polyMul g [pgPow 2 (i + 1), 1]) [1]

/-- The remainder register after each data symbol, highest power first (R247). `r` is kept highest power first. -/
def pgCheckGo (gRev : Poly) : Poly → List Nat → Poly
  | r, [] => r
  | r, d :: ds =>
    let fb := d ^^^ r.headD 0
    let shifted := r.drop 1 ++ [0]
    pgCheckGo gRev (if fb = 0 then shifted else polyAdd shifted (polyScale fb gRev)) ds

/-- The symbols of a byte sequence: little-endian u16 (R247). -/
def symbols : Bytes → List Nat
  | a :: b :: rest => (a.toNat + 256 * b.toNat) :: symbols rest
  | [a] => [a.toNat]
  | [] => []

/-- The bytes of symbols. -/
def symbolBytes (ss : List Nat) : Bytes := ss.flatMap (le 2)

/-- The check symbols r_0 … r_(2t−1) of a page of 2,048 symbols (R247). -/
def pgCheckSymbols (t : Nat) (page : List Nat) : List Nat :=
  let gRev := ((pgGenerator t).take (2 * t)).reverse
  (pgCheckGo gRev (List.replicate (2 * t) 0) page).reverse

/-- The check bytes of a page at strength t: 4t bytes (R247, R250). -/
def pgCheck (t : Nat) (page : Bytes) : Bytes := symbolBytes (pgCheckSymbols t (symbols page))

/-- The syndromes S_1 … S_2t of a received word, coefficients by power. -/
def pgSyndromes (t : Nat) (word : Poly) : List Nat := (List.range (2 * t)).map fun i => polyEval word (pgPow 2 (i + 1))

/-- One round of the search for the error locator: Berlekamp and Massey, begun at the erasure locator. -/
structure BmState where
  lam : Poly
  b   : Poly
  l   : Nat
  deriving DecidableEq, Repr

/-- The discrepancy at index r. -/
def bmDelta (syn : List Nat) (lam : Poly) (r : Nat) : Nat :=
  (indexed 0 lam).foldl (fun acc (ic : Nat × Nat) => if ic.1 ≤ r then acc ^^^ pgMul ic.2 (syn.getD (r - ic.1) 0) else acc) 0

/-- The step of the search at index r (0-based syndrome index), with f erasures. -/
def bmStep (syn : List Nat) (f : Nat) (s : BmState) (r : Nat) : BmState :=
  let d := bmDelta syn s.lam r
  if d = 0 then { s with b := 0 :: s.b }
  else
    let lam' := polyAdd s.lam (polyScale d (0 :: s.b))
    if 2 * s.l ≤ r + f then { lam := lam', b := polyScale (pgInv d) s.lam, l := r + 1 + f - s.l }
    else { s with lam := lam', b := 0 :: s.b }

/-- The formal derivative. -/
def polyDeriv (p : Poly) : Poly := (indexed 0 (p.drop 1)).map fun ic => if ic.1 % 2 = 0 then ic.2 else 0

/-- The outcome of decoding a page: the corrected page and how many symbols were corrected (R249). -/
inductive PgRead where
  | good (page : Bytes) (corrected : Nat)
  | uncorrectable
  deriving DecidableEq, Repr

/-- The decoder (R249): a codeword that agrees with the symbols read at every non-erased position except e of them, with
2e + f ≤ 2t, is returned; when none exists the page is uncorrectable. `erased` lists data symbols by j and check
symbols by 2048 + i. -/
def pgDecode (t : Nat) (page check : Bytes) (erased : List Nat) : PgRead :=
  let n := 2048 + 2 * t
  -- power of the codeword polynomial that holds a symbol
  let power := fun k => if k < 2048 then 2 * t + (2047 - k) else k - 2048
  let ps := erased.map power
  let f := ps.length
  if 2 * t < f then .uncorrectable else
  let data := symbols page
  let word := (symbols (check.take (4 * t))) ++ data.reverse
  let syn := pgSyndromes t word
  if syn.all (· = 0) then .good page 0 else
  let gamma := ps.foldl (fun g p => polyMul g [1, pgPow 2 p]) [1]
  let fin := ((List.range (2 * t)).drop f).foldl (bmStep syn f) { lam := gamma, b := gamma, l := f }
  let lam := polyTrim fin.lam
  let deg := lam.length - 1
  let roots := (List.range n).filter fun p => polyEval lam (pgInv (pgPow 2 p)) = 0
  if roots.length ≠ deg then .uncorrectable else
  let omega := (polyMul syn lam).take (2 * t)
  let dl := polyDeriv lam
  let fixes := roots.map fun p =>
    let xinv := pgInv (pgPow 2 p)
    (p, pgMul (polyEval omega xinv) (pgInv (polyEval dl xinv)))
  let errs := fixes.filter fun pe => pe.2 ≠ 0
  let word' := (indexed 0 word).map fun iv => iv.2 ^^^ getKey iv.1 0 errs
  let e := (errs.filter fun pe => !ps.contains pe.1).length
  if 2 * e + f ≤ 2 * t ∧ (pgSyndromes t word').all (· = 0) then
    .good (symbolBytes ((word'.drop (2 * t)).reverse)) errs.length
  else .uncorrectable

/-! ### The furrow generator (R155 to R158) -/

/-- The rotation counts (R156). -/
def furrowRot : List Nat := [16, 40, 24, 56, 12, 36, 28, 48]

/-- One round; after rounds 3 and 7 a key is injected (R156). -/
def furrowRound (ks : List Quad) (x : Quad × Quad) (rnd : Nat) : Quad × Quad :=
  let x0 := x.1 + x.2
  let x1 := x.2.rotateLeft (furrowRot.getD rnd 0) ^^^ x0
  if rnd = 3 ∨ rnd = 7 then
    let i := (rnd + 1) / 4
    (x0 + ks.getD (i % 3) 0, x1 + ks.getD ((i + 1) % 3) 0 + BitVec.ofNat 64 i)
  else (x0, x1)

/-- The generator: 128 bits (y0, y1) from the seed and the counter words (R156). -/
def furrow (seed c0 c1 : Quad) : Quad × Quad :=
  let kc : Quad := 0x4F4350454C324B5A#64
  let ks := [seed, kc, seed ^^^ kc]
  (List.range 8).foldl (furrowRound ks) (c0 + seed, c1 + kc)

/-- The counter words (c0, c1) of a step, tensor, element and purpose (R155). -/
def furrowCounter (step tensor element purpose : Nat) : Quad × Quad :=
  (BitVec.ofNat 64 ((element % 2 ^ 32) * 2 ^ 32 + purpose * 2 ^ 24),
   BitVec.ofNat 64 (step * 2 ^ 32 + tensor * 256 + element / 2 ^ 32))

/-- y0 for a purpose (R157 takes its bits from y0 alone). -/
def furrowY0 (seed : Quad) (step tensor element purpose : Nat) : Quad :=
  let c := furrowCounter step tensor element purpose
  (furrow seed c.1 c.2).1

/-! ### SHA-256 (R442; the FIPS 180-4 function, assumption 9) -/

/-- The round constants. -/
def shaK : List Word :=
  [0x428a2f98, 0x71374491, 0xb5c0fbcf, 0xe9b5dba5, 0x3956c25b, 0x59f111f1, 0x923f82a4, 0xab1c5ed5] ++
  [0xd807aa98, 0x12835b01, 0x243185be, 0x550c7dc3, 0x72be5d74, 0x80deb1fe, 0x9bdc06a7, 0xc19bf174] ++
  [0xe49b69c1, 0xefbe4786, 0x0fc19dc6, 0x240ca1cc, 0x2de92c6f, 0x4a7484aa, 0x5cb0a9dc, 0x76f988da] ++
  [0x983e5152, 0xa831c66d, 0xb00327c8, 0xbf597fc7, 0xc6e00bf3, 0xd5a79147, 0x06ca6351, 0x14292967] ++
  [0x27b70a85, 0x2e1b2138, 0x4d2c6dfc, 0x53380d13, 0x650a7354, 0x766a0abb, 0x81c2c92e, 0x92722c85] ++
  [0xa2bfe8a1, 0xa81a664b, 0xc24b8b70, 0xc76c51a3, 0xd192e819, 0xd6990624, 0xf40e3585, 0x106aa070] ++
  [0x19a4c116, 0x1e376c08, 0x2748774c, 0x34b0bcb5, 0x391c0cb3, 0x4ed8aa4a, 0x5b9cca4f, 0x682e6ff3] ++
  [0x748f82ee, 0x78a5636f, 0x84c87814, 0x8cc70208, 0x90befffa, 0xa4506ceb, 0xbef9a3f7, 0xc67178f2]

/-- The message schedule, extended by `n` words; held newest first. -/
def shaExtend : Nat → List Word → List Word
  | 0, w => w
  | n + 1, w =>
    let w2 := w.getD 1 0
    let w7 := w.getD 6 0
    let w15 := w.getD 14 0
    let w16 := w.getD 15 0
    let s0 := w15.rotateRight 7 ^^^ w15.rotateRight 18 ^^^ (w15 >>> 3)
    let s1 := w2.rotateRight 17 ^^^ w2.rotateRight 19 ^^^ (w2 >>> 10)
    shaExtend n ((w16 + s0 + w7 + s1) :: w)

/-- One compression round over the eight working words. -/
def shaRound (h : List Word) (kw : Word × Word) : List Word :=
  match h with
  | [a, b, c, d, e, f, g, hh] =>
    let s1 := e.rotateRight 6 ^^^ e.rotateRight 11 ^^^ e.rotateRight 25
    let ch := (e &&& f) ^^^ (~~~e &&& g)
    let t1 := hh + s1 + ch + kw.1 + kw.2
    let s0 := a.rotateRight 2 ^^^ a.rotateRight 13 ^^^ a.rotateRight 22
    let mj := (a &&& b) ^^^ (a &&& c) ^^^ (b &&& c)
    [t1 + (s0 + mj), a, b, c, d + t1, e, f, g]
  | x => x

/-- The big-endian words of a block. -/
def beWords : Nat → Bytes → List Word
  | 0, _ => []
  | n + 1, bs =>
    BitVec.ofNat 32 ((bs.getD 0 0).toNat * 2 ^ 24 + (bs.getD 1 0).toNat * 2 ^ 16 + (bs.getD 2 0).toNat * 256 + (bs.getD 3 0).toNat)
      :: beWords n (bs.drop 4)

/-- The compression of one 64 B block. -/
def shaBlock (h : List Word) (block : Bytes) : List Word :=
  let w := (shaExtend 48 (beWords 16 block).reverse).reverse
  List.zipWith (· + ·) h ((shaK.zip w).foldl shaRound h)

/-- The blocks of a padded message, `n` of them. -/
def shaBlocks : Nat → List Word → Bytes → List Word
  | 0, h, _ => h
  | n + 1, h, bs => shaBlocks n (shaBlock h (bs.take 64)) (bs.drop 64)

/-- SHA-256 of a message: 32 bytes. -/
def sha256 (bs : Bytes) : Bytes :=
  let len := bs.length
  let padded := bs ++ [0x80#8] ++ zeros ((119 - len % 64) % 64) ++ (le 8 (8 * len)).reverse
  let h0 : List Word := [0x6a09e667, 0xbb67ae85, 0x3c6ef372, 0xa54ff53a, 0x510e527f, 0x9b05688c, 0x1f83d9ab, 0x5be0cd19]
  (shaBlocks (padded.length / 64) h0 padded).flatMap fun w => (le 4 w.toNat).reverse

end Sys2Proof.Machine
end

