-- ==== Sys2Proof/Config.lean ====
section
/-! DEFINITION. What an implementation fixes and what the manual leaves open: free values, without a body. -/

namespace Sys2Proof.Config

/-- FREE VALUE (assumption 5): the version of the boot ROM, which OSE_CTL_IMAGE of block 0 shows until a main image runs
(R424). No rule gives it. -/
opaque romVersion : Word

/-- FREE VALUE (assumption 6): what a byte of HBM or of the check space holds where the manual calls the content undefined (R318,
R421). The first argument is the free-value counter of the state, the second the address. -/
opaque undefinedByte : Nat → Nat → Byte

/-- FREE VALUE (assumption 13): the number that a FIRMWARE event gives a failed check (R442, R451): the argument is 1 digest, 2 binding,
3 readability and checksums, 4 chain, 5 version, 6 parts, 7 state. No rule numbers the checks. -/
opaque failingCheck : Nat → Byte

/-- FREE VALUE (assumption 14): the settings format that an image version writes (R438, R439). -/
opaque settingsFormat : Nat → BitVec 16

/-- FREE VALUE (assumption 14): whether an image version reads a settings format (R438). -/
opaque readsSettings : Nat → Nat → Bool

/-- FREE VALUE (assumption 14): the image-private area that a version writes from another's (R438, R439). -/
opaque settingsPrivate : Nat → List Byte → List Byte

end Sys2Proof.Config
end

