-- ==== Sys2Proof/Machine/State.lean ====
section
/-! DEFINITION. The state of the Ocpel 2 engine: everything spec/ gives it, as plain data, and the state after reset. Numbers that
the manual holds in fields of a stated width are held as Nat below that width's bound (assumption 8); registers are 32-bit words. -/

namespace Sys2Proof.Machine

open Sys2Proof

/-! ### Why a step can stop -/

/-- No command of this engine faults: it reports by completions, events and counters (assumption 4). The one reason is there
for the interface and nothing raises it; safe. -/
inductive Fault where
  /-- Never raised; safe. -/
  | none
  deriving DecidableEq, Repr

/-- The reasons a command has no meaning. -/
inductive Refusal where
  /-- Raised by no arm: every command of the table has its meaning; safe. -/
  | notModelled (mnemonic : String)
  deriving DecidableEq, Repr

/-! ### Rings (file 12) -/

/-- A descriptor copied into staging SRAM: its submission index and its 64 or 128 bytes (R370), when it was fetched (R81), its place in
the order of taking over all rings (R360), whether no tag was committed when it was taken (R362). -/
structure Desc where
  idx       : Nat
  bytes     : Bytes
  fetchedAt : Nat := 0
  takeSeq   : Nat := 0
  noTag     : Bool := false
  deriving DecidableEq, Repr

/-- One ring pair (R350 to R369). `copied`: copied, not taken. `taken`: taken, not started. `running`: started, not completed.
`muted`: running descriptors whose completion a reset or a halt suppresses. `lostNow`: reports lost since the last OK_PARTIAL
event. `lastMsg`: when the last MSI-X message went; `msgDue`: one waits for the holdoff. `closing`: disabled while a descriptor of it runs
(R367). -/
structure Ring where
  sqHead    : Nat := 0
  sqTail    : Nat := 0
  cqTail    : Nat := 0
  cqHead    : Nat := 0
  enabled   : Bool := false
  closing   : Bool := false
  reportIrq : Bool := false
  halted    : Bool := false
  resetting : Bool := false
  cause     : Nat := 0
  copied    : List Desc := []
  taken     : List Desc := []
  running   : List Desc := []
  muted     : List Nat := []
  lostNow   : Nat := 0
  lastMsg   : Option Nat := none
  msgDue    : Bool := false
  deriving DecidableEq, Repr

/-! ### Turn plans (files 03 to 05) -/

/-- A turn entry (R76). -/
structure TurnEntry where
  offset : Nat
  kind : Nat
  commitAnchored : Bool
  duration : Nat
  period : Nat
  phase : Nat
  work : Nat
  memBytes : Nat
  memRate : Nat
  portMask : Nat
  portRate : Nat
  portBytes : Nat
  energy : Nat
  first : Nat
  count : Nat
  flags : Nat
  deadline : Nat
  deriving DecidableEq, Repr

/-- A collective entry (R105). -/
structure CollEntry where
  tensorId : Nat
  elems : Nat
  inType : Nat
  outType : Nat
  op : Nat
  sampled : Bool
  source : Nat
  resultOff : Nat
  origin : Coord
  ext : Coord
  tree0 : Nat
  tree1 : Nat
  expIndex : Nat
  rootOff : Nat
  deriving DecidableEq, Repr

/-- An operand descriptor (R145). -/
structure Operand where
  addr : Nat
  fmt : Nat
  write : Bool
  lazy : Bool
  decay : Nat
  deriving DecidableEq, Repr

/-- A tensor entry (R145); `allOps` holds all six descriptors, of which the first `opCount` count. -/
structure TensorEntry where
  id : Nat
  program : Nat
  policy : Nat
  touchMode : Nat
  elems : Nat
  gradOff : Nat
  gradType : Nat
  weightOp : Nat
  opCount : Nat
  rowLen : Nat
  origin : Nat
  touchMap : Nat
  lastTouch : Nat
  allOps : List Operand
  deriving DecidableEq, Repr

/-- A furrow program (R144). -/
structure Program where
  len : Nat
  instrs : List Word
  consts : List Nat
  points0 : Nat
  points1 : Nat
  curve0 : List (Nat × Nat)
  curve1 : List (Nat × Nat)
  deriving DecidableEq, Repr

/-- A loaded turn plan (R75): its header and its tables. -/
structure Plan where
  id : Nat
  tag : Nat
  lead : Nat
  routeBound : Nat
  reportRing : Nat
  tileFed : Bool
  heritage : Bool
  geom : Nat
  cisternNeed : Nat
  undoNeed : Nat
  plotBytes : Nat
  jobChips : Nat
  inputHalf : Nat
  gradSlot : Nat
  length : Nat
  turns : List TurnEntry
  colls : List CollEntry
  tensors : List TensorEntry
  programs : List Program
  deriving DecidableEq, Repr

/-- How the standby plan is armed (R81): at a step, or at an instant with its step number. -/
inductive Arm where
  | atStep (n : Nat)
  | atInstant (n instant : Nat)
  deriving DecidableEq, Repr

/-- The plan slots and what is recorded of them (R74, R81, R83, R85, R189, R246). -/
structure Plans where
  active    : Option Plan := none
  standby   : Option Plan := none
  armed     : Option Arm := none
  /-- The first step without the active plan, once PLAN_RETIRE or a failed re-audit takes it out of service. -/
  retireAt  : Option Nat := none
  /-- The standby plan is out of service from this step on (R85, R246). -/
  dropStandbyAt : Option Nat := none
  /-- Which chunk order table the active plan uses (R189). -/
  activeTab : Nat := 0
  standbyTab : Nat := 0
  /-- The plan that was active at the last commit (R276, R301). -/
  lastCommitId : Option Nat := none
  deriving DecidableEq, Repr

/-- A turn of the step in flight as the sluice left it (R88, R99): `phase` 0 waiting for the lease, 1 accepted and running, 2
work complete, 3 refused. -/
structure TurnRun where
  idx : Nat
  /-- The step the turn belongs to: the step just committed, for a commit-anchored turn. -/
  step : Nat := 0
  kind : Nat
  entry : TurnEntry
  planId : Nat
  ring : Nat
  startAt : Nat
  duration : Nat
  need : Nat := 0
  margin : Nat := 0
  lowest : Nat := 0
  phase : Nat := 0
  reported : Bool := false
  outcome : Nat := 0
  /-- The status of a refusal. -/
  status : Nat := 0
  /-- The inputs of a MIRROR turn that waits for the lease. The model's own field: they lie in the chip until then. -/
  inputs : Bytes := []
  deriving DecidableEq, Repr

/-- The step in flight (R36, R78, R80, R215, R235, R236). -/
structure Step where
  num : Nat := 0
  startAt : Option Nat := none
  nextAt : Nat := 0
  announced : Bool := false
  turns : List TurnRun := []
  /-- 0: CHECK not settled; 1: passed; 2: failed (R29). -/
  check : Nat := 0
  updBegun : Bool := false
  updDone : Bool := false
  contribSent : Bool := false
  /-- A recovery run under RESUME, with its start instant (R236). -/
  recoveryAt : Option Nat := none
  /-- The COMMIT turn to come is one run after RELEASE_JOB (R207). -/
  released : Bool := false
  /-- The lowest turn index that runs, under RESTART (R235). -/
  firstTurn : Nat := 0
  /-- Steps whose partner's mirror was missing when MIRROR ended (R26). -/
  mirrorMissing : List Nat := []
  /-- Steps whose mirrored inputs have arrived. -/
  mirrorGot : List Nat := []
  committed : Option Nat := none
  commitAt : Nat := 0
  polarity : Bool := false
  deriving DecidableEq, Repr

/-! ### Reduction (file 04) -/

/-- A frame being summed: its lanes or exponent lanes, its count, the children added, whether it was sent. -/
structure FrameAcc where
  f : Nat
  lanes : List Lane := []
  exps : List Int := []
  count : Nat := 0
  kids : List Nat := []
  sent : Bool := false
  deriving DecidableEq, Repr

/-- A reach open at this chip, or closed and kept until the step ends (R118 to R124, R133, R135). -/
structure Reach where
  turn : Nat
  scale : Bool
  coll : Nat
  reach : Nat
  q : Nat
  path1 : Bool
  retry : Bool := false
  /-- The chip's own contribution is settled: added, or excluded. -/
  ownDone : Bool := false
  ownIn : Bool := false
  frames : List FrameAcc := []
  records : List Nat := []
  cut : List Nat := []
  bitmap : List Nat := []
  fault : Bool := false
  closed : Bool := false
  deriving DecidableEq, Repr

/-- What this chip holds of a reach's result (R124 to R126, R134 to R136). -/
structure ReachResult where
  scale : Bool
  coll : Nat
  reach : Nat
  frames : List Nat := []
  record : Option ResultRec := none
  fault : Bool := false
  retryGot : List Nat := []
  retrySettled : Bool := false
  deriving DecidableEq, Repr

/-- A path-1 final frame held at the path-0 root (R133). -/
structure Path1Frame where
  coll : Nat
  reach : Nat
  f : Nat
  count : Nat
  lanes : List Lane
  retry : Bool := false
  deriving DecidableEq, Repr

/-- The reduction of the step in flight. -/
structure Reduction where
  reaches : List Reach := []
  results : List ReachResult := []
  path1 : List Path1Frame := []
  /-- Turns whose own contributions have begun, by index. -/
  begun : List Nat := []
  /-- The next reach number q of a turn to open, by turn index (R118). -/
  nextQ : List (Nat × Nat) := []
  /-- Collectives to which this chip contributes nothing of its own (R109, R91, DROP). -/
  excluded : List Nat := []
  /-- Turns, by index, to which this chip contributes nothing of its own (R91, R234). -/
  out : List Nat := []
  aborted : List Nat := []
  residue : List Nat := []
  dualFail : List Nat := []
  retried : List Nat := []
  /-- Reaches (collective, reach) whose comparison this root has settled. -/
  settled : List (Nat × Nat) := []
  /-- Shared exponents by collective (R108). -/
  exps : List (Nat × Int) := []
  /-- The step's CHECK turn has come (R109, R126, R129, R136). -/
  checkStarted : Bool := false
  /-- The collective records of the step are written (R139). -/
  reported : Bool := false
  deriving DecidableEq, Repr

/-! ### Update and basin code (files 05, 06) -/

/-- What the elements of a converted result frame add to their tensor: its collective and first element, zero and non-finite gradient
elements, touch units that hold a non-zero one (R162). -/
structure GradFrame where
  coll : Nat
  first : Nat
  zero : Nat
  bad : Nat
  units : List Nat
  deriving DecidableEq, Repr

/-- The gradient counts and touch maps of the gradient slot's content (R162). `scan`: a gradient came by another path, and the counts are derived
again from the slot before the update runs. -/
structure Gradients where
  frames : List GradFrame := []
  scan : Bool := false
  deriving DecidableEq, Repr

/-- The update unit (R169, R199, R214): the changed chunks still to be written, in position order, as assembled in staging (no bytes: a
chunk that waits for its copy from a gradient peer, R238), and the position at which it resumes. `started`: its work runs. -/
structure Update where
  todo : List (Nat × Nat × Bytes) := []
  pos : Nat := 0
  /-- The tensor of the turn, counted from the first, and its element at which assembly goes on (R169). -/
  tensor : Nat := 0
  elem : Nat := 0
  /-- Elements run, non-finite results and saturations of that tensor so far. -/
  sums : Nat × Nat × Nat := (0, 0, 0)
  /-- Staged content of chunks not yet complete, by address, and the old content of staged chunks, by number (R169). -/
  work : Mem := []
  old : List (Nat × Bytes) := []
  /-- The lowest position not yet assembled. -/
  stall : Nat := 0
  /-- Assembly has begun. -/
  reading : Bool := false
  started : Bool := false
  /-- Waiting for undo room (R30). -/
  waiting : Bool := false
  /-- The changed chunks are assembled in `todo` (R169). -/
  assembled : Bool := false
  /-- Stopped by an uncorrectable read in staging or of a page (R246, R264). -/
  failed : Bool := false
  /-- Closures still to be copied from a gradient peer, as chunk lists (R238). -/
  torn : List (List Nat) := []
  deriving DecidableEq, Repr

/-- An undo entry's descriptor (R197). -/
structure UndoEnt where
  slot : Nat
  stripe : Nat
  mask : BitVec 16
  step : Nat
  issued : Bool := false
  /-- Pages that its marker's mask names beside its own (R238). -/
  extra : BitVec 16 := 0
  deriving DecidableEq, Repr

/-- A delta queued for a bank chip (R190). -/
structure QueueEnt where
  dest : Nat
  chunk : Nat
  pos : Nat
  undo : Nat
  mask : BitVec 16
  slot : Nat
  waited : Bool := false
  /-- Pages that the marker's mask names beside those sent (R238). -/
  extra : BitVec 16 := 0
  deriving DecidableEq, Repr

/-- An open relay slot's descriptor: its group, its stripe, the page masks of its combined chunks, which global holders were sent it
and which acknowledged (R191 to R195). The combined chunks lie in the relay area of the cistern. -/
structure RelayEnt where
  group : Nat
  stripe : Nat
  masks : List (BitVec 16)
  sentTo : List Nat := []
  ackedBy : List Nat := []
  sent : Bool := false
  /-- A combined page could not be read: its delta was not sent, and the members are not acknowledged (R195, R257). -/
  lost : Bool := false
  deriving DecidableEq, Repr

/-- Acknowledgements pending for one chip: each stripe, and since when it is pending (R187). -/
structure AckQueue where
  dest : Coord
  entries : List (Nat × Nat)
  deriving DecidableEq, Repr

/-- The basin code at this chip: holder, relay and member (R180 to R200). -/
structure Basin where
  /-- Arrival bytes by bank-share slot (R180); 0 where none is listed. -/
  arrival : List (Nat × Nat) := []
  /-- Bank-share slots that are absent (R239, R246, R257). -/
  absent : List Nat := []
  /-- Combined deltas lost with a damaged relay page: the contribution of the step stays incomplete (R257). -/
  relayLost : Bool := false
  /-- Pending masks by slot and contribution (R221). -/
  pending : List ((Nat × Nat) × BitVec 16) := []
  relays : List RelayEnt := []
  /-- Contributions owed an acknowledgement: (slot, contribution, sender, stripe). -/
  owed : List ((Nat × Nat) × Coord × Nat) := []
  acks : List AckQueue := []
  /-- The relay limit last sent, by destination. -/
  limitSent : List (Coord × Nat) := []
  /-- Progress received, by member of the basin whose bank this is (R193). -/
  progress : List (Nat × Nat) := []
  finals : List Nat := []
  relayFinalSent : Bool := false
  /-- Relays whose FINAL marker has arrived, by bank position. -/
  relayFinals : List Nat := []
  undo : List UndoEnt := []
  queue : List QueueEnt := []
  /-- Relay limits received, by bank position. -/
  limits : List (Nat × Nat) := []
  /-- Progress last sent and when, by bank position. -/
  progSent : List (Nat × (Nat × Nat)) := []
  finalPending : Bool := false
  finalsSent : List Nat := []
  /-- The queues stand still: their wait ended with the COMMIT turn (R199). -/
  stopped : Bool := false
  /-- Stripes whose globals count as lost for this group (R257). -/
  undoLost : List Nat := []
  /-- Stripes that an invalidate marker has taken out of the parity for this step (R238). -/
  invalid : List Nat := []
  deriving DecidableEq, Repr

/-- The completeness agreement of the step in flight (R201 to R207). -/
structure Agreement where
  open_ : Bool := false
  endAt : Nat := 0
  kids : List (Coord × Contribution) := []
  ownSent : Bool := false
  verdictSent : Bool := false
  verdict : Option Verdict := none
  catchUpSent : Bool := false
  /-- The root's last committed verdict (R207). -/
  lastStep : Option Nat := none
  lastAt : Nat := 0
  deriving DecidableEq, Repr

/-! ### Refill (file 07) -/

/-- A BEGIN_REFILL in force (R209). -/
structure RefillMsg where
  id : Nat
  committed : Nat
  commitAt : Nat
  startAt : Nat
  deadline : Nat
  lost : List Coord
  deriving DecidableEq, Repr

/-- The parts of a BEGIN_REFILL received so far (R210, R449). -/
structure RefillParts where
  id : Nat
  parts : Nat
  head : Option (Nat × Nat × Nat × Nat) := none
  got : List (Nat × List Coord) := []
  deriving DecidableEq, Repr

/-- A chunk that a source or a link has ready to send along a chain, waiting on credit (R225): the chips that remain, the pages, the record as it
goes; `source`: the pages are read when it goes. -/
structure ChainJob where
  route : List Coord
  record : ChainRec
  pages : List (Nat × Bytes)
  source : Bool
  /-- The pages of this link are still to be added: a link of a bank rebuild, which background class 0 serves (R242). -/
  link : Bool := false
  deriving DecidableEq, Repr

/-- A syndrome or remainder that the decoder holds (R226). -/
structure Equation where
  stripe : Nat
  kind : Nat
  equation : Nat
  group : Nat
  arrival : Nat
  pending : List (BitVec 16)
  holderStep : Nat
  pages : List (Nat × Bytes)
  deriving DecidableEq, Repr

/-- The class of a rebuilt chunk: 0 S, 1 S1, 2 PART (R227), with the pending mask its record carried. -/
structure ChunkClass where
  chunk : Nat
  cls : Nat
  pending : BitVec 16
  determined : Bool := true
  deriving DecidableEq, Repr

/-- Freeze, refill and release (R209 to R243). -/
structure Refill where
  frozen : Bool := false
  frozenAt : Nat := 0
  phase : Nat := 0
  /-- 0 running, 1 frozen, 2 accepted, 3 refilling, 4 complete, 5 recovery run (R243). -/
  state : Nat := 0
  cause : Nat := 0
  policy : Nat := 0
  policyStep : Nat := 0
  parts : Option RefillParts := none
  msg : Option RefillMsg := none
  lastId : Nat := 0
  isSpare : Bool := false
  /-- This chip went live as the spare of a refill from which it has not been released (R211, R241). -/
  spareJob : Bool := false
  isSource : Bool := false
  isPeer : Bool := false
  isDecoder : Bool := false
  /-- Refill windows, of 52 to 56, that are open (R217). -/
  wins : List Nat := []
  /-- The plan ID of the last BASIN_MAP that staged anything (R218, R448). -/
  mapPlanId : Nat := 0
  /-- Chain pages received in window 54, by sender and slot (assumption 42). -/
  chainBuf : List ((Coord × Nat) × (Nat × Bytes)) := []
  jobs : List ChainJob := []
  /-- Positions granted to this chip, by destination (R225). -/
  grants : List (Coord × Nat) := []
  /-- Chunks forwarded since the start instant. -/
  forwarded : Nat := 0
  gotPages : List (Nat × BitVec 16) := []
  classes : List ChunkClass := []
  equations : List Equation := []
  /-- Parities (stripe, number) that an absent record reported (R456). -/
  absentEqs : List (Nat × Nat) := []
  solved : List Nat := []
  cisternGot : List (Nat × Nat) := []
  noGradient : List Nat := []
  reported : Bool := false
  /-- A RELEASE_JOB in force: kind, instant, first turn (R212). -/
  release : Option (Nat × Nat × Nat) := none
  /-- Closure requests held by a peer: the spare, first and last position (R238). -/
  closureReqs : List (Coord × Nat × Nat) := []
  /-- Pages of torn closures copied by a peer in a recovery run, by chunk (R238). -/
  copies : List (Nat × (Nat × Bytes)) := []
  /-- This chip has bank shares, or chains, to rebuild from committed values (R240). -/
  rebuilding : Bool := false
  /-- A rebuild begins with the next commit (R240). -/
  rebuildDue : Bool := false
  rebuildStep : Nat := 0
  /-- Slots rebuilt here since the rebuild began. -/
  rebuilt : Nat := 0
  /-- Pages of absent slots received in window 56, by slot. -/
  bankGot : List (Nat × BitVec 16) := []
  /-- Parities (stripe, number) whose rebuild chains this chip has still to start. -/
  rebuildTodo : List (Nat × Nat) := []
  /-- Slots whose result came too late, or that became absent here, asked for at the next commit (assumption 44). -/
  lateSlots : List Nat := []
  /-- This chip is a link of bank-rebuild chains: windows 54 and 55 stay open (R217). -/
  linkRebuild : Bool := false
  /-- Parities (stripe, number) whose rebuild chains have still to pass this chip. -/
  linkTodo : List (Nat × Nat) := []
  /-- Rebuild chains given up here, to be begun again after the next commit (R240, assumption 44). -/
  redo : List (Nat × Nat) := []
  /-- A rebuild chain has passed here since the last commit. -/
  chainsSeen : Bool := false
  bytes : Nat := 0
  deriving DecidableEq, Repr

/-! ### Page guard and repair (file 08) -/

/-- What waits on a repair (R257, R266). -/
inductive RepairFor where
  | scrub
  | update
  | delta
  | pond
  | descriptor (q : Fin 16) (idx : Nat)
  | escalation
  deriving DecidableEq, Repr

/-- A repair attempt in progress (R257 to R263): the page, the attempts left in its row, the recorded bit and mask. -/
structure Attempt where
  tag : Nat
  region : Nat
  addr : Nat
  target : Nat
  stripe : Nat
  page : Nat
  kind : Nat
  equation : Nat
  rest : List (Nat × Nat)
  deadline : Nat
  forWhom : RepairFor
  /-- Not yet begun: it waits for a quiet interval, for CHECK's start, or for its background class (R257, R262, R264). -/
  deferred : Bool := false
  deriving DecidableEq, Repr

/-- A hold that a holder keeps for a chain it started (R260). -/
structure ChainHold where
  tag : Nat
  requester : Coord
  stripe : Nat
  deadline : Nat
  deriving DecidableEq, Repr

/-- What a SCRUB_RANGE or REPAIR_RANGE has met so far (R266). -/
structure RangeWait where
  ring : Fin 16
  idx : Nat
  corrected : Nat := 0
  repaired : Nat := 0
  failed : Nat := 0
  deriving DecidableEq, Repr

/-- The page guard, the ditch rider and repairs. -/
structure Guard where
  damaged : List Nat := []
  /-- The corrections of the command's reads are written back only by the next command (R255). The model's own field. -/
  lateFix : Bool := false
  /-- Corrections read and not yet written back (R255): the page, its error pattern, its check symbols' error pattern. -/
  fixes : List (Nat × Bytes × Bytes) := []
  /-- New bytes that wait for the repair of their page (R253): the page, their place in it, the bytes. -/
  merges : List (Nat × Nat × Bytes) := []
  injections : List (Fin 24 × Nat × Nat) := []
  nextTag : Nat := 1
  attempts : List Attempt := []
  buffer : List (Nat × (Nat × Bytes)) := []
  holds : List ChainHold := []
  overlays : List (Nat × Nat × Bytes) := []
  ranges : List RangeWait := []
  /-- The ditch rider's cycle: start, chunks still to visit as they lay then (region, chunk, address), total (R267, R268). -/
  cycleAt : Option Nat := none
  cycleTodo : List (Nat × Nat × Nat) := []
  cycleTotal : Nat := 0
  cycleDone : Nat := 0
  overran : Bool := false
  backlog : Nat := 0
  scrubSuspended : Bool := false
  deriving DecidableEq, Repr

/-! ### Pond, drains, streaming (file 09) -/

/-- A shard of a drain (R280): its number, kind, tensor and operand, plane, first pond chunk and chunk count. -/
structure Shard where
  q : Nat
  kind : Nat
  tensor : Nat
  operand : Nat
  plane : Nat
  addr : Nat
  chunks : Nat
  first : Nat
  width : Nat
  deriving DecidableEq, Repr

/-- A drain in progress (R286 to R292). `stage`: 0 the manifest is being zeroed, 1 shards, 2 the table is written, 3 the manifest is. -/
structure Drain where
  ring : Fin 16
  idx : Nat
  waitNext : Bool
  /-- The plan that the pond record names, and the record's header page as read when the drain began. -/
  plan : Option Plan := none
  header : Bytes := []
  stage : Nat := 0
  slot : Nat := 0
  seq : Nat := 0
  todo : List Shard := []
  entries : List Bytes := []
  offset : Nat := 0
  /-- A barrier has completed while the job was frozen, and its step waits for the release (R291). -/
  due : Bool := false
  /-- The shard being written: its frames so far and its next chunk. -/
  frames : List Bytes := []
  nextChunk : Nat := 0
  src : Nat := 0
  stored : Nat := 0
  written : Nat := 0
  covered : Nat := 0
  absent : Nat := 0
  /-- Output that waits for the flash port, in order: where it goes in the partition, and its bytes (R292). -/
  out : List (Nat × Bytes) := []
  deriving DecidableEq, Repr

/-- A pond copy in progress (R273, R276): for a turn, by its index, or for a SNAP_POND; the plan under which it runs to its end (R92). -/
structure PondCopy where
  turn : Option Nat
  plan : Option Plan := none
  ring : Fin 16 := 0
  idx : Nat := 0
  next : Nat := 0
  failed : Bool := false
  deriving DecidableEq, Repr

/-- A streamed window in progress (R295, R296). -/
structure Stream where
  ring : Fin 16
  idx : Nat
  next : Nat := 0
  deriving DecidableEq, Repr

/-- What waits for the flash controller's barrier (R62, R287, R299, R427). -/
inductive Barrier where
  | drain
  | other
  deriving DecidableEq, Repr

/-- The pond, the spillway and streaming. -/
structure Pond where
  held : Bool := false
  copies : Nat := 0
  /-- The mode epoch in force at the commit that the pond's copy describes, and at the last commit (R304). -/
  epoch : Nat := 0
  commitEpoch : Nat := 0
  /-- OSE_SNAP_PIN as the last window tick took it (R397). -/
  pins : Nat := 0
  copy : Option PondCopy := none
  /-- Where the pond record last written lies in HBM, for the start that finds it again (R419). -/
  recAt : Option Nat := none
  drain : Option Drain := none
  streams : List Stream := []
  barriers : List Barrier := []
  deriving DecidableEq, Repr

/-! ### Restore (file 10) -/

/-- A source entry (R307). -/
structure Source where
  holder : Coord
  tier : Nat
  slot : Nat
  shard : Nat
  step : Nat
  planId : Nat
  oldTag : Nat
  oldCoord : Coord
  tensor : Nat
  kind : Nat
  operand : Nat
  plane : Nat
  fmt : Nat
  first : Nat
  count : Nat
  addr : Nat
  stored : Nat
  sum : Nat
  deriving DecidableEq, Repr

/-- An ownership entry (R308). -/
structure Owner where
  owner : Coord
  tensor : Nat
  first : Nat
  elems : Nat
  deriving DecidableEq, Repr

/-- A piece of a destination's need (R313): items of one array, and the source it comes from now. -/
structure Piece where
  dest : Coord
  tensor : Nat
  kind : Nat
  operand : Nat
  plane : Nat
  first : Nat
  count : Nat
  /-- First byte of the piece in the destination's plot, and its bytes; past the plot for the pond record (assumption 40). -/
  at_ : Nat
  bytes : Nat
  source : Nat
  /-- The next chunk to push, for a holder. -/
  next : Nat
  /-- Pushed whole, withdrawn, or left missing. -/
  done : Bool := false
  deriving DecidableEq, Repr

/-- A restore in progress (R306 to R321). `state` as OSE_RS_STATE gives it. -/
structure Restore where
  state : Nat := 0
  status : Nat := 0
  running : Bool := false
  ring : Fin 16 := 0
  idx : Nat := 0
  mapSum : Nat := 0
  candidates : List Nat := []
  owners : List Owner := []
  sources : List Source := []
  mapAddr : Nat := 0
  choiceAt : Nat := 0
  doneAt : Nat := 0
  vector : Nat := 0
  stale : Bool := false
  kids : List (Coord × RestoreRec) := []
  ownSent : Bool := false
  verdictSent : Bool := false
  missing : Bool := false
  step : Option Nat := none
  pieces : List Piece := []
  /-- Bytes received for chunks not yet whole: (chunk, got byte ranges, bytes). -/
  chunks : List (Nat × List (Nat × Nat) × Bytes) := []
  written : List Nat := []
  /-- Chunks whose content this restore changed. -/
  spoiled : List Nat := []
  /-- Chunks of the pond record received, as (chunk past the plot, bytes). -/
  recs : List (Nat × Bytes) := []
  credits : List (Coord × Nat) := []
  credited : Nat := 0
  writtenBytes : Nat := 0
  totalWritten : Nat := 0
  totalPushed : Nat := 0
  /-- OSE_RS_STEP. -/
  lastStep : Option Nat := none
  /-- The live offer of R301, withdrawn by a write of the plot. -/
  liveOffer : Bool := false
  /-- Chunks of its plot that a spare rebuilt as class S1, not written since (R301). -/
  spareOffer : List Nat := []
  /-- The spare's refill came from a freeze past phase 3: it offers none of them (R301). -/
  spareLate : Bool := false
  /-- The candidate vector of the last choice verdict (OSE_RS_VECTOR, R322). -/
  verdictVector : Nat := 0
  /-- After an OK verdict: the first PLAN_ARM must arm at this step (R319). -/
  armStep : Option Nat := none
  deriving DecidableEq, Repr

/-! ### Jobs (file 11) -/

/-- A staged start (R336 to R341). `outcome`: 0 undecided, 1 GO held, 2 ABORT held. -/
structure StagedStart where
  fields : StartFields
  isRoot : Bool
  /-- When it was staged: one staged past the cut-off sends nothing (R338). -/
  at_ : Nat := 0
  outcome : Nat := 0
  bits : List (Nat × List Nat) := []
  kids : List (Nat × List Coord) := []
  sent : List Nat := []
  decided : Bool := false
  deriving DecidableEq, Repr

/-- A pending mode change (R345), or the companion of a spare (R342). -/
structure PendingMode where
  epoch : Nat
  instant : Nat
  mode : Nat
  flags : Nat
  companion : Bool := false
  /-- Missed, or failed at its instant: the chip holds, and the change applies no more (R345 to R347). -/
  missed : Bool := false
  deriving DecidableEq, Repr

/-- Drops of one class counted since its last EVENT (R332). -/
structure DropClass where
  count : Nat := 0
  header : Quad := 0
  lastEvent : Option Nat := none
  deriving DecidableEq, Repr

/-- Identity, start and mode (R323 to R349). -/
structure Job where
  live : Bool := false
  liveAt : Nat := 0
  held : Bool := false
  isRoot : Bool := false
  outcome : Nat := 0
  staged : Option StagedStart := none
  /-- The tag whose start copies conflicted: no later copy is taken (R337). -/
  conflicted : Option Nat := none
  epoch : Nat := 0
  mode : Nat := 0
  pendingMode : Option PendingMode := none
  foreign : DropClass := {}
  staleGen : DropClass := {}
  epochDrops : DropClass := {}
  /-- The axis map taken with the staged tag (R448): staged and in force. -/
  axisStaged : Option Nat := none
  axis : Nat := 0
  deriving DecidableEq, Repr

/-! ### Power, controllers, firmware, culvert (files 13 to 15) -/

/-- The power link, the sluice's measurements and the engine's power state (R86, R93, R405 to R414). -/
structure Power where
  state : Nat := 0
  moving : Option Nat := none
  refused : Bool := false
  pointClass : Nat := 0
  supply : Nat := 0
  leaseHold : Bool := false
  leaseGrant : Bool := false
  breach : Bool := false
  grant : Nat := 0
  admMargin : Nat := 0
  /-- Replica readings of the last 10 µs, by chain, with their instants (R86). -/
  replicas : List (Nat × Nat × Nat) := []
  claim : Bool := false
  /-- The background caps in force, by channel, as the last window tick latched them (R397, R403). -/
  caps : List Nat := List.replicate 24 0x7D
  /-- Bytes of background and descriptor traffic in the window, by channel, with what earlier windows left over (R45, R361). -/
  bgUsed : List Nat := List.replicate 24 0
  /-- Channels on which that traffic has reached the cap in the window (R402). -/
  capped : List Nat := []
  energy : Nat := 0
  lock : Bool := false
  /-- When lock last returned: no turn is admitted for 1 ms (R65). -/
  lockBack : Option Nat := none
  deriving DecidableEq, Repr

/-- One controller (R404): 0 stopped, 1 loading, 2 running, 3 trapped. -/
structure Controller where
  state : Nat := 0
  cause : Nat := 0
  image : Word := 0
  deriving DecidableEq, Repr

/-- The bank states (R440). -/
inductive BankState where
  | empty
  | staged
  | trial
  | confirmed
  | previous
  | rejected
  deriving DecidableEq, Repr

/-- A bank: its state, how many patches its chain holds, its resulting version. -/
structure Bank where
  state : BankState := .empty
  patches : Nat := 0
  version : Nat := 0
  deriving DecidableEq, Repr

/-- The always-on scratch (R435). -/
structure Scratch where
  valid : Bool := false
  count : Nat := 0
  dry : Bool := false
  cause : Nat := 0
  stage : Nat := 0
  confirmed : Nat := 0
  trial : Nat := 3
  startSeq : Nat := 0
  journalSeq : Nat := 0
  cleanAt : Nat := 0
  /-- The latest start has raised the count and recorded neither stage 9 nor a cause (R434). -/
  unended : Bool := false
  deriving DecidableEq, Repr

/-- Firmware and starts (R425 to R446). Banks: 0 A, 1 B. -/
structure Firmware where
  banks : List Bank := [{ state := .confirmed }, {}]
  /-- Parts held in the staging area. -/
  parts : List Nat := []
  /-- Which settings copy belongs to each bank (R427, R439). -/
  settings : List Nat := [0, 1]
  activation : Option (Nat × Nat) := none
  running : Option Nat := none
  runVersion : Nat := 0
  codeBank : Nat := 0
  unconfirmed : Bool := false
  serialBound : Bool := false
  patches : Nat := 0
  lastStatus : Nat := 0
  journalSeq : Nat := 0
  journalSlot : Nat := 0
  /-- Start count and DRY_CAUSE of the newest journal record (R427). -/
  journalCount : Nat := 0
  journalCause : Nat := 0
  /-- The newest journal record is the one that a start's stage 1 wrote: that start raised the count and recorded no end (R431, R434). -/
  journalOpen : Bool := false
  fallback : Bool := false
  flashBase : Nat := 0
  flashLen : Nat := 0
  hwType : Nat := 0
  serial : Nat := 0
  /-- Whether OSE_FW_POLICY said RESET_DEFAULTS at the last activation (R397, R439). -/
  defaults : Bool := false
  /-- The replica trims read at start, Q4.12 per chain (R438). -/
  trims : List Nat := []
  retryAt : Option Nat := none
  deriving DecidableEq, Repr

/-- A queued event (R451). -/
structure Event where
  code : Nat
  status : Nat
  cause : Nat
  at_ : Nat
  detail : Bytes
  tag : Nat
  deriving DecidableEq, Repr

/-- A frame the engine sends: 64 bytes are `Frame.bytes` (R451, R452). -/
inductive Frame where
  | event (seq lost : Nat) (ev : Event)
  | heartbeat (seq instant status starts step committed evSeq epoch version tag : Nat)
  deriving DecidableEq, Repr

/-- The culvert (R447 to R452). -/
structure Culvert where
  queue : List Event := []
  lost : Nat := 0
  evSeq : Nat := 0
  /-- Instants of the EVENT frames of the last second, newest first. -/
  sentAt : List Nat := []
  hbSeq : Nat := 0
  /-- When the last heartbeat went. -/
  hbAt : Option Nat := none
  heartbeats : Bool := false
  rxLast : Nat := 0
  txLast : Nat := 0
  /-- The last frame of each type that the engine acted on (R450): type, tag, body. -/
  acted : List (Nat × (Nat × CulMsg)) := []
  /-- Frames held in E2, a controller restart or a handover (R410, R418, R444). -/
  heldFrames : List (FrameHead × CulMsg) := []
  sent : List Frame := []
  deriving DecidableEq, Repr

/-- The engine. -/
structure State where
  /-- Commands waiting, first in, first out. The model's own field. -/
  pending : List Instr
  /-- Hall time and host time as the last command carried them (R60, R64). -/
  ht : Nat
  hostTime : Nat
  /-- Registers stored by offset: those whose value differs from their reset value, offsets rising. -/
  regs : List (Nat × Word)
  /-- Captures of read-only pairs by the offset of their _HI half (R10). -/
  wideCap : List (Nat × Word)
  /-- The captured intake entries: number, registers, the index of the next read (R387). -/
  intakeCap : List (Nat × List Word × Nat)
  /-- Values written to the _LO half of a writable pair, by its offset (R10). -/
  loHold : List (Nat × Word)
  /-- What the last register read answered. The model's own field. -/
  lastRead : Word
  hbm : Mem
  /-- The check space, keyed by controller × 2^32 + offset (R250). -/
  check : Mem
  /-- 32 B beats that the memory controllers mark uncorrectable, by address; check-space beats from 2^41 (R46). -/
  badBeats : List Nat
  /-- 4 KiB flash units that the flash controller reads as uncorrectable, by number in the partition (R63). -/
  badUnits : List Nat
  /-- The engine detects a fault in itself in the work of the command (R381). The model's own field. -/
  selfFault : Bool
  hostMem : Mem
  flash : Mem
  /-- Region declarations: base and size, by region 0 to 4 (R16, R372). -/
  regions : Vector (Nat × Nat) 5
  /-- The windows that the memory partition holds in force; they follow the declarations with its report (R17, R47). -/
  windows : Vector (Nat × Nat) 5
  /-- REGION_SETs applied, waiting for the memory partition's report, or, reported, for the end of a controller restart: ring, index, mask,
  reported (R47, R418). -/
  regionWait : List (Fin 16 × Nat × Nat × Bool)
  rings : Vector Ring 16
  takeCount : Nat
  plans : Plans
  step : Step
  red : Reduction
  grads : Gradients
  upd : Update
  basin : Basin
  agree : Agreement
  refill : Refill
  guard : Guard
  pond : Pond
  restore : Restore
  job : Job
  power : Power
  ctl : Vector Controller 4
  /-- Controllers under restart, by bit (R418). -/
  restarting : List (Fin 4)
  /-- The trap cause of the restart under way; 0 for one that the host asked for (R418, R451). -/
  restartCause : Nat
  fw : Firmware
  scratch : Scratch
  culvert : Culvert
  ready : Bool
  dry : Bool
  pendingCommit : Bool
  staged : List Nat
  /-- The shadow registers that some commit has put in force since the engine lost them (R218). -/
  cfgDone : List Nat
  lastWriter : Bool
  /-- The boot ROM's DRY event was last sent at this instant (R436). -/
  dryEventAt : Nat
  /-- Packets issued, oldest first. The model's own record of what the fabric port sent. -/
  sent : List Packet
  /-- Packets of a controller under restart, issued when the restart ends (R418). -/
  delayed : List Packet
  /-- MSI-X messages sent, oldest first: ring, vector and instant. The model's own record. -/
  msix : List (Fin 16 × Nat × Nat)
  /-- The free-value counter. The model's own field. -/
  freeCtr : Nat
  deriving DecidableEq, Repr

/-- The engine at power-on, before the start sequence: every register at its reset value, memory empty, nothing in progress. -/
def State.reset : State where
  pending := []
  ht := 0
  hostTime := 0
  regs := []
  wideCap := []
  intakeCap := []
  loHold := []
  lastRead := 0
  hbm := []
  check := []
  badBeats := []
  badUnits := []
  selfFault := false
  hostMem := []
  flash := []
  regions := Vector.replicate 5 (0, 0)
  windows := Vector.replicate 5 (0, 0)
  regionWait := []
  rings := Vector.replicate 16 {}
  takeCount := 0
  plans := {}
  step := {}
  red := {}
  grads := {}
  upd := {}
  basin := {}
  agree := {}
  refill := {}
  guard := {}
  pond := {}
  restore := {}
  job := {}
  power := {}
  ctl := Vector.replicate 4 {}
  restarting := []
  restartCause := 0
  fw := {}
  scratch := {}
  culvert := {}
  ready := false
  dry := false
  pendingCommit := false
  staged := []
  cfgDone := []
  lastWriter := false
  dryEventAt := 0
  sent := []
  delayed := []
  msix := []
  freeCtr := 0

end Sys2Proof.Machine
end

