-- ==== Sys2Proof/Machine/Regs.lean ====
section
/-! DEFINITION. The register window: every register of the maps of spec/ (files 04 to 15), with its access code, its reset value
and its Survives entry, and the plain read and write of a stored register. -/

namespace Sys2Proof.Machine

open Sys2Proof

/-- The access codes of R11; `ctr` marks an RW counter or peak register, which clears when written with any value (R385). -/
inductive Access where
  | rw
  | ro
  | wo
  | w1c
  | rwc
  | rs
  | ctr
  deriving DecidableEq, Repr

/-- A row of a register map: offset, number of copies and their stride, access, reset value, and the Survives codes as bits
(0 W, 1 E, 2 G, 3 C, 4 S2, 5 S3; none set: the dash). -/
structure RegRow where
  off : Nat
  cnt : Nat
  stride : Nat
  acc : Access
  reset : Word
  surv : Nat
  deriving DecidableEq, Repr


/-! ### Offsets of the registers, by name (register bank 0) -/

namespace Reg

/-- OSE_MARGIN (R101). -/
abbrev margin : Nat := 0x2010
/-- OSE_MARGIN_GUARD (R101). -/
abbrev marginGuard : Nat := 0x2014
/-- OSE_MARGIN_FLOOR (R101). -/
abbrev marginFloor : Nat := 0x2018
/-- OSE_LEASE_LEAD (R101). -/
abbrev leaseLead : Nat := 0x201C
/-- OSE_LEASE_STATUS (R101). -/
abbrev leaseStatus : Nat := 0x2020
/-- OSE_ALLOT_GRANT (R101). -/
abbrev allotGrant : Nat := 0x2024
/-- OSE_BG_ENABLE (R101). -/
abbrev bgEnable : Nat := 0x2028
/-- OSE_BG_COST0 (R101). -/
abbrev bgCost0 : Nat := 0x2030
/-- OSE_BG_COST1 (R101). -/
abbrev bgCost1 : Nat := 0x2034
/-- OSE_BG_COST2 (R101). -/
abbrev bgCost2 : Nat := 0x2038
/-- OSE_BG_COST3 (R101). -/
abbrev bgCost3 : Nat := 0x203C
/-- OSE_BG_COST4 (R101). -/
abbrev bgCost4 : Nat := 0x2040
/-- OSE_BG_COST5 (R101). -/
abbrev bgCost5 : Nat := 0x2044
/-- OSE_BG_COST6 (R101). -/
abbrev bgCost6 : Nat := 0x2048
/-- OSE_STEP_NEXT_LO (R101). -/
abbrev stepNextLo : Nat := 0x2050
/-- OSE_STEP_NEXT_HI (R101). -/
abbrev stepNextHi : Nat := 0x2054
/-- OSE_STEP_NUM (R101). -/
abbrev stepNum : Nat := 0x2058
/-- OSE_PLAN_ACTIVE (R101). -/
abbrev planActive : Nat := 0x2060
/-- OSE_PLAN_STANDBY (R101). -/
abbrev planStandby : Nat := 0x2064
/-- OSE_PLAN_STATE (R101). -/
abbrev planState : Nat := 0x2068
/-- OSE_TURN_OVERRUNS (R101). -/
abbrev turnOverruns : Nat := 0x2070
/-- OSE_TURN_REFUSALS (R101). -/
abbrev turnRefusals : Nat := 0x2074
/-- OSE_RED_LATE (R140). -/
abbrev redLate : Nat := 0x400
/-- OSE_RED_CUTS (R140). -/
abbrev redCuts : Nat := 0x404
/-- OSE_RED_EXCLUDED (R140). -/
abbrev redExcluded : Nat := 0x408
/-- OSE_RED_RESIDUE (R140). -/
abbrev redResidue : Nat := 0x40C
/-- OSE_RED_DIGEST (R140). -/
abbrev redDigest : Nat := 0x410
/-- OSE_RED_DUAL_CMP (R140). -/
abbrev redDualCmp : Nat := 0x414
/-- OSE_RED_DUAL_MISS (R140). -/
abbrev redDualMiss : Nat := 0x418
/-- OSE_RED_UNVERIFIED (R140). -/
abbrev redUnverified : Nat := 0x41C
/-- OSE_RED_SAT (R140). -/
abbrev redSat : Nat := 0x420
/-- OSE_RED_POISON (R140). -/
abbrev redPoison : Nat := 0x424
/-- OSE_UPD_ELEMS_LO (R174). -/
abbrev updElemsLo : Nat := 0x440
/-- OSE_UPD_ELEMS_HI (R174). -/
abbrev updElemsHi : Nat := 0x444
/-- OSE_UPD_UNITS_SKIPPED (R174). -/
abbrev updUnitsSkipped : Nat := 0x448
/-- OSE_UPD_NONFINITE (R174). -/
abbrev updNonfinite : Nat := 0x44C
/-- OSE_UPD_SAT (R174). -/
abbrev updSat : Nat := 0x450
/-- OSE_UPD_TENSOR_SKIPS (R174). -/
abbrev updTensorSkips : Nat := 0x454
/-- OSE_UPD_POLICY_FAILS (R174). -/
abbrev updPolicyFails : Nat := 0x458
/-- OSE_JOB_SEED_LO (R174). -/
abbrev jobSeedLo : Nat := 0x1040
/-- OSE_JOB_SEED_HI (R174). -/
abbrev jobSeedHi : Nat := 0x1044
/-- OSE_BC_POLARITY (R208). -/
abbrev bcPolarity : Nat := 0x480
/-- OSE_BC_COMMITTED (R208). -/
abbrev bcCommitted : Nat := 0x484
/-- OSE_BC_COMMIT_AT_LO (R208). -/
abbrev bcCommitAtLo : Nat := 0x488
/-- OSE_BC_COMMIT_AT_HI (R208). -/
abbrev bcCommitAtHi : Nat := 0x48C
/-- OSE_BC_UNDO_USED (R208). -/
abbrev bcUndoUsed : Nat := 0x490
/-- OSE_BC_UNDO_PEAK (R208). -/
abbrev bcUndoPeak : Nat := 0x494
/-- OSE_BC_DELTAS (R208). -/
abbrev bcDeltas : Nat := 0x498
/-- OSE_BC_ACCUM_PAGES (R208). -/
abbrev bcAccumPages : Nat := 0x49C
/-- OSE_BC_RELAYED (R208). -/
abbrev bcRelayed : Nat := 0x4A0
/-- OSE_BC_MISPLACED (R208). -/
abbrev bcMisplaced : Nat := 0x4A4
/-- OSE_BC_DUPLICATE (R208). -/
abbrev bcDuplicate : Nat := 0x4A8
/-- OSE_BC_LIMIT_WAITS (R208). -/
abbrev bcLimitWaits : Nat := 0x4AC
/-- OSE_BC_NO_VERDICT (R208). -/
abbrev bcNoVerdict : Nat := 0x4B0
/-- OSE_BASIN_GEOM (R208). -/
abbrev basinGeom : Nat := 0x1050
/-- OSE_AGREE_TREE (R208). -/
abbrev agreeTree : Nat := 0x1054
/-- OSE_RF_STATE (R243). -/
abbrev rfState : Nat := 0x4C0
/-- OSE_RF_ID (R243). -/
abbrev rfId : Nat := 0x4C4
/-- OSE_RF_FROZEN_AT_LO (R243). -/
abbrev rfFrozenAtLo : Nat := 0x4C8
/-- OSE_RF_FROZEN_AT_HI (R243). -/
abbrev rfFrozenAtHi : Nat := 0x4CC
/-- OSE_RF_CHUNKS_S (R243). -/
abbrev rfChunksS : Nat := 0x4D0
/-- OSE_RF_CHUNKS_S1 (R243). -/
abbrev rfChunksS1 : Nat := 0x4D4
/-- OSE_RF_CHUNKS_PEER (R243). -/
abbrev rfChunksPeer : Nat := 0x4D8
/-- OSE_RF_ABSENT (R243). -/
abbrev rfAbsent : Nat := 0x4DC
/-- OSE_RF_BYTES_LO (R243). -/
abbrev rfBytesLo : Nat := 0x4E0
/-- OSE_RF_BYTES_HI (R243). -/
abbrev rfBytesHi : Nat := 0x4E4
/-- OSE_RF_FROZEN_DROPS (R243). -/
abbrev rfFrozenDrops : Nat := 0x4E8
/-- OSE_RF_CLOSED_DROPS (R243). -/
abbrev rfClosedDrops : Nat := 0x4EC
/-- OSE_RF_RESENT (R243). -/
abbrev rfResent : Nat := 0x4F0
/-- OSE_PG_CTRL (R270). -/
abbrev pgCtrl : Nat := 0x500
/-- OSE_PG_SCRUB_CYCLE (R270). -/
abbrev pgScrubCycle : Nat := 0x504
/-- OSE_PG_SCRUB_BURST (R270). -/
abbrev pgScrubBurst : Nat := 0x508
/-- OSE_PG_SCRUB_DONE (R270). -/
abbrev pgScrubDone : Nat := 0x50C
/-- OSE_PG_SCRUB_BACKLOG (R270). -/
abbrev pgScrubBacklog : Nat := 0x510
/-- OSE_PG_SCRUB_CYCLES (R270). -/
abbrev pgScrubCycles : Nat := 0x514
/-- OSE_PG_SCRUB_OVERRUNS (R270). -/
abbrev pgScrubOverruns : Nat := 0x518
/-- OSE_PG_CORRECTED (R270). -/
abbrev pgCorrected : Nat := 0x520
/-- OSE_PG_REPAIRED (R270). -/
abbrev pgRepaired : Nat := 0x524
/-- OSE_PG_UNRECOVERABLE (R270). -/
abbrev pgUnrecoverable : Nat := 0x528
/-- OSE_PG_DAMAGED (R270). -/
abbrev pgDamaged : Nat := 0x52C
/-- OSE_PG_CANCELLED (R270). -/
abbrev pgCancelled : Nat := 0x530
/-- OSE_SRAM_CORRECTED (R270). -/
abbrev sramCorrected : Nat := 0x540
/-- OSE_SRAM_UNCORR (R270). -/
abbrev sramUncorr : Nat := 0x544
/-- OSE_SRAM_LAST (R270). -/
abbrev sramLast : Nat := 0x548
/-- OSE_SELFTEST (R270). -/
abbrev selftest : Nat := 0x550
/-- OSE_PG_STRENGTH (R270). -/
abbrev pgStrength : Nat := 0x1060
/-- OSE_CH_PG_CORR (R270). -/
abbrev chPgCorr : Nat := 0x10100
/-- OSE_CH_PG_UNCORR (R270). -/
abbrev chPgUncorr : Nat := 0x10104
/-- OSE_CH_PG_ERASED (R270). -/
abbrev chPgErased : Nat := 0x10108
/-- OSE_CH_PG_INJECT (R270). -/
abbrev chPgInject : Nat := 0x1010C
/-- OSE_POND_STATE (R298). -/
abbrev pondState : Nat := 0x580
/-- OSE_POND_STEP (R298). -/
abbrev pondStep : Nat := 0x584
/-- OSE_SNAP_SLOT_STATE (R298). -/
abbrev snapSlotState : Nat := 0x590
/-- OSE_SNAP_SEQ (R298). -/
abbrev snapSeq : Nat := 0x594
/-- OSE_SNAP_PIN (R298). -/
abbrev snapPin : Nat := 0x598
/-- OSE_SNAP_FLASH_CAP (R298). -/
abbrev snapFlashCap : Nat := 0x59C
/-- OSE_SNAP_SRC_LO (R298). -/
abbrev snapSrcLo : Nat := 0x5A0
/-- OSE_SNAP_SRC_HI (R298). -/
abbrev snapSrcHi : Nat := 0x5A4
/-- OSE_SNAP_OUT_LO (R298). -/
abbrev snapOutLo : Nat := 0x5A8
/-- OSE_SNAP_OUT_HI (R298). -/
abbrev snapOutHi : Nat := 0x5AC
/-- OSE_SNAP_COMMITS (R298). -/
abbrev snapCommits : Nat := 0x5B0
/-- OSE_SNAP_INCOMPLETE (R298). -/
abbrev snapIncomplete : Nat := 0x5B4
/-- OSE_SNAP_ABSENT (R298). -/
abbrev snapAbsent : Nat := 0x5B8
/-- OSE_STREAM_LATE (R298). -/
abbrev streamLate : Nat := 0x5BC
/-- OSE_STREAM_LATE_MAX (R298). -/
abbrev streamLateMax : Nat := 0x5C0
/-- OSE_SNAP_CFG (R298). -/
abbrev snapCfg : Nat := 0x1070
/-- OSE_RS_STATE (R322). -/
abbrev rsState : Nat := 0x600
/-- OSE_RS_STEP (R322). -/
abbrev rsStep : Nat := 0x604
/-- OSE_RS_VECTOR (R322). -/
abbrev rsVector : Nat := 0x608
/-- OSE_RS_LIVE (R322). -/
abbrev rsLive : Nat := 0x60C
/-- OSE_RS_WRITTEN_LO (R322). -/
abbrev rsWrittenLo : Nat := 0x610
/-- OSE_RS_WRITTEN_HI (R322). -/
abbrev rsWrittenHi : Nat := 0x614
/-- OSE_RS_PUSHED_LO (R322). -/
abbrev rsPushedLo : Nat := 0x618
/-- OSE_RS_PUSHED_HI (R322). -/
abbrev rsPushedHi : Nat := 0x61C
/-- OSE_RS_FALLBACKS (R322). -/
abbrev rsFallbacks : Nat := 0x620
/-- OSE_RS_DROPS (R322). -/
abbrev rsDrops : Nat := 0x624
/-- OSE_JOB_STATE (R349). -/
abbrev jobState : Nat := 0x640
/-- OSE_JOB_LIVE_AT_LO (R349). -/
abbrev jobLiveAtLo : Nat := 0x644
/-- OSE_JOB_LIVE_AT_HI (R349). -/
abbrev jobLiveAtHi : Nat := 0x648
/-- OSE_JOB_RETIRED (R349). -/
abbrev jobRetired : Nat := 0x64C
/-- OSE_JOB_RETIRED_AT_LO (R349). -/
abbrev jobRetiredAtLo : Nat := 0x650
/-- OSE_JOB_RETIRED_AT_HI (R349). -/
abbrev jobRetiredAtHi : Nat := 0x654
/-- OSE_MODE_EPOCH (R349). -/
abbrev modeEpoch : Nat := 0x658
/-- OSE_MODE_WORD (R349). -/
abbrev modeWord : Nat := 0x65C
/-- OSE_MODE_PENDING (R349). -/
abbrev modePending : Nat := 0x660
/-- OSE_MODE_AT_LO (R349). -/
abbrev modeAtLo : Nat := 0x664
/-- OSE_MODE_AT_HI (R349). -/
abbrev modeAtHi : Nat := 0x668
/-- OSE_DROP_MALFORMED (R349). -/
abbrev dropMalformed : Nat := 0x670
/-- OSE_DROP_FOREIGN (R349). -/
abbrev dropForeign : Nat := 0x674
/-- OSE_DROP_STALE_GEN (R349). -/
abbrev dropStaleGen : Nat := 0x678
/-- OSE_DROP_UNMAPPED (R349). -/
abbrev dropUnmapped : Nat := 0x67C
/-- OSE_DROP_SENDER (R349). -/
abbrev dropSender : Nat := 0x680
/-- OSE_DROP_NOTLIVE (R349). -/
abbrev dropNotlive : Nat := 0x684
/-- OSE_DROP_EPOCH (R349). -/
abbrev dropEpoch : Nat := 0x688
/-- OSE_DROP_REPAIR_TAG (R349). -/
abbrev dropRepairTag : Nat := 0x68C
/-- OSE_DROP_LAST_LO (R349). -/
abbrev dropLastLo : Nat := 0x690
/-- OSE_DROP_LAST_HI (R349). -/
abbrev dropLastHi : Nat := 0x694
/-- OSE_DROP_LAST_CAUSE (R349). -/
abbrev dropLastCause : Nat := 0x698
/-- OSE_JOB_TAG (R349). -/
abbrev jobTag : Nat := 0x1080
/-- OSE_JOB_EXTENT (R349). -/
abbrev jobExtent : Nat := 0x1084
/-- OSE_JOB_COORD (R349). -/
abbrev jobCoord : Nat := 0x1088
/-- OSE_INTAKE_w (R349). -/
abbrev intakeW : Nat := 0x50000
/-- OSE_RING_CTRL (R382). -/
abbrev ringCtrl : Nat := 0x40000
/-- OSE_RING_STATUS (R382). -/
abbrev ringStatus : Nat := 0x40004
/-- OSE_RING_SQ_BASE_LO (R382). -/
abbrev ringSqBaseLo : Nat := 0x40008
/-- OSE_RING_SQ_BASE_HI (R382). -/
abbrev ringSqBaseHi : Nat := 0x4000C
/-- OSE_RING_CQ_BASE_LO (R382). -/
abbrev ringCqBaseLo : Nat := 0x40010
/-- OSE_RING_CQ_BASE_HI (R382). -/
abbrev ringCqBaseHi : Nat := 0x40014
/-- OSE_RING_DB_LO (R382). -/
abbrev ringDbLo : Nat := 0x40018
/-- OSE_RING_DB_HI (R382). -/
abbrev ringDbHi : Nat := 0x4001C
/-- OSE_RING_SIZE (R382). -/
abbrev ringSize : Nat := 0x40020
/-- OSE_RING_POLL (R382). -/
abbrev ringPoll : Nat := 0x40024
/-- OSE_RING_POLL_IDLE (R382). -/
abbrev ringPollIdle : Nat := 0x40028
/-- OSE_RING_IRQ (R382). -/
abbrev ringIrq : Nat := 0x4002C
/-- OSE_RING_SQ_HEAD (R382). -/
abbrev ringSqHead : Nat := 0x40030
/-- OSE_RING_SQ_TAIL (R382). -/
abbrev ringSqTail : Nat := 0x40034
/-- OSE_RING_CQ_TAIL (R382). -/
abbrev ringCqTail : Nat := 0x40038
/-- OSE_RING_CQ_HEAD (R382). -/
abbrev ringCqHead : Nat := 0x4003C
/-- OSE_RING_LOST (R382). -/
abbrev ringLost : Nat := 0x40040
/-- OSE_RING_COMPLETED (R382). -/
abbrev ringCompleted : Nat := 0x40044
/-- OSE_RING_HALTS (R382). -/
abbrev ringHalts : Nat := 0x40048
/-- OSE_ID (R398). -/
abbrev id : Nat := 0x0
/-- OSE_HW_TYPE (R398). -/
abbrev hwType : Nat := 0x4
/-- OSE_SERIAL_LO (R398). -/
abbrev serialLo : Nat := 0x8
/-- OSE_SERIAL_HI (R398). -/
abbrev serialHi : Nat := 0xC
/-- OSE_STATUS (R398). -/
abbrev status : Nat := 0x10
/-- OSE_RESET (R398). -/
abbrev reset : Nat := 0x14
/-- OSE_EVENTS (R398). -/
abbrev events : Nat := 0x18
/-- OSE_RSVD_FIELDS (R398). -/
abbrev rsvdFields : Nat := 0x20
/-- OSE_BAD_ACCESS (R398). -/
abbrev badAccess : Nat := 0x24
/-- OSE_BAD_ACCESS_AT (R398). -/
abbrev badAccessAt : Nat := 0x28
/-- OSE_DRV_SCRATCH0 (R398). -/
abbrev drvScratch0 : Nat := 0x30
/-- OSE_DRV_SCRATCH1 (R398). -/
abbrev drvScratch1 : Nat := 0x34
/-- OSE_DRV_SCRATCH2 (R398). -/
abbrev drvScratch2 : Nat := 0x38
/-- OSE_DRV_SCRATCH3 (R398). -/
abbrev drvScratch3 : Nat := 0x3C
/-- OSE_HOST_TIME_LO (R398). -/
abbrev hostTimeLo : Nat := 0x40
/-- OSE_HOST_TIME_HI (R398). -/
abbrev hostTimeHi : Nat := 0x44
/-- OSE_CFG_COMMIT (R396). -/
abbrev cfgCommit : Nat := 0x1000
/-- OSE_CFG_STATUS (R396). -/
abbrev cfgStatus : Nat := 0x1004
/-- OSE_CFG_STAGED (R396). -/
abbrev cfgStaged : Nat := 0x1008
/-- OSE_CFG_FAIL (R396). -/
abbrev cfgFail : Nat := 0x100C
/-- OSE_CFG_APPLIED_AT_LO (R396). -/
abbrev cfgAppliedAtLo : Nat := 0x1010
/-- OSE_CFG_APPLIED_AT_HI (R396). -/
abbrev cfgAppliedAtHi : Nat := 0x1014
/-- OSE_CFG_COMMITS (R396). -/
abbrev cfgCommits : Nat := 0x1018
/-- OSE_CFG_DISAGREES (R396). -/
abbrev cfgDisagrees : Nat := 0x101C
/-- OSE_CFG_LATE (R396). -/
abbrev cfgLate : Nat := 0x1020
/-- OSE_JOB_SEED_LO (in force) (R389). -/
abbrev jobSeedLoF : Nat := 0x1840
/-- OSE_JOB_SEED_HI (in force) (R389). -/
abbrev jobSeedHiF : Nat := 0x1844
/-- OSE_BASIN_GEOM (in force) (R389). -/
abbrev basinGeomF : Nat := 0x1850
/-- OSE_AGREE_TREE (in force) (R389). -/
abbrev agreeTreeF : Nat := 0x1854
/-- OSE_PG_STRENGTH (in force) (R389). -/
abbrev pgStrengthF : Nat := 0x1860
/-- OSE_SNAP_CFG (in force) (R389). -/
abbrev snapCfgF : Nat := 0x1870
/-- OSE_JOB_TAG (in force) (R389). -/
abbrev jobTagF : Nat := 0x1880
/-- OSE_JOB_EXTENT (in force) (R389). -/
abbrev jobExtentF : Nat := 0x1884
/-- OSE_JOB_COORD (in force) (R389). -/
abbrev jobCoordF : Nat := 0x1888
/-- OSE_HT_LO (R401). -/
abbrev htLo : Nat := 0x2000
/-- OSE_HT_HI (R401). -/
abbrev htHi : Nat := 0x2004
/-- OSE_HT_LOCK (R401). -/
abbrev htLock : Nat := 0x2008
/-- OSE_HT_LOCK_DROPS (R401). -/
abbrev htLockDrops : Nat := 0x200C
/-- OSE_PWR_CTRL (R401). -/
abbrev pwrCtrl : Nat := 0x2080
/-- OSE_PWR_STATUS (R401). -/
abbrev pwrStatus : Nat := 0x2084
/-- OSE_POINT (R401). -/
abbrev point : Nat := 0x2088
/-- OSE_ENERGY_LO (R401). -/
abbrev energyLo : Nat := 0x2090
/-- OSE_ENERGY_HI (R401). -/
abbrev energyHi : Nat := 0x2094
/-- OSE_BREACHES (R401). -/
abbrev breaches : Nat := 0x2098
/-- OSE_CH_ID (R402). -/
abbrev chId : Nat := 0x10000
/-- OSE_CH_STATUS (R402). -/
abbrev chStatus : Nat := 0x10004
/-- OSE_CH_BGCAP (R402). -/
abbrev chBgcap : Nat := 0x10008
/-- OSE_CH_RD_LO (R402). -/
abbrev chRdLo : Nat := 0x10010
/-- OSE_CH_RD_HI (R402). -/
abbrev chRdHi : Nat := 0x10014
/-- OSE_CH_WR_LO (R402). -/
abbrev chWrLo : Nat := 0x10018
/-- OSE_CH_WR_HI (R402). -/
abbrev chWrHi : Nat := 0x1001C
/-- OSE_CH_CLAIMS (R402). -/
abbrev chClaims : Nat := 0x10020
/-- OSE_CH_CAPPED (R402). -/
abbrev chCapped : Nat := 0x10024
/-- OSE_CTL_STATE (R404). -/
abbrev ctlState : Nat := 0x60000
/-- OSE_CTL_IMAGE (R404). -/
abbrev ctlImage : Nat := 0x60004
/-- OSE_CTL_TRAPS (R404). -/
abbrev ctlTraps : Nat := 0x60008
/-- OSE_CTL_TRAP_AT (R404). -/
abbrev ctlTrapAt : Nat := 0x6000C
/-- OSE_CTL_RESTARTS (R404). -/
abbrev ctlRestarts : Nat := 0x60010
/-- OSE_FW_ACTIVE (R404). -/
abbrev fwActive : Nat := 0x60800
/-- OSE_FW_STANDBY (R404). -/
abbrev fwStandby : Nat := 0x60804
/-- OSE_FW_STATE (R404). -/
abbrev fwState : Nat := 0x60808
/-- OSE_FW_POLICY (R404). -/
abbrev fwPolicy : Nat := 0x6080C
/-- OSE_START_COUNT (R404). -/
abbrev startCount : Nat := 0x60810
/-- OSE_STARTS (R404). -/
abbrev starts : Nat := 0x60814
/-- OSE_CUL_RX (R404). -/
abbrev culRx : Nat := 0x60C00
/-- OSE_CUL_TX (R404). -/
abbrev culTx : Nat := 0x60C04
/-- OSE_CUL_BAD_CRC (R404). -/
abbrev culBadCrc : Nat := 0x60C08
/-- OSE_CUL_UNKNOWN (R404). -/
abbrev culUnknown : Nat := 0x60C0C
/-- OSE_CUL_LAST (R404). -/
abbrev culLast : Nat := 0x60C10
/-- OSE_CUL_HB (R404). -/
abbrev culHb : Nat := 0x60C14

end Reg

/-- Register rows of 03_turn_plan.md (part 1). -/
def regMap1 : List RegRow := [
  ⟨0x2010, 1, 0x0, .ro, 0x0#32, 0⟩,
  ⟨0x2014, 1, 0x0, .rw, 0x40#32, 28⟩,
  ⟨0x2018, 1, 0x0, .rw, 0x800#32, 28⟩,
  ⟨0x201C, 1, 0x0, .rw, 0x7A120#32, 28⟩,
  ⟨0x2020, 1, 0x0, .ro, 0x0#32, 0⟩,
  ⟨0x2024, 1, 0x0, .ro, 0x0#32, 0⟩,
  ⟨0x2028, 1, 0x0, .rw, 0x7F#32, 28⟩,
  ⟨0x2030, 1, 0x0, .ro, 0x5A#32, 63⟩,
  ⟨0x2034, 1, 0x0, .ro, 0x78#32, 63⟩,
  ⟨0x2038, 1, 0x0, .ro, 0x3C#32, 63⟩,
  ⟨0x203C, 1, 0x0, .ro, 0x23#32, 63⟩,
  ⟨0x2040, 1, 0x0, .ro, 0x96#32, 63⟩,
  ⟨0x2044, 1, 0x0, .ro, 0x14#32, 63⟩,
  ⟨0x2048, 1, 0x0, .ro, 0x6E#32, 63⟩,
  ⟨0x2050, 1, 0x0, .ro, 0x0#32, 28⟩,
  ⟨0x2054, 1, 0x0, .ro, 0x0#32, 28⟩,
  ⟨0x2058, 1, 0x0, .ro, 0x0#32, 28⟩,
  ⟨0x2060, 1, 0x0, .ro, 0x0#32, 28⟩,
  ⟨0x2064, 1, 0x0, .ro, 0x0#32, 28⟩,
  ⟨0x2068, 1, 0x0, .ro, 0x0#32, 28⟩,
  ⟨0x2070, 1, 0x0, .ro, 0x0#32, 28⟩,
  ⟨0x2074, 1, 0x0, .ro, 0x0#32, 28⟩]

/-- Register rows of 04_exact_reduction.md (part 1). -/
def regMap2 : List RegRow := [
  ⟨0x400, 1, 0x0, .ctr, 0x0#32, 28⟩,
  ⟨0x404, 1, 0x0, .ctr, 0x0#32, 28⟩,
  ⟨0x408, 1, 0x0, .ctr, 0x0#32, 28⟩,
  ⟨0x40C, 1, 0x0, .ctr, 0x0#32, 28⟩,
  ⟨0x410, 1, 0x0, .ctr, 0x0#32, 28⟩,
  ⟨0x414, 1, 0x0, .ctr, 0x0#32, 28⟩,
  ⟨0x418, 1, 0x0, .ctr, 0x0#32, 28⟩,
  ⟨0x41C, 1, 0x0, .ctr, 0x0#32, 28⟩,
  ⟨0x420, 1, 0x0, .ctr, 0x0#32, 28⟩,
  ⟨0x424, 1, 0x0, .ctr, 0x0#32, 28⟩]

/-- Register rows of 05_update_unit.md (part 1). -/
def regMap3 : List RegRow := [
  ⟨0x440, 1, 0x0, .ro, 0x0#32, 28⟩,
  ⟨0x444, 1, 0x0, .ro, 0x0#32, 28⟩,
  ⟨0x448, 1, 0x0, .ro, 0x0#32, 28⟩,
  ⟨0x44C, 1, 0x0, .ctr, 0x0#32, 28⟩,
  ⟨0x450, 1, 0x0, .ctr, 0x0#32, 28⟩,
  ⟨0x454, 1, 0x0, .ctr, 0x0#32, 28⟩,
  ⟨0x458, 1, 0x0, .ctr, 0x0#32, 28⟩,
  ⟨0x1040, 1, 0x0, .rwc, 0x0#32, 28⟩,
  ⟨0x1044, 1, 0x0, .rwc, 0x0#32, 28⟩]

/-- Register rows of 06_basin_code.md (part 1). -/
def regMap4 : List RegRow := [
  ⟨0x480, 1, 0x0, .ro, 0x0#32, 28⟩,
  ⟨0x484, 1, 0x0, .ro, 0xFFFFFFFF#32, 28⟩,
  ⟨0x488, 1, 0x0, .ro, 0x0#32, 28⟩,
  ⟨0x48C, 1, 0x0, .ro, 0x0#32, 28⟩,
  ⟨0x490, 1, 0x0, .ro, 0x0#32, 28⟩,
  ⟨0x494, 1, 0x0, .ctr, 0x0#32, 28⟩,
  ⟨0x498, 1, 0x0, .ctr, 0x0#32, 28⟩,
  ⟨0x49C, 1, 0x0, .ctr, 0x0#32, 28⟩,
  ⟨0x4A0, 1, 0x0, .ctr, 0x0#32, 28⟩,
  ⟨0x4A4, 1, 0x0, .ctr, 0x0#32, 28⟩,
  ⟨0x4A8, 1, 0x0, .ctr, 0x0#32, 28⟩,
  ⟨0x4AC, 1, 0x0, .ctr, 0x0#32, 28⟩,
  ⟨0x4B0, 1, 0x0, .ctr, 0x0#32, 28⟩,
  ⟨0x1050, 1, 0x0, .rwc, 0x0#32, 28⟩,
  ⟨0x1054, 1, 0x0, .rwc, 0x0#32, 28⟩]

/-- Register rows of 07_refill_and_replay.md (part 1). -/
def regMap5 : List RegRow := [
  ⟨0x4C0, 1, 0x0, .ro, 0x0#32, 28⟩,
  ⟨0x4C4, 1, 0x0, .ro, 0x0#32, 28⟩,
  ⟨0x4C8, 1, 0x0, .ro, 0x0#32, 28⟩,
  ⟨0x4CC, 1, 0x0, .ro, 0x0#32, 28⟩,
  ⟨0x4D0, 1, 0x0, .ro, 0x0#32, 28⟩,
  ⟨0x4D4, 1, 0x0, .ro, 0x0#32, 28⟩,
  ⟨0x4D8, 1, 0x0, .ro, 0x0#32, 28⟩,
  ⟨0x4DC, 1, 0x0, .ro, 0x0#32, 28⟩,
  ⟨0x4E0, 1, 0x0, .ro, 0x0#32, 28⟩,
  ⟨0x4E4, 1, 0x0, .ro, 0x0#32, 28⟩,
  ⟨0x4E8, 1, 0x0, .ctr, 0x0#32, 28⟩,
  ⟨0x4EC, 1, 0x0, .ctr, 0x0#32, 28⟩,
  ⟨0x4F0, 1, 0x0, .ctr, 0x0#32, 28⟩]

/-- Register rows of 08_page_guard.md (part 1). -/
def regMap6 : List RegRow := [
  ⟨0x500, 1, 0x0, .rw, 0x0#32, 28⟩,
  ⟨0x504, 1, 0x0, .rw, 0x258#32, 28⟩,
  ⟨0x508, 1, 0x0, .rw, 0x40#32, 28⟩,
  ⟨0x50C, 1, 0x0, .ro, 0x0#32, 28⟩,
  ⟨0x510, 1, 0x0, .ro, 0x0#32, 28⟩,
  ⟨0x514, 1, 0x0, .ctr, 0x0#32, 28⟩,
  ⟨0x518, 1, 0x0, .ctr, 0x0#32, 28⟩,
  ⟨0x520, 1, 0x0, .ctr, 0x0#32, 28⟩,
  ⟨0x524, 1, 0x0, .ctr, 0x0#32, 28⟩,
  ⟨0x528, 1, 0x0, .ctr, 0x0#32, 28⟩,
  ⟨0x52C, 1, 0x0, .ro, 0x0#32, 28⟩,
  ⟨0x530, 1, 0x0, .ctr, 0x0#32, 28⟩,
  ⟨0x540, 1, 0x0, .ctr, 0x0#32, 28⟩,
  ⟨0x544, 1, 0x0, .ctr, 0x0#32, 28⟩,
  ⟨0x548, 1, 0x0, .ro, 0x0#32, 28⟩,
  ⟨0x550, 1, 0x0, .ro, 0x0#32, 0⟩,
  ⟨0x1060, 1, 0x0, .rwc, 0x22222#32, 28⟩,
  ⟨0x10100, 24, 0x1000, .ctr, 0x0#32, 28⟩,
  ⟨0x10104, 24, 0x1000, .ctr, 0x0#32, 28⟩,
  ⟨0x10108, 24, 0x1000, .ctr, 0x0#32, 28⟩,
  ⟨0x1010C, 24, 0x1000, .wo, 0x0#32, 0⟩]

/-- Register rows of 09_pond_spillway_flash.md (part 1). -/
def regMap7 : List RegRow := [
  ⟨0x580, 1, 0x0, .ro, 0x0#32, 28⟩,
  ⟨0x584, 1, 0x0, .ro, 0xFFFFFFFF#32, 28⟩,
  ⟨0x590, 1, 0x0, .ro, 0x0#32, 28⟩,
  ⟨0x594, 1, 0x0, .ro, 0x0#32, 28⟩,
  ⟨0x598, 1, 0x0, .rw, 0x0#32, 28⟩,
  ⟨0x59C, 1, 0x0, .rw, 0x0#32, 28⟩,
  ⟨0x5A0, 1, 0x0, .ro, 0x0#32, 28⟩,
  ⟨0x5A4, 1, 0x0, .ro, 0x0#32, 28⟩,
  ⟨0x5A8, 1, 0x0, .ro, 0x0#32, 28⟩,
  ⟨0x5AC, 1, 0x0, .ro, 0x0#32, 28⟩,
  ⟨0x5B0, 1, 0x0, .ctr, 0x0#32, 28⟩,
  ⟨0x5B4, 1, 0x0, .ctr, 0x0#32, 28⟩,
  ⟨0x5B8, 1, 0x0, .ctr, 0x0#32, 28⟩,
  ⟨0x5BC, 1, 0x0, .ctr, 0x0#32, 28⟩,
  ⟨0x5C0, 1, 0x0, .ctr, 0x0#32, 28⟩,
  ⟨0x1070, 1, 0x0, .rwc, 0x2#32, 28⟩]

/-- Register rows of 10_restore.md (part 1). -/
def regMap8 : List RegRow := [
  ⟨0x600, 1, 0x0, .ro, 0x0#32, 28⟩,
  ⟨0x604, 1, 0x0, .ro, 0xFFFFFFFF#32, 28⟩,
  ⟨0x608, 1, 0x0, .ro, 0x0#32, 28⟩,
  ⟨0x60C, 1, 0x0, .ro, 0x0#32, 28⟩,
  ⟨0x610, 1, 0x0, .ro, 0x0#32, 28⟩,
  ⟨0x614, 1, 0x0, .ro, 0x0#32, 28⟩,
  ⟨0x618, 1, 0x0, .ro, 0x0#32, 28⟩,
  ⟨0x61C, 1, 0x0, .ro, 0x0#32, 28⟩,
  ⟨0x620, 1, 0x0, .ctr, 0x0#32, 28⟩,
  ⟨0x624, 1, 0x0, .ctr, 0x0#32, 28⟩]

/-- Register rows of 11_jobs_and_fencing.md (part 1). -/
def regMap9 : List RegRow := [
  ⟨0x640, 1, 0x0, .ro, 0x0#32, 28⟩,
  ⟨0x644, 1, 0x0, .ro, 0x0#32, 28⟩,
  ⟨0x648, 1, 0x0, .ro, 0x0#32, 28⟩,
  ⟨0x64C, 1, 0x0, .ro, 0x0#32, 30⟩,
  ⟨0x650, 1, 0x0, .ro, 0x0#32, 30⟩,
  ⟨0x654, 1, 0x0, .ro, 0x0#32, 30⟩,
  ⟨0x658, 1, 0x0, .ro, 0x0#32, 28⟩,
  ⟨0x65C, 1, 0x0, .ro, 0x0#32, 28⟩,
  ⟨0x660, 1, 0x0, .ro, 0x0#32, 28⟩,
  ⟨0x664, 1, 0x0, .ro, 0x0#32, 28⟩,
  ⟨0x668, 1, 0x0, .ro, 0x0#32, 28⟩,
  ⟨0x670, 1, 0x0, .ctr, 0x0#32, 28⟩,
  ⟨0x674, 1, 0x0, .ctr, 0x0#32, 28⟩,
  ⟨0x678, 1, 0x0, .ctr, 0x0#32, 28⟩,
  ⟨0x67C, 1, 0x0, .ctr, 0x0#32, 28⟩,
  ⟨0x680, 1, 0x0, .ctr, 0x0#32, 28⟩,
  ⟨0x684, 1, 0x0, .ctr, 0x0#32, 28⟩,
  ⟨0x688, 1, 0x0, .ctr, 0x0#32, 28⟩,
  ⟨0x68C, 1, 0x0, .ctr, 0x0#32, 28⟩,
  ⟨0x690, 1, 0x0, .ro, 0x0#32, 28⟩,
  ⟨0x694, 1, 0x0, .ro, 0x0#32, 28⟩,
  ⟨0x698, 1, 0x0, .ro, 0x0#32, 28⟩,
  ⟨0x1080, 1, 0x0, .rwc, 0x0#32, 28⟩,
  ⟨0x1084, 1, 0x0, .rwc, 0x0#32, 28⟩]

/-- Register rows of 11_jobs_and_fencing.md (part 2). -/
def regMap10 : List RegRow := [
  ⟨0x1088, 1, 0x0, .rwc, 0x0#32, 28⟩,
  ⟨0x50000, 512, 0x4, .ro, 0x0#32, 28⟩]

/-- Register rows of 12_host_rings.md (part 1). -/
def regMap11 : List RegRow := [
  ⟨0x40000, 16, 0x100, .rw, 0x0#32, 24⟩,
  ⟨0x40004, 16, 0x100, .ro, 0x0#32, 24⟩,
  ⟨0x40008, 16, 0x100, .rw, 0x0#32, 28⟩,
  ⟨0x4000C, 16, 0x100, .rw, 0x0#32, 28⟩,
  ⟨0x40010, 16, 0x100, .rw, 0x0#32, 28⟩,
  ⟨0x40014, 16, 0x100, .rw, 0x0#32, 28⟩,
  ⟨0x40018, 16, 0x100, .rw, 0x0#32, 28⟩,
  ⟨0x4001C, 16, 0x100, .rw, 0x0#32, 28⟩,
  ⟨0x40020, 16, 0x100, .rw, 0x606#32, 28⟩,
  ⟨0x40024, 16, 0x100, .rw, 0x3E8#32, 28⟩,
  ⟨0x40028, 16, 0x100, .rw, 0x186A0#32, 28⟩,
  ⟨0x4002C, 16, 0x100, .rw, 0x0#32, 28⟩,
  ⟨0x40030, 16, 0x100, .ro, 0x0#32, 24⟩,
  ⟨0x40034, 16, 0x100, .ro, 0x0#32, 24⟩,
  ⟨0x40038, 16, 0x100, .ro, 0x0#32, 24⟩,
  ⟨0x4003C, 16, 0x100, .ro, 0x0#32, 24⟩,
  ⟨0x40040, 16, 0x100, .ctr, 0x0#32, 28⟩,
  ⟨0x40044, 16, 0x100, .ctr, 0x0#32, 28⟩,
  ⟨0x40048, 16, 0x100, .ctr, 0x0#32, 28⟩]

/-- Register rows of 13_registers.md (part 1). -/
def regMap12 : List RegRow := [
  ⟨0x0, 1, 0x0, .ro, 0x1024F32#32, 63⟩,
  ⟨0x4, 1, 0x0, .ro, 0x0#32, 0⟩,
  ⟨0x8, 1, 0x0, .ro, 0x0#32, 0⟩,
  ⟨0xC, 1, 0x0, .ro, 0x0#32, 0⟩,
  ⟨0x10, 1, 0x0, .ro, 0x0#32, 0⟩,
  ⟨0x14, 1, 0x0, .wo, 0x0#32, 0⟩,
  ⟨0x18, 1, 0x0, .w1c, 0x0#32, 28⟩,
  ⟨0x20, 1, 0x0, .ctr, 0x0#32, 28⟩,
  ⟨0x24, 1, 0x0, .ctr, 0x0#32, 28⟩,
  ⟨0x28, 1, 0x0, .ro, 0x0#32, 28⟩,
  ⟨0x30, 1, 0x0, .rs, 0x0#32, 30⟩,
  ⟨0x34, 1, 0x0, .rs, 0x0#32, 30⟩,
  ⟨0x38, 1, 0x0, .rs, 0x0#32, 30⟩,
  ⟨0x3C, 1, 0x0, .rs, 0x0#32, 30⟩,
  ⟨0x40, 1, 0x0, .ro, 0x0#32, 0⟩,
  ⟨0x44, 1, 0x0, .ro, 0x0#32, 0⟩,
  ⟨0x1000, 1, 0x0, .wo, 0x0#32, 0⟩,
  ⟨0x1004, 1, 0x0, .ro, 0x0#32, 28⟩,
  ⟨0x1008, 1, 0x0, .ro, 0x0#32, 28⟩,
  ⟨0x100C, 1, 0x0, .ro, 0x0#32, 28⟩,
  ⟨0x1010, 1, 0x0, .ro, 0x0#32, 28⟩,
  ⟨0x1014, 1, 0x0, .ro, 0x0#32, 28⟩,
  ⟨0x1018, 1, 0x0, .ctr, 0x0#32, 28⟩,
  ⟨0x101C, 1, 0x0, .ctr, 0x0#32, 28⟩]

/-- Register rows of 13_registers.md (part 2). -/
def regMap13 : List RegRow := [
  ⟨0x1020, 1, 0x0, .ctr, 0x0#32, 28⟩,
  ⟨0x1840, 1, 0x0, .ro, 0x0#32, 28⟩,
  ⟨0x1844, 1, 0x0, .ro, 0x0#32, 28⟩,
  ⟨0x1850, 1, 0x0, .ro, 0x0#32, 28⟩,
  ⟨0x1854, 1, 0x0, .ro, 0x0#32, 28⟩,
  ⟨0x1860, 1, 0x0, .ro, 0x22222#32, 28⟩,
  ⟨0x1870, 1, 0x0, .ro, 0x2#32, 28⟩,
  ⟨0x1880, 1, 0x0, .ro, 0x0#32, 28⟩,
  ⟨0x1884, 1, 0x0, .ro, 0x0#32, 28⟩,
  ⟨0x1888, 1, 0x0, .ro, 0x0#32, 28⟩,
  ⟨0x2000, 1, 0x0, .ro, 0x0#32, 0⟩,
  ⟨0x2004, 1, 0x0, .ro, 0x0#32, 0⟩,
  ⟨0x2008, 1, 0x0, .ro, 0x0#32, 0⟩,
  ⟨0x200C, 1, 0x0, .ctr, 0x0#32, 28⟩,
  ⟨0x2080, 1, 0x0, .rw, 0x0#32, 28⟩,
  ⟨0x2084, 1, 0x0, .ro, 0x0#32, 0⟩,
  ⟨0x2088, 1, 0x0, .ro, 0x0#32, 0⟩,
  ⟨0x2090, 1, 0x0, .ro, 0x0#32, 28⟩,
  ⟨0x2094, 1, 0x0, .ro, 0x0#32, 28⟩,
  ⟨0x2098, 1, 0x0, .ctr, 0x0#32, 28⟩,
  ⟨0x10000, 24, 0x1000, .ro, 0x0#32, 63⟩,
  ⟨0x10004, 24, 0x1000, .ro, 0x0#32, 0⟩,
  ⟨0x10008, 24, 0x1000, .rw, 0x7D#32, 28⟩,
  ⟨0x10010, 24, 0x1000, .ro, 0x0#32, 28⟩]

/-- Register rows of 13_registers.md (part 3). -/
def regMap14 : List RegRow := [
  ⟨0x10014, 24, 0x1000, .ro, 0x0#32, 28⟩,
  ⟨0x10018, 24, 0x1000, .ro, 0x0#32, 28⟩,
  ⟨0x1001C, 24, 0x1000, .ro, 0x0#32, 28⟩,
  ⟨0x10020, 24, 0x1000, .ctr, 0x0#32, 28⟩,
  ⟨0x10024, 24, 0x1000, .ctr, 0x0#32, 28⟩,
  ⟨0x60000, 4, 0x100, .ro, 0x0#32, 0⟩,
  ⟨0x60004, 4, 0x100, .ro, 0x0#32, 0⟩,
  ⟨0x60008, 4, 0x100, .ctr, 0x0#32, 28⟩,
  ⟨0x6000C, 4, 0x100, .ro, 0x0#32, 28⟩,
  ⟨0x60010, 4, 0x100, .ctr, 0x0#32, 28⟩,
  ⟨0x60800, 1, 0x0, .ro, 0x0#32, 0⟩,
  ⟨0x60804, 1, 0x0, .ro, 0x0#32, 28⟩,
  ⟨0x60808, 1, 0x0, .ro, 0x0#32, 28⟩,
  ⟨0x6080C, 1, 0x0, .rs, 0x0#32, 30⟩,
  ⟨0x60810, 1, 0x0, .ro, 0x0#32, 0⟩,
  ⟨0x60814, 1, 0x0, .ro, 0x0#32, 30⟩,
  ⟨0x60C00, 1, 0x0, .ctr, 0x0#32, 28⟩,
  ⟨0x60C04, 1, 0x0, .ctr, 0x0#32, 28⟩,
  ⟨0x60C08, 1, 0x0, .ctr, 0x0#32, 28⟩,
  ⟨0x60C0C, 1, 0x0, .ctr, 0x0#32, 28⟩,
  ⟨0x60C10, 1, 0x0, .ro, 0x0#32, 28⟩,
  ⟨0x60C14, 1, 0x0, .ro, 0x0#32, 28⟩]

/-- Every register row of the spec (R398 to R404 and the maps they index). -/
def regMap : List RegRow := regMap1 ++ regMap2 ++ regMap3 ++ regMap4 ++ regMap5 ++ regMap6 ++ regMap7 ++ regMap8 ++ regMap9 ++ regMap10 ++ regMap11 ++ regMap12 ++ regMap13 ++ regMap14

/-- Which copy of the row an offset is, if any. -/
def RegRow.copy (r : RegRow) (off : Nat) : Option Nat :=
  if r.stride = 0 then (if off = r.off then some 0 else none)
  else if r.off ≤ off ∧ (off - r.off) % r.stride = 0 ∧ (off - r.off) / r.stride < r.cnt then some ((off - r.off) / r.stride)
  else none

/-- The row of an offset and the number of the copy; none where the window holds no register (R383). -/
def rowAt (off : Nat) : Option (RegRow × Nat) :=
  regMap.findSome? fun r => (r.copy off).map fun n => (r, n)

/-- The reset value of an offset; OSE_CH_ID of channel n is n (R402). -/
def resetAt (off : Nat) : Word :=
  match rowAt off with
  | some (r, n) => if r.off = Reg.chId then BitVec.ofNat 32 n else r.reset
  | none => 0

/-- A sparse list with the value of one key replaced: keys rising, an entry that equals its default left out. -/
def sparsePut (k : Nat) (v : Word) (isDefault : Bool) (l : List (Nat × Word)) : List (Nat × Word) :=
  let rest := l.filter fun e => e.1 ≠ k
  if isDefault then rest else rest.filter (fun e => e.1 < k) ++ (k, v) :: rest.filter (fun e => k < e.1)

/-- The stored value of a register. -/
def regGet (s : State) (off : Nat) : Word := getKey off (resetAt off) s.regs

/-- The stored value as a number. -/
def regNat (s : State) (off : Nat) : Nat := (regGet s off).toNat

/-- Store a register. -/
def regSet (off : Nat) (v : Word) (s : State) : State := { s with regs := sparsePut off v (decide (v = resetAt off)) s.regs }

/-- Store a number, cut to 32 bits. -/
def regPut (off n : Nat) (s : State) : State := regSet off (BitVec.ofNat 32 n) s

/-- Add to a counter, saturating at 0xFFFF_FFFF (R385). -/
def count (off n : Nat) (s : State) : State := regPut off (sat32 (regNat s off + n)) s

/-- The stored 64-bit value of a pair (R10). -/
def wideGet (s : State) (lo : Nat) : Nat := regNat s lo + 2 ^ 32 * regNat s (lo + 4)

/-- Store a 64-bit value in a pair. -/
def widePut (lo n : Nat) (s : State) : State := regPut (lo + 4) (n / 2 ^ 32) (regPut lo n s)

/-- Add to a 64-bit pair. -/
def wideAdd (lo n : Nat) (s : State) : State := widePut lo (wideGet s lo + n) s

/-- Set bits of a register. -/
def regOr (off mask : Nat) (s : State) : State := regPut off (regNat s off ||| mask) s

/-- Keep the registers whose Survives entry has the code (R421). -/
def keepSurviving (code : Nat) (l : List (Nat × Word)) : List (Nat × Word) :=
  l.filter fun e => match rowAt e.1 with
    | some (r, _) => r.surv.testBit code
    | none => false

/-- The bits of a register's fields; the others are reserved: ignored when written, zero when read (R9). -/
def fieldMask (base : Nat) : Nat :=
  if base = Reg.events then 0x7FF else if base = Reg.bgEnable then 0x7F else if base = Reg.pwrCtrl then 3
  else if base = Reg.chBgcap then 0x7FF else if base = Reg.ringCtrl then 3 else if base = Reg.ringSize then 0x1F1F
  else if base = Reg.ringIrq then 0xFFFF07FF else if base = Reg.fwPolicy then 1 else if base = Reg.pgCtrl then 0x1F1F
  else if base = Reg.snapPin then 0xFF else if base = Reg.basinGeom then 0xFFFF else if base = Reg.agreeTree then 0xFFFF
  else if base = Reg.pgStrength then 0x77777 else if base = Reg.snapCfg then 0x3F else if base = Reg.jobTag then 0xFFFF
  else if base = Reg.jobExtent then 0x1FFFF else if base = Reg.jobCoord then 0x3FFF
  else 0xFFFFFFFF

/-- Whether a value lies in the ranges its register states (R384). -/
def inRange (base v : Nat) : Bool :=
  if base = Reg.pgScrubCycle then 1 ≤ v && v ≤ 86400 else if base = Reg.pgScrubBurst then 1 ≤ v && v ≤ 1024
  else if base = Reg.chBgcap then 1 ≤ v && v ≤ 1333
  else if base = Reg.ringSize then 6 ≤ bits 4 0 v && bits 4 0 v ≤ 16 && 6 ≤ bits 12 8 v && bits 12 8 v ≤ 16
  else if base = Reg.ringPoll then 100 ≤ v && v ≤ 1000000 else if base = Reg.ringPollIdle then 1000 ≤ v && v ≤ 10000000
  else true

/-- The _LO halves of the read-only 64-bit pairs (R10). -/
def readPairs : List Nat := [Reg.serialLo, Reg.hostTimeLo, Reg.updElemsLo, Reg.bcCommitAtLo, Reg.rfFrozenAtLo, Reg.rfBytesLo,
  Reg.snapSrcLo, Reg.snapOutLo, Reg.rsWrittenLo, Reg.rsPushedLo, Reg.jobLiveAtLo, Reg.jobRetiredAtLo, Reg.modeAtLo,
  Reg.dropLastLo, Reg.cfgAppliedAtLo, Reg.jobSeedLoF, Reg.htLo, Reg.stepNextLo, Reg.energyLo]

/-- Whether an offset is the _LO half of a read-only pair, channel blocks included. -/
def isReadPair (off : Nat) : Bool :=
  readPairs.contains off || (match rowAt off with
    | some (r, _) => r.off = Reg.chRdLo || r.off = Reg.chWrLo
    | none => false)

/-- The _LO halves of the writable pairs: the ring addresses (R382). The job seed's halves are staged under R174 and R390. -/
def isWritePair (base : Nat) : Bool := base = Reg.ringSqBaseLo || base = Reg.ringCqBaseLo || base = Reg.ringDbLo

/-- The shadow registers, in the order of their staged bits (R390). -/
def shadowRegs : List Nat := [Reg.jobSeedLo, Reg.jobSeedHi, Reg.basinGeom, Reg.agreeTree, Reg.pgStrength, Reg.snapCfg, Reg.jobTag,
  Reg.jobExtent, Reg.jobCoord]

end Sys2Proof.Machine
end

