-- ==== Sys2Proof/Machine/Ops.lean ====
section
/-! DEFINITION. The named operations every meaning is built from: byte memories, regions, the job's identity, events on the
culvert, packets on the fabric port. -/

namespace Sys2Proof.Machine

open Sys2Proof

/-! ### Byte memories -/

/-- One byte; an unlisted address reads as zero (assumption 1). -/
def readByte (m : Mem) (a : Nat) : Byte := getKey a 0#8 m

/-- `n` bytes from `a`, taken from a list whose addresses rise from `a` at the earliest. -/
def readFrom : Nat → Nat → Mem → Bytes
  | 0, _, _ => []
  | n + 1, a, [] => 0#8 :: readFrom n (a + 1) []
  | n + 1, a, c :: cs => if c.1 = a then c.2 :: readFrom n (a + 1) cs else 0#8 :: readFrom n (a + 1) (c :: cs)

/-- `n` bytes from address `a`. -/
def readBytes (m : Mem) (a n : Nat) : Bytes := readFrom n a (m.dropWhile fun c => c.1 < a)

/-- The cells that bytes from `a` onward list: those that are not zero. -/
def listed : Nat → Bytes → Mem
  | _, [] => []
  | a, b :: bs => if b = 0#8 then listed (a + 1) bs else (a, b) :: listed (a + 1) bs

/-- The cells below an address. -/
def cellsBelow (a : Nat) (m : Mem) : Mem := m.filter fun c => c.1 < a

/-- The cells from an address up. -/
def cellsFrom (a : Nat) (m : Mem) : Mem := m.filter fun c => a ≤ c.1

/-- Bytes written from address `a`. -/
def writeBytes (a : Nat) (bs : Bytes) (m : Mem) : Mem := cellsBelow a m ++ listed a bs ++ cellsFrom (a + bs.length) m

/-- `n` bytes from address `a` set to zero. -/
def eraseBytes (a n : Nat) (m : Mem) : Mem := cellsBelow a m ++ cellsFrom (a + n) m

/-- Bytes XORed into memory from address `a`. -/
def xorInto (a : Nat) (bs : Bytes) (m : Mem) : Mem := writeBytes a (xorBytes bs (readBytes m a bs.length)) m

/-- The canonical form from an address up: addresses rising, no byte zero. -/
def wfFrom : Nat → Mem → Bool
  | _, [] => true
  | lo, c :: cs => decide (lo ≤ c.1) && decide (c.2 ≠ 0#8) && wfFrom (c.1 + 1) cs

/-- The canonical form of a byte memory: addresses strictly rising, no listed byte equal to what an unlisted address reads as. -/
def Memory.wf (m : Mem) : Bool := wfFrom 0 m

/-! ### The five memories of the state -/

/-- Host memory, `n` bytes at an address (R57). -/
def hostRead (s : State) (a n : Nat) : Bytes := readBytes s.hostMem a n

/-- A write of host memory (R57). -/
def hostWrite (a : Nat) (bs : Bytes) (s : State) : State := { s with hostMem := writeBytes a bs s.hostMem }

/-- Bytes of HBM as they stand, without the page guard. -/
def hbmRaw (s : State) (a n : Nat) : Bytes := readBytes s.hbm a n

/-- A write of HBM without check data: windows outside the engine regions (R296). -/
def hbmPut (a : Nat) (bs : Bytes) (s : State) : State := { s with hbm := writeBytes a bs s.hbm }

/-- The flash partition, at a partition offset (R61). -/
def flashRead (s : State) (a n : Nat) : Bytes := readBytes s.flash a n

/-- Whether a range of the partition touches no uncorrectable unit (R63). -/
def unitsGood (s : State) (a n : Nat) : Bool := !s.badUnits.any fun u => decide (u * 4096 < a + n ∧ a < (u + 1) * 4096)

/-- A write of the flash partition. Units are written whole (R61): a unit written anew reads again (assumption 11). -/
def flashWrite (a : Nat) (bs : Bytes) (s : State) : State :=
  { s with flash := writeBytes a bs s.flash,
           badUnits := s.badUnits.filter fun u => !(decide (u * 4096 < a + bs.length) && decide (a < (u + 1) * 4096)) }

/-! ### Regions (R16, R372) -/

/-- Base of region 0 plot, 1 bank shares, 2 pond, 3 cistern, 4 undo window. -/
def regionBase (s : State) (r : Nat) : Nat := ((s.regions.toList.drop r).headD (0, 0)).1

/-- Size of a region; 0 when it is not declared. -/
def regionSize (s : State) (r : Nat) : Nat := ((s.regions.toList.drop r).headD (0, 0)).2

/-- Chunks of a region. -/
def regionChunks (s : State) (r : Nat) : Nat := regionSize s r / 65536

/-- The region that holds a physical address, if any. -/
def regionAt (s : State) (a : Nat) : Option Nat :=
  (List.range 5).find? fun r => regionBase s r ≤ a && a < regionBase s r + regionSize s r

/-- Set one region's declaration. -/
def setRegion (r base size : Nat) (s : State) : State :=
  if h : r < 5 then { s with regions := s.regions.set r (base, size) h } else s

/-- The plot's base. -/
def plotBase (s : State) : Nat := regionBase s 0

/-- What a write of chunks of the plot takes back: the live offer, and those chunks from what a spare offers (R301). -/
def withdrawOffer (cs : List Nat) (s : State) : State :=
  { s with restore.liveOffer := false, restore.spareOffer := s.restore.spareOffer.filter fun c => !cs.contains c }
/-- The bank-share region's base. -/
def bankBase (s : State) : Nat := regionBase s 1
/-- The pond's base. -/
def pondBase (s : State) : Nat := regionBase s 2
/-- The cistern's base. -/
def cisternBase (s : State) : Nat := regionBase s 3
/-- The undo window's base. -/
def undoBase (s : State) : Nat := regionBase s 4
/-- Chunks of the plot, P of R24. -/
def plotChunks (s : State) : Nat := regionChunks s 0

/-! ### Identity and geometry in force (R20, R324, R389) -/

/-- The job tag in force. -/
def tagOf (s : State) : Nat := bits 15 0 (regNat s Reg.jobTagF)
/-- Job ID of the tag in force. -/
def jobIdOf (s : State) : Nat := tagOf s / 16
/-- Generation of the tag in force. -/
def genOf (s : State) : Nat := tagOf s % 16
/-- Extent along the basin axis. -/
def extA (s : State) : Nat := bits 5 0 (regNat s Reg.jobExtentF)
/-- Extent along the bank axis. -/
def extB (s : State) : Nat := bits 11 6 (regNat s Reg.jobExtentF)
/-- Extent along the third axis. -/
def extC (s : State) : Nat := bits 16 12 (regNat s Reg.jobExtentF)
/-- Chips of the job. -/
def jobChips (s : State) : Nat := extA s * extB s * extC s
/-- This chip's coordinate. -/
def here (s : State) : Coord := coordOf (regNat s Reg.jobCoordF)
/-- Members of a basin, k. -/
def geoK (s : State) : Nat := bits 7 0 (regNat s Reg.basinGeomF)
/-- Global parities, G. -/
def geoG (s : State) : Nat := bits 11 8 (regNat s Reg.basinGeomF)
/-- Geometry mode: 0 basin, 1 mirror, 2 replicated. -/
def geoMode (s : State) : Nat := bits 15 12 (regNat s Reg.basinGeomF)
/-- Whether a geometry is in force (R22). -/
def geoSet (s : State) : Bool := bits 15 0 (regNat s Reg.basinGeomF) ≠ 0
/-- Whether the engine keeps a basin code: basin mode with a geometry in force (R22, R25). -/
def basinMode (s : State) : Bool := geoSet s && geoMode s = 0
/-- Whether the mirror mode is in force. -/
def mirrorMode (s : State) : Bool := geoSet s && geoMode s = 1
/-- Whether the engine keeps parity: basin or mirror mode (R25). -/
def codedMode (s : State) : Bool := basinMode s || mirrorMode s
/-- The job seed in force (R174). -/
def seedOf (s : State) : Nat := wideGet s Reg.jobSeedLoF
/-- Job index a + Ea × (c + Ec × b) (R203). -/
def jobIndex (s : State) (c : Coord) : Nat := c.a + extA s * (c.c + extC s * c.b)
/-- The coordinate of a job index. -/
def coordOfIndex (s : State) (n : Nat) : Coord :=
  ⟨n % max (extA s) 1, n / max (extA s) 1 / max (extC s) 1, n / max (extA s) 1 % max (extC s) 1⟩
/-- The mirror partner (R26). -/
def partnerOf (s : State) (c : Coord) : Coord := { c with b := (c.b + 1) % max (extB s) 1 }
/-- The chip whose mirror partner this chip is (R330). -/
def partneredBy (s : State) : Coord := { here s with b := ((here s).b + extB s - 1) % max (extB s) 1 }
/-- Whether the tag is live. -/
def isLive (s : State) : Bool := s.job.live
/-- The step in flight (R36, R101): the committed step + 1 while no step has begun after it. -/
def stepNum (s : State) : Nat := s.step.num
/-- The last committed step, all ones when none (R208). -/
def committedWord (s : State) : Nat := s.step.committed.getD 0xFFFFFFFF
/-- The step polarity p as a bit (R181). -/
def polarity (s : State) : Bool := s.step.polarity

/-! ### Power and reach of the engine -/

/-- Whether the engine is in E0 or E1, out of a start, and not in dry mode: intake and flume run (R405, R411, R436). -/
def flumeRuns (s : State) : Bool := s.power.state < 2 && s.ready && !s.dry

/-- Whether controllers act: as above, and no controller restart runs (R418). -/
def controllersRun (s : State) : Bool := flumeRuns s && s.restarting.isEmpty

/-! ### Events and counters -/

/-- Set a bit of OSE_EVENTS (R400). -/
def flagEvent (n : Nat) (s : State) : State := regOr Reg.events (2 ^ n) s

/-- Queue an event for the culvert; one that finds 64 queued is lost and counted (R451). -/
def event (code status cause : Nat) (detail : Bytes) (s : State) : State :=
  if s.culvert.queue.length < 64 then
    { s with culvert.queue := s.culvert.queue ++ [⟨code, status, cause, s.ht, detail, tagOf s⟩] }
  else { s with culvert.lost := s.culvert.lost + 1 }

/-- An IGNORED event (R451, code 0x0F): message type, reason, format byte, status, causing sequence. -/
def ignored (type reason format status cause : Nat) (s : State) : State :=
  event 0x0F status cause (le 1 type ++ le 1 reason ++ le 1 format) s

/-- A fresh index for a free value (assumption 6). -/
def takeFree (s : State) : Nat × State := (s.freeCtr, { s with freeCtr := s.freeCtr + 1 })

/-! ### Packets -/

/-- The controller whose work a packet is (R423): 0 main, 1 scrub controller, 2 coding sequencer, 3 mover. -/
def issuer (cls window : Nat) : Nat :=
  if window = 46 then 0 else if window = 50 ∨ window = 51 then 1
  else if window = 47 ∨ window = 48 ∨ window = 49 ∨ window = 53 then 3
  else if cls = 1 ∧ window = 52 then 3 else 2

/-- Whether a packet is start or refill control traffic, which a chip that is not live or that holds may still send (R333, R347). -/
def controlTraffic (window : Nat) : Bool := window = 46 || (52 ≤ window && window ≤ 56)

/-- Whether a destination lies in the job's extents: no packet leaves for any other (R333). -/
def destInJob (s : State) : Dest → Bool
  | .chip c => decide (c.a < extA s) && decide (c.b < extB s) && decide (c.c < extC s)
  | .tree _ => true

/-- Issue a packet (R49): its header carries the tag, the epoch's low 8 bits and this chip's coordinate. A chip that holds or is
not live sends only start and refill traffic (R333, R347), a frozen chip only refill traffic (R214); a packet of a restarting
controller waits for the restart's end (R418). -/
def send (dest : Dest) (cls window offset stepLow : Nat) (payload : Payload) (s : State) : State :=
  if (s.job.held || !s.job.live) && !controlTraffic window then s
  else if !destInJob s dest then s
  else if s.refill.frozen && !(52 ≤ window && window ≤ 56) then s
  else
    let p : Packet := ⟨dest, ⟨jobIdOf s, genOf s, s.job.epoch % 256, here s, offset, stepLow⟩, cls, window, payload⟩
    if s.restarting.any fun c => c.val = issuer cls window then { s with delayed := s.delayed ++ [p] }
    else { s with sent := s.sent ++ [p] }

/-- A STORE to one chip. -/
def sendStore (dst : Coord) (window offset : Nat) (payload : Payload) (s : State) : State := send (.chip dst) 1 window offset 0 payload s

/-- A PARTIAL packet to one chip (R48). -/
def sendPartial (dst : Coord) (window offset : Nat) (payload : Payload) (s : State) : State := send (.chip dst) 4 window offset 0 payload s

/-- Bytes pushed as STOREs of at most 4,096 bytes each, padded to 16 (R49). -/
def pushBytes (dst : Coord) (window : Nat) : Nat → Nat → Bytes → State → State
  | 0, _, _, s => s
  | fuel + 1, off, bs, s =>
    if bs.isEmpty then s
    else pushBytes dst window fuel (off + 4096) (bs.drop 4096) (sendStore dst window off (.data (padTo 16 (bs.take 4096))) s)

/-- A 64-bit header capture: bytes 7:0 of the engine packet header (R49, R331). -/
def headerQuad (h : PktHead) (cls len : Nat) : Nat :=
  (h.jobId % 4096 * 16 + h.gen % 16) + h.epoch % 256 * 2 ^ 16 + cls % 256 * 2 ^ 24 + coordWord h.sender * 2 ^ 32 + len % 65536 * 2 ^ 48

end Sys2Proof.Machine
end

