-- ==== Sys2Proof/Machine/Operands.lean ====
section
/-! DEFINITION. Operand forms: status and opcode codes, the fields of descriptors, and the bytes of every packet payload, packet
header and culvert frame, from the layout tables of spec/. -/

namespace Sys2Proof.Machine

open Sys2Proof

/-! ### Status codes (R380) -/

namespace Code
abbrev ok : Nat := 0x00
abbrev okPartial : Nat := 0x01
abbrev refusedTurn : Nat := 0x10
abbrev refusedFloor : Nat := 0x11
abbrev refusedPlan : Nat := 0x12
abbrev turnOverrun : Nat := 0x13
abbrev pageCorrected : Nat := 0x20
abbrev pageRepaired : Nat := 0x21
abbrev pageUnrecoverable : Nat := 0x22
abbrev basinDegraded : Nat := 0x30
abbrev basinExceeded : Nat := 0x31
abbrev commitIncomplete : Nat := 0x32
abbrev collMismatch : Nat := 0x40
abbrev dualPathMismatch : Nat := 0x41
abbrev residueFault : Nat := 0x42
abbrev deadlineExcluded : Nat := 0x43
abbrev policyFailed : Nat := 0x44
abbrev staleGeneration : Nat := 0x50
abbrev foreignJob : Nat := 0x51
abbrev modeEpochMismatch : Nat := 0x52
abbrev mixedStep : Nat := 0x60
abbrev manifestIncomplete : Nat := 0x61
abbrev lowerTierLate : Nat := 0x62
abbrev coordUnmapped : Nat := 0x63
abbrev imageBinding : Nat := 0x70
abbrev configDisagree : Nat := 0x71
abbrev ringHalted : Nat := 0x72
abbrev dryMode : Nat := 0x7F
abbrev internal : Nat := 0xFE
end Code

/-! ### Opcodes (R370) -/

namespace Op
abbrev regionSet : Nat := 0x01
abbrev stateFill : Nat := 0x02
abbrev planLoad : Nat := 0x03
abbrev planArm : Nat := 0x04
abbrev planRetire : Nat := 0x05
abbrev snapPond : Nat := 0x10
abbrev snapDrain : Nat := 0x11
abbrev snapExport : Nat := 0x12
abbrev snapManifest : Nat := 0x13
abbrev restoreScan : Nat := 0x20
abbrev restoreLoad : Nat := 0x21
abbrev restoreReslice : Nat := 0x22
abbrev scrubRange : Nat := 0x30
abbrev repairRange : Nat := 0x31
abbrev healthRead : Nat := 0x40
abbrev counterRead : Nat := 0x41
abbrev streamWindow : Nat := 0x50
abbrev fwStage : Nat := 0x60
abbrev fence : Nat := 0x7F
end Op

/-- The known opcodes. -/
def opcodes : List Nat := [Op.regionSet, Op.stateFill, Op.planLoad, Op.planArm, Op.planRetire, Op.snapPond, Op.snapDrain,
  Op.snapExport, Op.snapManifest, Op.restoreScan, Op.restoreLoad, Op.restoreReslice, Op.scrubRange, Op.repairRange,
  Op.healthRead, Op.counterRead, Op.streamWindow, Op.fwStage, Op.fence]

namespace Kind
abbrev mirror : Nat := 1
abbrev scale : Nat := 2
abbrev reduce : Nat := 3
abbrev gap : Nat := 4
abbrev check : Nat := 5
abbrev update : Nat := 6
abbrev delta : Nat := 7
abbrev commit : Nat := 8
abbrev pond : Nat := 9
end Kind

/-- The ordering opcodes (R359). -/
def orderingOps : List Nat := [Op.regionSet, Op.planLoad, Op.planArm, Op.planRetire, Op.restoreLoad, Op.restoreReslice, Op.fwStage]

/-- The opcodes that run whether or not a tag is committed (R323). -/
def taglessOps : List Nat := [Op.regionSet, Op.stateFill, Op.restoreScan, Op.snapManifest, Op.snapExport, Op.scrubRange,
  Op.healthRead, Op.counterRead, Op.fwStage, Op.fence]

/-- The opcodes that write only host memory (R368). -/
def hostOnlyOps : List Nat := [Op.healthRead, Op.counterRead, Op.snapExport, Op.snapManifest, Op.restoreScan]

/-! ### Descriptors (R370) -/

/-- The little-endian field of `n` bytes at byte `off` of a descriptor. -/
def Desc.f (d : Desc) (off n : Nat) : Nat := field off n d.bytes
/-- Opcode. -/
def Desc.op (d : Desc) : Nat := d.f 0 1
/-- Extended flag. -/
def Desc.ext (d : Desc) : Bool := bit 0 (d.f 1 1)
/-- Fence flag. -/
def Desc.fence (d : Desc) : Bool := bit 1 (d.f 1 1)
/-- Interrupt flag. -/
def Desc.irq (d : Desc) : Bool := bit 2 (d.f 1 1)
/-- Tag. -/
def Desc.tag (d : Desc) : Nat := d.f 4 4
/-- Completion slots the descriptor needs (R357, R370). -/
def Desc.slots (d : Desc) : Nat := if d.op = Op.snapDrain then 2 else 1
/-- Submission indices the descriptor occupies (R356). -/
def Desc.span (d : Desc) : Nat := if d.ext then 2 else 1
/-- Whether the opcode is known and has the form it requires (R370, R371). -/
def Desc.wellFormed (d : Desc) : Bool := opcodes.contains d.op && (d.ext == decide (d.op = Op.regionSet))

/-- Bytes of a descriptor's body that no field of its layout covers, as (first, last) ranges (R9). -/
def reservedRanges (op : Nat) : List (Nat × Nat) :=
  if op = Op.regionSet then [(9, 15), (96, 127)]
  else if op = Op.stateFill then [(10, 15), (48, 63)]
  else if op = Op.planLoad then [(20, 63)]
  else if op = Op.planArm then [(9, 11), (20, 23), (32, 63)]
  else if op = Op.planRetire then [(12, 63)]
  else if op = Op.snapPond then [(8, 63)]
  else if op = Op.snapDrain then [(9, 63)]
  else if op = Op.snapExport then [(9, 15), (20, 23), (40, 63)]
  else if op = Op.snapManifest then [(9, 23), (40, 63)]
  else if op = Op.restoreScan then [(33, 63)]
  else if op = Op.restoreLoad then [(12, 63)]
  else if op = Op.restoreReslice then [(40, 63)]
  else if op = Op.scrubRange ∨ op = Op.repairRange then [(9, 15), (32, 63)]
  else if op = Op.healthRead then [(20, 23), (32, 63)]
  else if op = Op.counterRead then [(17, 23), (32, 63)]
  else if op = Op.streamWindow then [(9, 15), (56, 63)]
  else if op = Op.fwStage then [(21, 23), (28, 63)]
  else if op = Op.fence then [(9, 63)]
  else []

/-- The number of reserved fields of a descriptor that are not zero: the two of the common header, each run of reserved
bytes of the layout, and the reserved bits of the REGION_SET mask and of the COUNTER_READ flags (R9, assumption 10). -/
def Desc.reservedSet (d : Desc) : Nat :=
  b2n (decide (d.op = Op.regionSet ∧ bits 7 5 (d.f 8 1) ≠ 0)) + b2n (decide (d.op = Op.counterRead ∧ bits 7 1 (d.f 16 1) ≠ 0)) +
  b2n (decide (bits 7 3 (d.f 1 1) ≠ 0)) + b2n (decide (d.f 2 2 ≠ 0)) +
    ((reservedRanges d.op).filter fun r => (slice r.1 (r.2 + 1 - r.1) d.bytes).any fun b => b ≠ 0#8).length

/-! ### Payloads -/

/-- The prefix of a PARTIAL packet: 11 bytes (R114). -/
def prefixBytes (p : Prefix) : Bytes :=
  le 4 p.digest ++ le 2 p.coll ++ le 2 p.reach ++ le 2 p.count ++
    le 1 (b2n p.path + 2 * b2n p.down + 4 * b2n p.record + 8 * b2n p.fault + 16 * b2n p.abort + 32 * b2n p.retry + 64 * b2n p.scale)

/-- Lanes as packed 40-bit fields: five bytes each (R115). -/
def laneBytes (ls : List Lane) : Bytes := ls.flatMap fun l => le 5 l.val.toNat

/-- The sidecar: residue code of lane j at bits [3j + 2 : 3j] (R115). -/
def sidecarBytes (ls : List Lane) : Bytes :=
  le (ceilDiv (3 * ls.length) 8) (ls.foldr (fun l acc => l.code % 8 + 8 * acc) 0)

/-- An exponent lane: s16 (R115). -/
def s16 (e : Int) : Nat := (e % 65536).toNat

/-- Payload bytes before padding, of a bitmap of set indices that reaches up to the highest. The bitmap's length is that of the
group (R117); `n` members. -/
def bitmapOf (n : Nat) (set : List Nat) : Bytes := bitmapBytes (ceilDiv n 8) set

/-- The fields of a start record, bytes 43:2, then its checksum (R337). -/
def startRecBytes (kind : Nat) (r : StartRec) : Bytes :=
  let f := r.fields
  let body := le 1 kind ++ le 1 r.tree ++ le 2 f.jobChips ++ le 2 f.tag ++ le 2 (coordWord f.root) ++ le 4 f.epoch ++ le 8 f.instant ++
    le 8 f.deadline ++ le 4 f.routeBound ++ le 4 (f.treeA % 65536 + 65536 * (f.treeB % 65536)) ++ zeros 8
  let head := body ++ le 4 (if r.sumOk then crc32c body else crc32c body ^^^ 1)
  if kind = 3 then padTo 16 (head ++ bitmapOf f.jobChips r.bitmap) else head

/-- A chain record: 32 bytes (R224). -/
def chainRecBytes (r : ChainRec) : Bytes :=
  le 2 r.refillId ++ le 1 r.kind ++ le 1 r.equation ++ le 4 r.stripe ++ le 4 r.position ++ le 1 r.arrival ++ le 1 r.hop ++
    le 1 (b2n r.empty) ++ le 1 0 ++ (List.range 4).flatMap (fun i => le 2 ((r.pending.getD i 0).toNat)) ++ le 4 r.holderStep ++ zeros 4

/-- A repair record: 32 bytes (R258). -/
def repairRecBytes (r : RepairRec) : Bytes :=
  le 2 r.tag ++ le 1 r.kind ++ le 1 r.target ++ le 4 r.stripe ++ le 2 r.mask.toNat ++ le 1 r.arrival ++ le 1 r.hop ++
    le 2 (coordWord r.requester) ++ le 1 r.equation ++ le 1 0 ++ (List.range 4).flatMap (fun i => le 2 ((r.pending.getD i 0).toNat)) ++
    le 8 r.offset

/-- A restore control record: 32 bytes (R315). -/
def restoreRecBytes (r : RestoreRec) : Bytes :=
  le 4 r.digest ++ le 1 r.kind ++ le 1 (b2n r.stale + 2 * b2n r.missing) ++ le 2 r.vector ++ le 4 r.step ++ le 2 r.complete ++
    le 2 r.covered ++ le 4 r.position ++ le 4 r.source ++ le 1 r.status ++ zeros 7

/-- A marker: 16 bytes (R186). -/
def markerBytes (m : Marker) : Bytes :=
  le 4 m.step ++ le 1 m.kind ++ le 1 m.role ++ le 2 m.mask.toNat ++ le 4 m.chunk ++ le 4 m.position

/-- An acknowledgement payload (R187). -/
def ackBodyBytes (k : AckBody) : Bytes :=
  padTo 16 (le 4 k.step ++ le 2 k.entries.length ++ le 2 0 ++ le 4 k.limit ++ le 4 0 ++ k.entries.flatMap (le 4))

/-- An agreement contribution: 32 bytes (R203). -/
def contributionBytes (c : Contribution) : Bytes :=
  le 4 c.step ++ le 4 c.planId ++ le 4 c.committed ++ le 2 c.complete ++ le 2 c.covered ++ le 4 c.firstInc ++ zeros 12

/-- An agreement verdict: 32 bytes (R203). -/
def verdictBytes (v : Verdict) : Bytes :=
  le 4 v.step ++ le 4 v.planId ++ le 8 v.commitAt ++ le 2 v.complete ++ le 1 v.verdict ++ le 1 0 ++ le 4 v.firstInc ++ zeros 8

/-- A result record after its prefix (R117); `n` members. -/
def resultRecBytes (n : Nat) (r : ResultRec) : Bytes :=
  le 2 r.compared ++ le 2 r.mismatched ++ le 2 r.unverified ++
    (List.range 8).flatMap (fun i => le 2 (r.retryList.getD i 0xFFFF)) ++ le 1 r.verdict ++ le 1 0 ++ bitmapOf n r.bitmap

/-- The engine payload of a packet (R49); `n` is the member count of the group a bitmap names. -/
def payloadBytes (n : Nat) : Payload → Bytes
  | .data bs => bs
  | .marker m => markerBytes m
  | .ack k => ackBodyBytes k
  | .lanes p ls => padTo 16 (prefixBytes p ++ laneBytes ls ++ sidecarBytes ls)
  | .exps p es => padTo 16 (prefixBytes p ++ es.flatMap fun e => le 2 (s16 e))
  | .upRecord p bm => padTo 16 (prefixBytes p ++ bitmapOf n bm)
  | .resultRecord p r => padTo 16 (prefixBytes p ++ resultRecBytes n r)
  | .abortRecord p => padTo 16 (prefixBytes p)
  | .contribution c => contributionBytes c
  | .verdict v => verdictBytes v
  | .start kind r => startRecBytes kind r
  | .chain r => chainRecBytes r
  | .repair r => repairRecBytes r
  | .restore r => restoreRecBytes r

/-- The 16-byte engine packet header (R49). -/
def headerBytes (h : PktHead) (cls window len : Nat) : Bytes :=
  le 8 (headerQuad h cls len) ++ le 8 (h.offset % 2 ^ 48 + (window % 64) * 2 ^ 48 + (h.stepLow % 256) * 2 ^ 54)

/-! ### Culvert frames (R447, R451, R452) -/

/-- The bytes of a sent frame: 60 bytes, then their CRC-32C. -/
def Frame.bytes (f : Frame) : Bytes :=
  let body := match f with
    | .event seq lost ev =>
      le 1 0x80 ++ le 1 2 ++ le 2 seq ++ le 2 ev.tag ++ le 2 0 ++ le 1 ev.code ++ le 1 ev.status ++ le 2 ev.cause ++ le 2 lost ++
        le 8 ev.at_ ++ slice 0 38 ev.detail
    | .heartbeat seq instant status starts step committed evSeq epoch version tag =>
      le 1 0x81 ++ le 1 2 ++ le 2 seq ++ le 2 tag ++ le 2 0 ++ le 4 seq ++ le 8 instant ++ le 1 status ++ le 1 starts ++ zeros 2 ++
        le 4 step ++ le 4 committed ++ le 2 evSeq ++ le 4 epoch ++ le 4 version
  let b := slice 0 60 body
  b ++ le 4 (crc32c b)

/-- The type byte of a manager message (R447). -/
def culType : CulMsg → Nat
  | .queryStatus => 0x01
  | .basinMap .. => 0x02
  | .freezeJob => 0x03
  | .releaseJob .. => 0x04
  | .beginRefill .. => 0x05
  | .policy .. => 0x06
  | .modeChange .. => 0x07
  | .start .. => 0x08
  | .startAbort => 0x09
  | .fwStage .. => 0x0A
  | .fwActivate .. => 0x0B
  | .fwConfirm .. => 0x0C
  | .clearDry .. => 0x0D

end Sys2Proof.Machine
end

