-- ==== Sys2Proof/Machine/Records.lean ====
section
/-! DEFINITION. Ring registers, completion and report records, MSI-X messages and halts (file 12). -/

namespace Sys2Proof.Machine

open Sys2Proof

/-- Ring q. -/
def ringOf (s : State) (q : Fin 16) : Ring := s.rings[q.val]'q.isLt

/-- Replace ring q. -/
def setRing (q : Fin 16) (r : Ring) (s : State) : State := { s with rings := s.rings.set q.val r q.isLt }

/-- A register of ring block q (R382). -/
def ringReg (q : Fin 16) (base : Nat) : Nat := base + q.val * 0x100

/-- Slots of the submission ring, N (R350). -/
def sqSlots (s : State) (q : Fin 16) : Nat := 2 ^ bits 4 0 (regNat s (ringReg q Reg.ringSize))

/-- Slots of the completion ring, M (R350). -/
def cqSlots (s : State) (q : Fin 16) : Nat := 2 ^ bits 12 8 (regNat s (ringReg q Reg.ringSize))

/-- Base of the submission ring. -/
def sqBase (s : State) (q : Fin 16) : Nat := wideGet s (ringReg q Reg.ringSqBaseLo)
/-- Base of the completion ring. -/
def cqBase (s : State) (q : Fin 16) : Nat := wideGet s (ringReg q Reg.ringCqBaseLo)
/-- Address of the doorbell block. -/
def doorbell (s : State) (q : Fin 16) : Nat := wideGet s (ringReg q Reg.ringDbLo)

/-- `a − b` of free-running u32 indices (R352). -/
def idxSub (a b : Nat) : Nat := (a + 2 ^ 32 - b % 2 ^ 32) % 2 ^ 32
/-- `a + n` of a free-running u32 index (R352). -/
def idxAdd (a n : Nat) : Nat := (a + n) % 2 ^ 32

/-- Enabled, not halted, not resetting (R365, R382). -/
def Ring.isOpen (r : Ring) : Bool := r.enabled && !r.halted && !r.resetting

/-- Completion room reserved for the descriptors taken and not yet completed (R357). -/
def Ring.reserved (r : Ring) : Nat :=
  sumOf (r.taken.map Desc.slots) + sumOf ((r.running.filter fun d => !r.muted.contains d.idx).map Desc.slots)

/-- Whether `n` more slots fit, over the records outstanding and the room reserved (R357, R365). -/
def hasRoom (s : State) (q : Fin 16) (n : Nat) : Bool :=
  let r := ringOf s q
  decide (idxSub r.cqTail r.cqHead + r.reserved + n ≤ cqSlots s q)

/-- The slots of one record written at consecutive completion indices, the second before the first: phase in bit 0, continuation in bit 1 of
byte 0 (R363, R364, R378). -/
def putSlots (q : Fin 16) : Nat → Bool → List Bytes → State → State
  | _, _, [], s => s
  | j, cont, b :: bs, s =>
    let m := cqSlots s q
    let phase := 1 - j / m % 2
    hostWrite (cqBase s q + j % m * 32) (le 1 (phase + 2 * b2n cont) ++ (slice 0 32 b).drop 1) (putSlots q (idxAdd j 1) true bs s)

/-- Write a record and the completion tail (R364). -/
def putRecord (q : Fin 16) (slots : List Bytes) (s : State) : State :=
  let r := ringOf s q
  let tail := idxAdd r.cqTail slots.length
  let s := putSlots q r.cqTail false slots s
  let s := setRing q { ringOf s q with cqTail := tail } s
  hostWrite (doorbell s q + 36) (le 4 tail) s

/-- A due MSI-X message: sent, or held to the end of the holdoff interval (R366). -/
def dueMsix (q : Fin 16) (s : State) : State :=
  let r := ringOf s q
  let irq := regNat s (ringReg q Reg.ringIrq)
  let quiet := match r.lastMsg with
    | none => true
    | some t => decide (t + bits 31 16 irq * 1000 ≤ s.ht)
  if quiet then { setRing q { r with lastMsg := some s.ht, msgDue := false } s with msix := s.msix ++ [(q, bits 10 0 irq, s.ht)] }
  else setRing q { r with msgDue := true } s

/-- The bytes of a ring event (R378, R379). -/
def ringEventBytes (status cause hostTime lost addr : Nat) : Bytes :=
  le 1 0 ++ le 1 6 ++ le 1 status ++ le 1 cause ++ zeros 4 ++ le 8 hostTime ++ zeros 4 ++ le 4 lost ++ le 8 addr

/-- Where reports were lost and room exists, the OK_PARTIAL event that carries their number (R365). -/
def flushLost (q : Fin 16) (s : State) : State :=
  let r := ringOf s q
  if 0 < r.lostNow ∧ r.isOpen ∧ hasRoom s q 1 then
    let s := putRecord q [ringEventBytes Code.okPartial 0 s.hostTime (sat32 r.lostNow) 0] s
    dueMsix q (setRing q { ringOf s q with lostNow := 0 } s)
  else s

/-- A report record to a ring: written where the ring is enabled and has room, else lost and counted (R365, R366). -/
def report (q : Fin 16) (slots : List Bytes) (isEvent : Bool) (s : State) : State :=
  let s := flushLost q s
  let r := ringOf s q
  if r.isOpen ∧ hasRoom s q slots.length then
    let s := putRecord q slots s
    if isEvent || r.reportIrq then dueMsix q s else s
  else count (ringReg q Reg.ringLost) 1 (setRing q { r with lostNow := r.lostNow + 1 } s)

/-- The report ring of a number from a header or a register. -/
def ringNo (n : Nat) : Fin 16 := ⟨n % 16, Nat.mod_lt n (by decide)⟩

/-- What a descriptor completes with (R379). -/
structure Result where
  status : Nat := 0
  detail : Nat := 0
  word : Nat := 0
  quad : Nat := 0
  second : Nat × Nat × Nat × Nat := (0, 0, 0, 0)
  deriving DecidableEq, Repr

/-- REFUSED_PLAN with a detail code (R371). -/
def refusedWith (detail : Nat) : Result := { status := Code.refusedPlan, detail := detail }

/-- The refusal of a descriptor of any opcode: a RESTORE_RESLICE that has chosen no step carries all ones (R371, R379). -/
def refusedFor (d : Desc) (detail : Nat) : Result := { refusedWith detail with word := if d.op = Op.restoreReslice then 0xFFFFFFFF else 0 }

/-- The slots of a descriptor completion (R379). -/
def completionSlots (d : Desc) (hostTime : Nat) (r : Result) : List Bytes :=
  let first := le 1 0 ++ le 1 1 ++ le 1 r.status ++ le 1 d.op ++ le 4 d.tag ++ le 8 hostTime ++ le 1 r.detail ++ zeros 3 ++
    le 4 r.word ++ le 8 r.quad
  if d.slots = 2 then [first, zeros 4 ++ le 4 r.second.1 ++ le 8 r.second.2.1 ++ le 8 r.second.2.2.1 ++ le 8 r.second.2.2.2]
  else [first]

/-- The bits of OSE_EVENTS for the conditions that a descriptor completion reports (R400). -/
def flagStatus (status : Nat) (s : State) : State :=
  if status = Code.pageUnrecoverable then flagEvent 0 s
  else if status = Code.commitIncomplete then flagEvent 3 s
  else if status = Code.configDisagree then flagEvent 5 s
  else if status = Code.internal then flagEvent 7 s
  else s

/-- Complete a running descriptor: its record, the counter, the MSI-X message where its interrupt flag asks for one; a muted
descriptor leaves no completion (R364, R366, R368). -/
def complete (q : Fin 16) (d : Desc) (res : Result) (s : State) : State :=
  let r := ringOf s q
  let gone := { r with running := r.running.filter (· ≠ d), muted := r.muted.filter (· ≠ d.idx) }
  if r.muted.contains d.idx then setRing q gone s
  else
    let s := putRecord q (completionSlots d s.hostTime res) (setRing q gone s)
    let s := flagStatus res.status (count (ringReg q Reg.ringCompleted) 1 s)
    if d.irq then dueMsix q s else s

/-- The running descriptor of ring q at index j, if there is one. -/
def runningAt (s : State) (q : Fin 16) (j : Nat) : Option Desc := (ringOf s q).running.find? fun d => d.idx = j

/-- A ring stopped by a reset or a halt: unstarted descriptors discarded, host-only ones stopped, the others muted (R368). -/
def Ring.stopped (r : Ring) : Ring :=
  let on := r.running.filter fun d => !hostOnlyOps.contains d.op
  { r with copied := [], taken := [], running := on, muted := on.map Desc.idx }

/-- Halt a ring (R369): its event except under cause 4, the counter, OSE_EVENTS bit 4. -/
def haltRing (q : Fin 16) (cause addr : Nat) (s : State) : State :=
  if (ringOf s q).halted then s
  else
    let s := if cause = 4 then s else report q [ringEventBytes Code.ringHalted cause s.hostTime 0 addr] true s
    let s := setRing q { (ringOf s q).stopped with halted := true, cause := cause } s
    flagEvent 4 (count (ringReg q Reg.ringHalts) 1 s)

/-- The bytes of a page record (R379). -/
def pageRecordBytes (outcome region hostTime addr symbols layer flags : Nat) : Bytes :=
  le 1 0 ++ le 1 5 ++ le 1 outcome ++ le 1 region ++ zeros 4 ++ le 8 hostTime ++ le 8 addr ++ le 1 symbols ++ le 1 layer ++
    le 1 flags ++ zeros 5

/-- A REFUSED_PLAN ring event on a plan's report ring (R365, R379). -/
def planLostEvent (ring cause planId firstStep : Nat) (s : State) : State :=
  report (ringNo ring) [ringEventBytes Code.refusedPlan cause s.hostTime planId firstStep] true s

end Sys2Proof.Machine
end

