-- ==== Sys2Proof/Machine/Pages.lean ====
section
/-! DEFINITION. Pages of the engine regions under the page guard: whole writes, accumulates, decoded reads, corrections and their
reports (R247 to R256, R265). -/

namespace Sys2Proof.Machine

open Sys2Proof

/-- Symbol errors corrected, t, in a region class (R248): 4, 8, 16, 32 or 64. -/
def strengthOf (s : State) (r : Nat) : Nat := 4 * 2 ^ bits (4 * r + 2) (4 * r) (regNat s Reg.pgStrengthF)

/-- The memory controller that serves an address (R43). -/
def channelOf (a : Nat) : Nat := a / 65536 % 24

/-- A register of the channel block of an address (R402). -/
def chanReg (base a : Nat) : Nat := base + channelOf a * 0x1000

/-- The key of a page's check slot in the check space (R250). -/
def checkKey (a : Nat) : Nat := channelOf a * 2 ^ 32 + a / 65536 / 24 * 4096 + a / 4096 % 16 * 256

/-- Keys of check-space beats among the marked beats start here; the addresses of HBM lie below. -/
def checkBeatBase : Nat := 2 ^ 41

/-- Symbols erased by beats that the memory controller marks uncorrectable (R46, R249): data symbols by number, check symbol i as
2048 + i. -/
def erasedSymbols (s : State) (a t : Nat) : List Nat :=
  let data := (List.range 128).filter fun i => s.badBeats.contains (a + 32 * i)
  let chk := (List.range (ceilDiv (4 * t) 32)).filter fun i => s.badBeats.contains (checkBeatBase + checkKey a + 32 * i)
  (data.flatMap fun i => upFrom (16 * i) 16) ++ (chk.flatMap fun i => (upFrom (16 * i) 16).filter (· < 2 * t)).map (2048 + ·)

/-- How many of a page's beats are marked (R270, OSE_CH_PG_ERASED). -/
def erasedBeats (s : State) (a t : Nat) : Nat :=
  ((List.range 128).filter fun i => s.badBeats.contains (a + 32 * i)).length +
    ((List.range (ceilDiv (4 * t) 32)).filter fun i => s.badBeats.contains (checkBeatBase + checkKey a + 32 * i)).length

/-- The outcome of decoding the page at an address (R249). A page of zeros with zero check data and no erasure is the codeword of
zeros (R247). -/
def decodePage (s : State) (r a : Nat) : PgRead :=
  let t := strengthOf s r
  let page := readBytes s.hbm a 4096
  let check := readBytes s.check (checkKey a) (4 * t)
  let erased := erasedSymbols s a t
  if erased.isEmpty ∧ page.all (· = 0#8) ∧ check.all (· = 0#8) then .good page 0 else pgDecode t page check erased

/-- Marks of the page's beats removed: the beats were written anew (assumption 11). -/
def clearBeats (a : Nat) (s : State) : State :=
  { s with badBeats := s.badBeats.filter fun b =>
      !(decide (a ≤ b) && decide (b < a + 4096)) &&
      !(decide (checkBeatBase + checkKey a ≤ b) && decide (b < checkBeatBase + checkKey a + 256)) }

/-- The armed injection of a channel taken and spent (R270): its count and value. -/
def takeInjection (a : Nat) (s : State) : (Nat × Nat) × State :=
  match s.guard.injections.find? fun i => i.1.val = channelOf a with
  | some i => (i.2, { s with guard.injections := s.guard.injections.filter fun j => j.1 ≠ i.1 })
  | none => ((0, 0), s)

/-- The page with the first symbols corrupted (R270). -/
def corrupt (n v : Nat) (page : Bytes) : Bytes := symbolBytes ((indexed 0 (symbols page)).map fun e => if e.1 < n then e.2 ^^^ v else e.2)

/-- What a whole-page write leaves behind of the page's earlier state: a correction not yet written back is discarded and counted, the
page leaves the damaged list, and bytes that waited for its repair are overtaken (R253, R255, R265). -/
def overtakePage (a : Nat) (s : State) : State :=
  let s := if s.guard.fixes.any (fun x => x.1 = a) then count Reg.pgCancelled 1 s else s
  { s with guard.fixes := s.guard.fixes.filter fun x => x.1 ≠ a,
           guard.damaged := s.guard.damaged.filter (· ≠ a),
           guard.merges := s.guard.merges.filter fun x => x.1 ≠ a }

/-- A page written whole with fresh check data (R251, R252): any armed injection of the channel applies, and what was pending for
the page is over. -/
def storePage (r a : Nat) (page : Bytes) (s : State) : State :=
  let t := strengthOf s r
  let (inj, s) := takeInjection a s
  let stored := if inj.1 = 0 then page else corrupt inj.1 inj.2 page
  let check := if page.all (· = 0#8) then zeros (4 * t) else pgCheck t page
  let s := overtakePage a { s with hbm := writeBytes a stored s.hbm, check := writeBytes (checkKey a) check s.check }
  wideAdd (chanReg Reg.chWrLo a) (4096 + 4 * t) (clearBeats a s)

/-- The page with the bytes put in that wait for its repair (R253). -/
def mergedPage (s : State) (a : Nat) (page : Bytes) : Bytes :=
  (s.guard.merges.filter fun x => x.1 = a).foldl (fun p x => putAt x.2.1 x.2.2 p) page

/-- A repaired page written whole, merged with what has waited for its repair (R253, R257). -/
def storeRepaired (r a : Nat) (page : Bytes) (s : State) : State := storePage r a (mergedPage s a page) s

/-- Bytes that waited for a page given up with it (R253, R257). -/
def dropMerges (a : Nat) (s : State) : State := { s with guard.merges := s.guard.merges.filter fun x => x.1 ≠ a }

/-- Consecutive pages written whole from an address. -/
def storePages (r : Nat) : Nat → Nat → Bytes → State → State
  | 0, _, _, s => s
  | n + 1, a, bs, s => storePages r n (a + 4096) (bs.drop 4096) (storePage r a (slice 0 4096 bs) s)

/-- Whole pages of zeros, from an address: zero pages have zero check data (R247). -/
def storeZeroPages (r a n : Nat) (s : State) : State := storePages r n a [] s

/-- A remote accumulate (R254): the payload into the page, its check symbols into the check slot. -/
def accumPage (r a : Nat) (payload : Bytes) (s : State) : State :=
  let t := strengthOf s r
  let p := slice 0 4096 payload
  let s := { s with hbm := xorInto a p s.hbm, check := xorInto (checkKey a) (pgCheck t p) s.check }
  wideAdd (chanReg Reg.chWrLo a) (4096 + 4 * t) (wideAdd (chanReg Reg.chRdLo a) (4096 + 4 * t) s)

/-- A correction written back as an accumulate of its error pattern, never as a write of the page (R254, R255). -/
def landFix (a : Nat) (pattern check : Bytes) (s : State) : State :=
  let n := 4096 + check.length
  let s := { s with hbm := xorInto a pattern s.hbm, check := xorInto (checkKey a) check s.check }
  wideAdd (chanReg Reg.chWrLo a) n (wideAdd (chanReg Reg.chRdLo a) n (clearBeats a s))

/-- The corrections that earlier reads left are written back (R255). -/
def landFixes (s : State) : State :=
  s.guard.fixes.foldl (fun s x => landFix x.1 x.2.1 x.2.2 s) { s with guard.fixes := [] }

/-- The ring that receives page records (R270). -/
def pageRing (s : State) : Fin 16 := ringNo (bits 11 8 (regNat s Reg.pgCtrl))

/-- The flags of a page record: in-update, damaged list overflow, found by the ditch rider, found by a descriptor (R379). -/
structure Finder where
  inUpdate : Bool := false
  rider : Bool := false
  descriptor : Bool := false
  deriving DecidableEq, Repr

/-- The flag byte of a finder. -/
def Finder.flags (f : Finder) (overflow : Bool) : Nat := b2n f.inUpdate + 2 * b2n overflow + 4 * b2n f.rider + 8 * b2n f.descriptor

/-- A PAGE event (R256, R451). -/
def pageEvent (status r a symbols layer flags : Nat) (s : State) : State :=
  event 0x0B status 0 (le 1 r ++ le 8 a ++ le 1 symbols ++ le 1 layer ++ le 1 flags) s

/-- The report of a corrected page (R256). -/
def reportCorrected (r a symbols : Nat) (f : Finder) (s : State) : State :=
  let s := count (chanReg Reg.chPgCorr a) 1 (count Reg.pgCorrected 1 s)
  if bit 12 (regNat s Reg.pgCtrl) then
    report (pageRing s) [pageRecordBytes Code.pageCorrected r s.hostTime a symbols 1 (f.flags false)] false s
  else s

/-- The report of a page repaired from the basin, a copy or a peer (R256, R257). -/
def reportRepaired (r a : Nat) (f : Finder) (s : State) : State :=
  let s := count Reg.pgRepaired 1 s
  pageEvent Code.pageRepaired r a 0 2 (f.flags false)
    (report (pageRing s) [pageRecordBytes Code.pageRepaired r s.hostTime a 0 2 (f.flags false)] false s)

/-- The report of an unrecoverable page, which joins the damaged list while it has room (R256, R265, R400). -/
def reportUnrecoverable (r a : Nat) (f : Finder) (s : State) : State :=
  let full := !s.guard.damaged.contains a && 1024 ≤ s.guard.damaged.length
  let s := if full || s.guard.damaged.contains a then s else { s with guard.damaged := s.guard.damaged ++ [a] }
  let s := flagEvent 0 (count Reg.pgUnrecoverable 1 s)
  pageEvent Code.pageUnrecoverable r a 0 0 (f.flags full)
    (report (pageRing s) [pageRecordBytes Code.pageUnrecoverable r s.hostTime a 0 0 (f.flags full)] false s)

/-- A correction that a read found: written back at once, or left for the next command where the channel block is slower; one that
still waits is neither repeated nor reported again (R255, R256). -/
def correctPage (r a n : Nat) (page check : Bytes) (f : Finder) (s : State) : State :=
  let pattern := xorBytes page (readBytes s.hbm a 4096)
  let chk := xorBytes check (readBytes s.check (checkKey a) check.length)
  if s.guard.fixes.any fun x => x.1 = a then s
  else if s.guard.lateFix then reportCorrected r a n f { s with guard.fixes := s.guard.fixes ++ [(a, pattern, chk)] }
  else reportCorrected r a n f (landFix a pattern chk s)

/-- An engine read of a page (R255): decoded, and corrected when the decoder corrects; none when it is uncorrectable or
listed as damaged (R265). -/
def readPage (r a : Nat) (f : Finder) (s : State) : Option Bytes × State :=
  if s.guard.damaged.contains a then (none, s)
  else
    let t := strengthOf s r
    let s1 := count (chanReg Reg.chPgErased a) (erasedBeats s a t) (wideAdd (chanReg Reg.chRdLo a) (4096 + 4 * t) s)
    match decodePage s r a with
    | .good page 0 => (some page, s1)
    | .good page n => (some page, correctPage r a n page (pgCheck t page) f s1)
    | .uncorrectable => (none, count (chanReg Reg.chPgUncorr a) 1 s1)

/-- Consecutive pages read from an address; the addresses that could not be read. -/
def readPages (r : Nat) (f : Finder) : Nat → Nat → State → Bytes × List Nat × State
  | 0, _, s => ([], [], s)
  | n + 1, a, s =>
    let (p, s) := readPage r a f s
    let (rest, bad, s) := readPages r f n (a + 4096) s
    ((p.getD (zeros 4096)) ++ rest, (if p.isSome then bad else a :: bad), s)

/-- A chunk of a region read whole (R255). -/
def readChunk (r chunk : Nat) (f : Finder) (s : State) : Bytes × List Nat × State := readPages r f 16 (regionBase s r + chunk * 65536) s

/-- `n` bytes at an address of a region, read through the page guard; the unreadable pages. -/
def readSpan (r a n : Nat) (f : Finder) (s : State) : Bytes × List Nat × State :=
  let first := a / 4096 * 4096
  let (bs, bad, s) := readPages r f (ceilDiv (a + n - first) 4096) first s
  (slice (a - first) n bs, bad, s)

/-- A page as the page guard returns it, without the effects of a read: zeros where it cannot be read. For a second look at content
that the engine has read, and for checks. -/
def peekPage (s : State) (r a : Nat) : Bytes :=
  if s.guard.damaged.contains a then zeros 4096
  else
    match decodePage s r a with
    | .good page _ => page
    | .uncorrectable => zeros 4096

/-- `n` bytes at an address as the page guard returns them, without the effects of a read. -/
def peekSpan (s : State) (r a n : Nat) : Bytes :=
  let first := a / 4096 * 4096
  slice (a - first) n ((List.range (ceilDiv (a + n - first) 4096)).flatMap fun i => peekPage s r (first + i * 4096))

/-- The new bytes of a partial write that fall into an unreadable page, kept for its repair (R253). -/
def keepMerge (a : Nat) (bs : Bytes) (page : Nat) (s : State) : State :=
  let lo := max a page
  { s with guard.merges := s.guard.merges ++ [(page, lo - page, slice (lo - a) (min (a + bs.length) (page + 4096) - lo) bs)] }

/-- A write of part of a page (R253): the page read, merged, written whole. An unreadable page is left for its escalation, its new
bytes wait for the repair, and the address comes back. -/
def writePart (r a : Nat) (bs : Bytes) (f : Finder) (s : State) : List Nat × State :=
  let first := a / 4096 * 4096
  let (old, bad, s) := readPages r f (ceilDiv (a + bs.length - first) 4096) first s
  let merged := putAt (a - first) bs old
  let ok := (List.range (old.length / 4096)).filter fun i => !bad.contains (first + i * 4096)
  let s := bad.foldl (fun s p => keepMerge a bs p s) s
  (bad, ok.foldl (fun s i => storePage r (first + i * 4096) (slice (i * 4096) 4096 merged) s) s)

/-- A chunk written whole. -/
def storeChunk (r chunk : Nat) (bs : Bytes) (s : State) : State := storePages r 16 (regionBase s r + chunk * 65536) bs s

/-- The pages of a byte sequence that are not all zero, as (page, bytes) (R185). -/
def nonZeroPages (bs : Bytes) : List (Nat × Bytes) :=
  ((List.range (bs.length / 4096)).map fun n => (n, slice (n * 4096) 4096 bs)).filter fun p => p.2.any (· ≠ 0#8)

/-! ### Channel caps (R45, R361, R402, R403) -/

/-- Bytes that the engine has moved on each channel (R402). -/
def traffic (s : State) : List Nat :=
  (List.range 24).map fun n => wideGet s (Reg.chRdLo + n * 0x1000) + wideGet s (Reg.chWrLo + n * 0x1000)

/-- Bytes of a chunk with its check data, at the highest strength (R248). -/
def chunkTraffic : Nat := 65536 + 16 * 256

/-- Whether a channel has no room in the window for another chunk of background or descriptor traffic (R45). -/
def channelFull (s : State) (n : Nat) : Bool := decide (s.power.caps.getD n 0 * 100000 < s.power.bgUsed.getD n 0 + chunkTraffic)

/-- Whether the channel of an address has room for a chunk. -/
def channelRoom (s : State) (a : Nat) : Bool := !channelFull s (channelOf a)

/-- The channels whose traffic has reached the cap counted, once a window (R402). -/
def countCapped (s : State) : State :=
  (List.range 24).foldl (fun s n =>
    if channelFull s n && !s.power.capped.contains n then
      count (Reg.chCapped + n * 0x1000) 1 { s with power.capped := s.power.capped ++ [n] }
    else s) s

/-- Background or descriptor traffic counted against the caps: what the channels have moved since `before`, unless the HBM share was
claimed (R45, R361). -/
def charge (before : List Nat) (s : State) : State :=
  if s.power.claim then s
  else
    let now := traffic s
    countCapped { s with power.bgUsed :=
      (List.range 24).map fun n => s.power.bgUsed.getD n 0 + (now.getD n 0 - before.getD n 0) }

/-- The caps written to the registers. -/
def writtenCaps (s : State) : List Nat := (List.range 24).map fun n => regNat s (Reg.chBgcap + n * 0x1000)

/-- The caps at a window tick: what a window moved past its cap counts in the next, and the caps written come into force (R45, R397). -/
def capTick (s : State) : State :=
  countCapped { s with
    power.bgUsed := (List.range 24).map fun n => s.power.bgUsed.getD n 0 - s.power.caps.getD n 0 * 100000,
    power.caps := writtenCaps s, power.capped := [] }

/-- A page mask of page numbers. -/
def maskOf (ps : List Nat) : BitVec 16 := BitVec.ofNat 16 (sumOf (ps.map fun n => 2 ^ n))

end Sys2Proof.Machine
end

