-- ==== Sys2Proof/Machine/Flags.lean ====
section
/-! DEFINITION. Flag computations: the intake table (R329, R330, R455) and every register that shows the engine's state rather than a
stored value (OSE_STATUS and its like). -/

namespace Sys2Proof.Machine

open Sys2Proof

/-! ### The intake table -/

/-- An intake entry while it is valid (R329). -/
structure IntakeEntry where
  classes : Nat
  live : Bool
  mem : Nat
  origin : Coord
  ext : Coord
  base : Nat
  len : Nat
  deriving DecidableEq, Repr

/-- Class mask bit of a packet class. -/
def clsBit (c : Nat) : Nat := 2 ^ c

/-- An entry whose senders are the whole job. -/
def jobEntry (s : State) (classes : Nat) (live : Bool) (mem base len : Nat) : IntakeEntry :=
  ⟨classes, live, mem, ⟨0, 0, 0⟩, ⟨extA s, extB s, extC s⟩, base, len⟩

/-- Whether a plan is active. -/
def planActive (s : State) : Bool := s.plans.active.isSome

/-- The intake entry of a window, none while it is invalid (R22, R330, R455; R184, R116, R217, R258, R314 for the periods). -/
def intakeEntry (s : State) (w : Nat) : Option IntakeEntry :=
  let store := clsBit 1
  if w = 46 then (if tagOf s ≠ 0 then some (jobEntry s (store + clsBit 7) false 1 0 4096) else none)
  else if w = 47 then
    match s.plans.active with
    | some p => some ⟨store, true, 0, partneredBy s, ⟨1, 1, 1⟩, cisternBase s + 2 * p.inputHalf, 2 * p.inputHalf⟩
    | none => none
  else if w = 48 then (if s.restore.running then some (jobEntry s store true 1 0x00C00000 (8 * 2 ^ 20)) else none)
  else if w = 49 then (if s.restore.running then some (jobEntry s (store + clsBit 7) true 1 0x1000 4096) else none)
  else if w = 50 then
    (if geoSet s && tagOf s ≠ 0 && !s.refill.frozen then some (jobEntry s store true 1 0x00400000 (4 * 2 ^ 20)) else none)
  else if w = 51 then (if geoSet s && tagOf s ≠ 0 && !s.refill.frozen then some (jobEntry s store true 1 0x2000 4096) else none)
  else if 52 ≤ w ∧ w ≤ 56 then
    if !s.refill.wins.contains w then none
    else if w = 52 then some (jobEntry s store true 0 (plotBase s) (regionSize s 0))
    else if w = 53 then some (jobEntry s store true 0 (cisternBase s) (regionSize s 3))
    else if w = 54 then some (jobEntry s store true 1 0x00800000 (4 * 2 ^ 20))
    else if w = 55 then some (jobEntry s store true 1 0x3000 4096)
    else some (jobEntry s store true 0 (bankBase s) (regionSize s 1))
  else if !planActive s || (w < 61 && !geoSet s) then none
  else if w = 57 then some (jobEntry s (clsBit 2) true 0 (bankBase s) (regionSize s 1))
  else if w = 58 then some (jobEntry s (clsBit 5) true 1 0x4000 4096)
  else if w = 59 then some (jobEntry s (clsBit 6) true 1 0x5000 4096)
  else if w = 60 then some (jobEntry s (store + clsBit 7) true 1 0x6000 4096)
  else if w = 61 then some (jobEntry s (clsBit 4) true 2 0 (96 * 2 ^ 20))
  else if w = 62 then some (jobEntry s (clsBit 4) true 1 0x00040000 (3 * 2 ^ 20))
  else if w = 63 then some (jobEntry s (clsBit 4) true 1 0x00010000 (96 * 1024))
  else none

/-- Whether a sender lies in an entry's range (R329). -/
def inSenderRange (s : State) (e : IntakeEntry) (c : Coord) : Bool :=
  let off := fun x x0 n => (x + n - x0 % max n 1) % max n 1
  decide (off c.a e.origin.a (extA s) < e.ext.a) && decide (off c.b e.origin.b (extB s) < e.ext.b) &&
    decide (off c.c e.origin.c (extC s) < e.ext.c)

/-- The eight register words of an intake entry; zero while it is invalid (R329, R455). -/
def intakeWords (s : State) (w : Nat) : List Nat :=
  match intakeEntry s w with
  | none => List.replicate 8 0
  | some e => [1 + e.classes + 256 * b2n e.live + 512 * e.mem, coordWord e.origin, e.ext.a + 64 * e.ext.b + 4096 * e.ext.c, 0, 
      u32 e.base, e.base / 2 ^ 32, u32 e.len, e.len / 2 ^ 32]

/-! ### Registers that show state -/

/-- OSE_STATUS (R398): in E3 only the power state. -/
def statusWord (s : State) : Nat :=
  if s.power.state = 3 then 0x30
  else b2n s.ready + 2 * b2n s.dry + 4 * b2n s.refill.frozen + 8 * b2n s.job.live + 16 * (s.power.state % 4) + 64 * b2n (planActive s) +
    128 * b2n s.restore.running

/-- Replica readings of the last 10 µs (R86). -/
def recentReplicas (s : State) : List (Nat × Nat × Nat) := s.power.replicas.filter fun r => s.ht ≤ r.2.2 + 10000

/-- The lowest replica reading of the last 10 µs, 0 until each of the 24 chains has been sampled (R86, R414). -/
def lowestReplica (s : State) : Nat :=
  let rs := recentReplicas s
  if (List.range 24).all fun c => rs.any fun r => r.1 = c then (minOf (rs.map fun r => r.2.1)).getD 0 else 0

/-- The plan named at the last commit, where a slot holds it (R276, R301). -/
def commitPlan (s : State) : Option Plan :=
  (s.plans.active.toList ++ s.plans.standby.toList).find? fun p => some p.id == s.plans.lastCommitId

/-- Whether the live offer of R301 stands. -/
def liveStanding (s : State) : Bool := s.restore.liveOffer && (commitPlan s).isSome

/-- The active plan's ID; 0 when none. -/
def activeId (s : State) : Nat := (s.plans.active.map Plan.id).getD 0

/-- The standby plan's ID; 0 when none. -/
def standbyId (s : State) : Nat := (s.plans.standby.map Plan.id).getD 0

/-- OSE_JOB_STATE (R349). -/
def jobStateWord (s : State) : Nat :=
  b2n (decide (tagOf s ≠ 0)) + 2 * b2n s.job.live + 4 * b2n s.job.staged.isSome + 8 * b2n s.job.isRoot + 16 * b2n s.job.held +
    32 * (s.job.outcome % 4)

/-- OSE_RF_STATE (R243). -/
def refillStateWord (s : State) : Nat :=
  let f := s.refill
  f.state % 16 + 16 * b2n f.isSpare + 32 * b2n f.isSource + 64 * b2n f.isPeer + 128 * b2n f.isDecoder + 256 * (f.cause % 256)

/-- Bank-share slots the geometry in force needs here (R24). -/
def bankSlots (s : State) : Nat :=
  if basinMode s then ceilDiv (plotChunks s * (geoK s / 4 + geoG s)) (geoK s)
  else if mirrorMode s then plotChunks s else 0

/-- Bank-share slots absent (R239). -/
def absentSlots (s : State) : Nat := (s.basin.absent.filter fun n => n < bankSlots s).length

/-- The opcodes that neither wake the engine nor wait for a release (R214, R408). -/
def quietOps : List Nat := [Op.healthRead, Op.counterRead, Op.fence]

/-- Accepted turns whose work is not complete. -/
def runningTurns (s : State) : List TurnRun := s.step.turns.filter fun r => r.phase = 1

/-- Descriptors running in all rings. -/
def runningAll (s : State) : List Desc := s.rings.toList.flatMap Ring.running

/-- Whether a restore that writes the plot runs. -/
def restoreRuns (s : State) : Bool := (runningAll s).any fun d => d.op = Op.restoreLoad || d.op = Op.restoreReslice

/-- Whether an UPDATE turn's work is running (R171). -/
def updateRuns (s : State) : Bool :=
  (runningTurns s).any (fun r => r.kind = Kind.update) || (s.upd.started && !s.step.updDone && !s.upd.failed)

/-- Whether a rule of another chapter makes a taken descriptor wait (R171, R214, R276, R290, R321). -/
def mustWait (s : State) (d : Desc) : Bool :=
  let plot := (d.op = Op.stateFill || d.op = Op.repairRange) && d.f 8 1 = 0
  (s.refill.frozen && !quietOps.contains d.op) ||
  (updateRuns s && (plot || d.op = Op.restoreLoad || d.op = Op.restoreReslice)) ||
  (d.op = Op.snapDrain && (runningAll s).any fun x => x.op = Op.snapDrain) ||
  (d.op = Op.snapPond && s.pond.held) ||
  (restoreRuns s && (plot || [Op.snapDrain, Op.snapPond, Op.streamWindow, Op.planArm].contains d.op)) ||
  ([Op.restoreScan, Op.restoreLoad, Op.restoreReslice].contains d.op &&
    (runningAll s).any fun x => [Op.restoreScan, Op.restoreLoad, Op.restoreReslice].contains x.op)

/-- Whether the first taken descriptor of a ring may start (R358, R359). -/
def mayStart (s : State) (q : Fin 16) (d : Desc) : Bool :=
  let run := (ringOf s q).running
  decide (run.length < 8) && decide ((runningAll s).length < 32) && (!(orderingOps.contains d.op || d.fence) || run.isEmpty) &&
    !run.any (fun x => orderingOps.contains x.op) && !mustWait s d

/-- OSE_RING_STATUS; a ring waits while its first taken descriptor is held (R358, R359, R382). -/
def ringStatusWord (s : State) (q : Fin 16) : Nat :=
  let r := ringOf s q
  let held := r.taken.head?.any fun d => !mayStart s q d
  b2n ((r.enabled || r.closing) && !r.halted) + 2 * b2n r.halted + 4 * b2n r.resetting + 8 * b2n held + 16 * (r.cause % 16) +
    256 * r.running.length

/-- OSE_PWR_STATUS (R401). -/
def pwrStatusWord (s : State) : Nat := s.power.state % 4 + 4 * b2n s.power.moving.isSome + 8 * b2n s.power.refused

/-- The standby bank: the one that is not confirmed (R440). -/
def standbyBank (s : State) : Bank :=
  (s.fw.banks.find? fun b => decide (b.state ≠ .confirmed)).getD {}

/-- OSE_FW_STATE (R404). -/
def fwStateWord (s : State) : Nat :=
  b2n (decide ((standbyBank s).state = .staged)) + 2 * b2n s.fw.unconfirmed + 4 * b2n s.fw.serialBound + 16 * (s.fw.patches % 16) +
    256 * (s.fw.lastStatus % 256)

/-- OSE_FW_STANDBY (R404, R440). -/
def fwStandbyWord (s : State) : Nat :=
  let b := standbyBank s
  if b.state = .staged ∨ b.state = .previous then b.version else 0

/-- OSE_START_COUNT: bytes 3 to 5 of the scratch (R404, R435). -/
def startCountWord (s : State) : Nat :=
  if s.ready || s.dry then s.scratch.count % 16 + 16 * b2n s.scratch.dry + 256 * (s.scratch.cause % 256) else 0

/-- Slots that a running export or stream reads, or that a restore in progress names as sources (R286, R298, R321). -/
def busySlots (s : State) : List Nat :=
  (s.rings.toList.flatMap fun r => (r.running.filter fun d => d.op = Op.snapExport ∨ d.op = Op.streamWindow).map fun d => d.f 8 1) ++
    (if s.restore.running then (s.restore.sources.filter fun x => x.tier = 2 ∧ x.holder = here s).map Source.slot else [])

/-- OSE_SNAP_SLOT_STATE as it reads: the states as last settled, and which slots are busy now (R298). -/
def slotStateWord (s : State) : Nat :=
  regNat s Reg.snapSlotState + sumOf ((List.range (bits 3 0 (regNat s Reg.snapCfgF))).map fun i => b2n ((busySlots s).contains i) * 4 * 16 ^ i)

/-- The value a view register of bank 0 shows, none where the register is a stored one. -/
def viewBase (s : State) (off : Nat) : Option Nat :=
  if off = Reg.status then some (statusWord s)
  else if off = Reg.hostTimeLo then some (u32 s.hostTime) else if off = Reg.hostTimeHi then some (s.hostTime / 2 ^ 32)
  else if off = Reg.htLo then some (u32 s.ht) else if off = Reg.htHi then some (s.ht / 2 ^ 32)
  else if off = Reg.htLock then some (b2n s.power.lock)
  else if off = Reg.margin then some (lowestReplica s % 65536 + 65536 * (s.power.admMargin % 65536))
  else if off = Reg.leaseStatus then some (b2n s.power.leaseHold + 2 * b2n s.power.leaseGrant + 4 * b2n s.power.breach)
  else if off = Reg.allotGrant then some s.power.grant
  else if off = Reg.stepNextLo then some (u32 s.step.nextAt) else if off = Reg.stepNextHi then some (s.step.nextAt / 2 ^ 32)
  else if off = Reg.stepNum then some (stepNum s)
  else if off = Reg.planActive then some (activeId s) else if off = Reg.planStandby then some (standbyId s)
  else if off = Reg.planState then some (b2n s.plans.standby.isSome + 2 * b2n s.plans.armed.isSome)
  else if off = Reg.pwrStatus then some (pwrStatusWord s)
  else if off = Reg.point then some (s.power.pointClass % 4 + 65536 * (s.power.supply % 65536))
  else if off = Reg.energyLo then some (u32 s.power.energy) else if off = Reg.energyHi then some (s.power.energy / 2 ^ 32)
  else if off = Reg.bcPolarity then some (b2n s.step.polarity)
  else if off = Reg.bcCommitted then some (committedWord s)
  else if off = Reg.bcCommitAtLo then some (u32 s.step.commitAt) else if off = Reg.bcCommitAtHi then some (s.step.commitAt / 2 ^ 32)
  else if off = Reg.bcUndoUsed then some s.basin.undo.length
  else if off = Reg.rfState then some (refillStateWord s)
  else if off = Reg.rfId then some (s.refill.lastId % 65536 + 65536 * (s.refill.policy % 2))
  else if off = Reg.rfFrozenAtLo then some (u32 s.refill.frozenAt) else if off = Reg.rfFrozenAtHi then some (s.refill.frozenAt / 2 ^ 32)
  else if off = Reg.rfChunksS then some ((s.refill.classes.filter fun c => c.cls = 0).length)
  else if off = Reg.rfChunksS1 then some ((s.refill.classes.filter fun c => c.cls = 1).length)
  else if off = Reg.rfAbsent then some (if s.refill.isSpare then absentSlots s else 0)
  else if off = Reg.rfBytesLo then some (u32 s.refill.bytes) else if off = Reg.rfBytesHi then some (s.refill.bytes / 2 ^ 32)
  else if off = Reg.pgScrubDone then some s.guard.cycleDone
  else if off = Reg.pgScrubBacklog then some s.guard.backlog
  else if off = Reg.pgDamaged then some s.guard.damaged.length
  else if off = Reg.pondState then some (regNat s Reg.pondState % 4 + 4 * b2n s.pond.held)
  else if off = Reg.snapSlotState then some (slotStateWord s)
  else if off = Reg.rsState then some (s.restore.state % 16 + 256 * (s.restore.status % 256))
  else if off = Reg.rsStep then some (s.restore.lastStep.getD 0xFFFFFFFF)
  else if off = Reg.rsVector then some s.restore.verdictVector
  else if off = Reg.rsLive then some (b2n (liveStanding s))
  else if off = Reg.rsWrittenLo then some (u32 s.restore.totalWritten) else if off = Reg.rsWrittenHi then some (s.restore.totalWritten / 2 ^ 32)
  else if off = Reg.rsPushedLo then some (u32 s.restore.totalPushed) else if off = Reg.rsPushedHi then some (s.restore.totalPushed / 2 ^ 32)
  else if off = Reg.jobState then some (jobStateWord s)
  else if off = Reg.jobLiveAtLo then some (u32 s.job.liveAt) else if off = Reg.jobLiveAtHi then some (s.job.liveAt / 2 ^ 32)
  else if off = Reg.modeEpoch then some s.job.epoch else if off = Reg.modeWord then some (s.job.mode % 256)
  else if off = Reg.modePending then some ((s.job.pendingMode.map PendingMode.epoch).getD 0)
  else if off = Reg.modeAtLo then some (u32 ((s.job.pendingMode.map PendingMode.instant).getD 0))
  else if off = Reg.modeAtHi then some ((s.job.pendingMode.map PendingMode.instant).getD 0 / 2 ^ 32)
  else if off = Reg.fwActive then some s.fw.runVersion
  else if off = Reg.fwStandby then some (fwStandbyWord s)
  else if off = Reg.fwState then some (fwStateWord s)
  else if off = Reg.startCount then some (startCountWord s)
  else if off = Reg.culLast then some (s.culvert.rxLast % 256 + 256 * (s.culvert.txLast % 256))
  else if off = Reg.culHb then some s.culvert.hbSeq
  else none

/-- The value a banked view register shows, by the base offset of its row and the copy. -/
def viewBank (s : State) (base n : Nat) : Option Nat :=
  if base = Reg.intakeW then some ((intakeWords s (n / 8)).getD (n % 8) 0)
  else if base = Reg.chStatus then some (b2n s.power.claim)
  else if base = Reg.ctlState then
    match s.ctl.toList[n]? with
    | some c => some (c.state % 4 + 256 * (c.cause % 256))
    | none => none
  else if base = Reg.ctlImage then (s.ctl.toList[n]?).map fun c => c.image.toNat
  else
    match s.rings.toList[n]? with
    | none => none
    | some r =>
      if base = Reg.ringCtrl then some (b2n r.enabled + 2 * b2n r.reportIrq)
      else if base = Reg.ringStatus then some (ringStatusWord s (ringNo n))
      else if base = Reg.ringSqHead then some r.sqHead else if base = Reg.ringSqTail then some r.sqTail
      else if base = Reg.ringCqTail then some r.cqTail else if base = Reg.ringCqHead then some r.cqHead
      else none

/-- Whether the engine is on its way out of E2: registers marked with the dash then read their reset values (R420). DEDUCED (assumption 95):
OSE_PWR_STATUS goes on showing the transition. -/
def leavingRetain (s : State) (off : Nat) : Bool := decide (s.power.state = 2) && s.power.moving == some 0 && decide (off ≠ Reg.pwrStatus)

/-- What a register reads as, before the capture rules of R10 and R387: zero where the window holds no register (R383), zero for a
write-only one (R11), in E3 only OSE_STATUS (R398). -/
def readReg (s : State) (off : Nat) : Word :=
  if s.power.state = 3 then (if off = Reg.status then 0x30#32 else 0)
  else
    match rowAt off with
    | none => 0
    | some (r, n) =>
      if r.acc = .wo then 0
      else if r.surv = 0 && leavingRetain s off then r.reset
      else
        match (if r.cnt = 1 then viewBase s off else viewBank s r.off n) with
        | some v => BitVec.ofNat 32 v
        | none => regGet s off

end Sys2Proof.Machine
end

