-- ==== Sys2Proof/Machine/Float.lean ====
section
/-! DEFINITION. The arithmetic of the update unit and of the final conversion: exact values, one rounding (R131, R142,
R148, R150, R152, R160, R161, R173). -/

namespace Sys2Proof.Machine

open Sys2Proof

/-- The exact value of a binary floating-point word: (−1)^neg · m · 2^e, an infinity, or a NaN. -/
inductive Num where
  | nan
  | inf (neg : Bool)
  | fin (neg : Bool) (m : Nat) (e : Int)
  deriving DecidableEq, Repr

/-- A binary format: significand bits with the hidden bit, exponent field width. -/
structure Fmt where
  p  : Nat
  ew : Nat
  deriving DecidableEq, Repr

/-- bfloat16, binary16, binary32 (R105, R141). -/
def fmtBf16 : Fmt := ⟨8, 8⟩
/-- IEEE 754 binary16. -/
def fmtF16 : Fmt := ⟨11, 5⟩
/-- IEEE 754 binary32. -/
def fmtF32 : Fmt := ⟨24, 8⟩

/-- The format of a type code (R105, R141); binary32 for a code the audit admits nowhere else. -/
def fmtOf (code : Nat) : Fmt := if code = 1 then fmtBf16 else if code = 2 then fmtF16 else fmtF32

/-- Bytes of a value of a type code. -/
def fmtBytes (code : Nat) : Nat := if code = 3 then 4 else if code = 4 then 1 else 2

/-- The exponent bias. -/
def Fmt.bias (f : Fmt) : Nat := 2 ^ (f.ew - 1) - 1
/-- The least normal exponent. -/
def Fmt.emin (f : Fmt) : Int := 1 - (f.bias : Int)
/-- The exponent field of infinities and NaNs. -/
def Fmt.top (f : Fmt) : Nat := 2 ^ f.ew - 1

/-- The value of a word of a format. -/
def numOf (f : Fmt) (w : Nat) : Num :=
  let frac := w % 2 ^ (f.p - 1)
  let x := w / 2 ^ (f.p - 1) % 2 ^ f.ew
  let neg := w.testBit (f.p - 1 + f.ew)
  if x = f.top then (if frac = 0 then .inf neg else .nan)
  else if x = 0 then .fin neg frac (f.emin - (f.p - 1))
  else .fin neg (2 ^ (f.p - 1) + frac) ((x : Int) - f.bias - (f.p - 1))

/-- The word of a sign, an exponent field and a fraction. -/
def packBits (f : Fmt) (neg : Bool) (x frac : Nat) : Nat :=
  (if neg then 2 ^ (f.p - 1 + f.ew) else 0) + x * 2 ^ (f.p - 1) + frac

/-- The quiet NaN: 0x7FC0, 0x7E00, 0x7FC0_0000 (R131, R148). -/
def quietNan (f : Fmt) : Nat := packBits f false f.top (2 ^ (f.p - 2))
/-- An infinity. -/
def infBits (f : Fmt) (neg : Bool) : Nat := packBits f neg f.top 0
/-- The largest finite value. -/
def maxBits (f : Fmt) (neg : Bool) : Nat := packBits f neg (f.top - 1) (2 ^ (f.p - 1) - 1)

/-- num · 2^e ÷ den in units of 2^u, as a fraction (numerator, denominator). -/
def inUnits (num den : Nat) (e u : Int) : Nat × Nat :=
  if u ≤ e then (num * 2 ^ (e - u).toNat, den) else (num, den * 2 ^ (u - e).toNat)

/-- floor(log2 (num ÷ den · 2^e)) for a non-zero num. -/
def log2Q (num den : Nat) (e : Int) : Int :=
  let g : Int := (Nat.log2 num : Int) - Nat.log2 den
  let q := inUnits num den 0 g
  if q.2 ≤ q.1 then g + e else g - 1 + e

/-- The unit in the last place at a magnitude, as an exponent (R160). -/
def ulpExp (f : Fmt) (num den : Nat) (e : Int) : Int := max (log2Q num den e) f.emin - (f.p - 1)

/-- The nearest integer to a fraction, ties to even. -/
def nearestEven (n d : Nat) : Nat :=
  let i := n / d
  let r := 2 * (n % d)
  if d < r ∨ (r = d ∧ i % 2 = 1) then i + 1 else i

/-- n units of 2^u as a word; none when it exceeds the largest finite value. -/
def encodeUnits (f : Fmt) (neg : Bool) (n : Nat) (u : Int) : Option Nat :=
  let n' := if n = 2 ^ f.p then 2 ^ (f.p - 1) else n
  let u' := if n = 2 ^ f.p then u + 1 else u
  if n' < 2 ^ (f.p - 1) then some (packBits f neg 0 n')
  else
    let x := (u' + (f.p - 1) + f.bias).toNat
    if f.top ≤ x then none else some (packBits f neg x (n' - 2 ^ (f.p - 1)))

/-- num · 2^e ÷ den rounded once to a format, ties to even; an infinity beyond the range (R131, R148). -/
def roundQ (f : Fmt) (neg : Bool) (num den : Nat) (e : Int) : Nat :=
  if num = 0 then packBits f neg 0 0
  else
    let u := ulpExp f num den e
    let q := inUnits num den e u
    match encodeUnits f neg (nearestEven q.1 q.2) u with
    | some w => w
    | none => infBits f neg

/-- A value rounded to binary32 (R148). -/
def rne (x : Num) : Nat :=
  match x with
  | .nan => quietNan fmtF32
  | .inf neg => infBits fmtF32 neg
  | .fin neg m e => roundQ fmtF32 neg m 1 e

/-- The value of a binary32 word. -/
def num32 (w : Nat) : Num := numOf fmtF32 w

/-- A subnormal replaced by the zero of its sign, in heritage mode (R173). -/
def flush (her : Bool) (w : Nat) : Nat :=
  if her ∧ w / 2 ^ 23 % 256 = 0 then (if w.testBit 31 then 2 ^ 31 else 0) else w

/-- Sign inverted. -/
def negNum : Num → Num
  | .nan => .nan
  | .inf s => .inf (!s)
  | .fin s m e => .fin (!s) m e

/-- The exact sum; the sign of an exact zero is + unless both terms are −0 (R148). -/
def addNum : Num → Num → Num
  | .nan, _ => .nan
  | _, .nan => .nan
  | .inf s, .inf t => if s = t then .inf s else .nan
  | .inf s, .fin _ _ _ => .inf s
  | .fin _ _ _, .inf t => .inf t
  | .fin s m e, .fin t n g =>
    let lo := min e g
    let a : Int := (if s then -1 else 1) * ((m * 2 ^ (e - lo).toNat : Nat) : Int)
    let b : Int := (if t then -1 else 1) * ((n * 2 ^ (g - lo).toNat : Nat) : Int)
    let c := a + b
    if c = 0 then .fin (s && t) 0 lo else .fin (decide (c < 0)) c.natAbs lo

/-- The exact product. -/
def mulNum : Num → Num → Num
  | .nan, _ => .nan
  | _, .nan => .nan
  | .inf s, .inf t => .inf (s ^^ t)
  | .inf s, .fin t n _ => if n = 0 then .nan else .inf (s ^^ t)
  | .fin s m _, .inf t => if m = 0 then .nan else .inf (s ^^ t)
  | .fin s m e, .fin t n g => .fin (s ^^ t) (m * n) (e + g)

/-- The quotient, rounded once to binary32. -/
def divRne : Num → Num → Nat
  | .nan, _ => quietNan fmtF32
  | _, .nan => quietNan fmtF32
  | .inf _, .inf _ => quietNan fmtF32
  | .inf s, .fin t _ _ => infBits fmtF32 (s ^^ t)
  | .fin s _ _, .inf t => packBits fmtF32 (s ^^ t) 0 0
  | .fin s m e, .fin t n g =>
    if n = 0 then (if m = 0 then quietNan fmtF32 else infBits fmtF32 (s ^^ t))
    else roundQ fmtF32 (s ^^ t) m n (e - g)

/-- The integer square root by trial of one bit at a time, from bit `k` down. -/
def isqrtGo : Nat → Nat → Nat → Nat
  | 0, _, acc => acc
  | k + 1, n, acc => isqrtGo k n (if (acc + 2 ^ k) * (acc + 2 ^ k) ≤ n then acc + 2 ^ k else acc)

/-- floor(√n). -/
def isqrt (n : Nat) : Nat := isqrtGo (Nat.log2 n / 2 + 1) n 0

/-- √x rounded once to binary32 (R149). A root that is not exact is held with a sticky bit far below the last place. -/
def sqrtRne : Num → Nat
  | .nan => quietNan fmtF32
  | .inf s => if s then quietNan fmtF32 else infBits fmtF32 false
  | .fin s m e =>
    if m = 0 then packBits fmtF32 s 0 0
    else if s then quietNan fmtF32
    else
      let odd := e % 2 = 1
      let m' := (if odd then 2 * m else m) * 2 ^ 64
      let e' := (if odd then e - 1 else e) / 2 - 32
      let r := isqrt m'
      roundQ fmtF32 false (2 * r + b2n (r * r ≠ m')) 1 (e' - 1)

/-- 1 ÷ √x rounded once to binary32 (R149). -/
def rsqrtRne : Num → Nat
  | .nan => quietNan fmtF32
  | .inf s => if s then quietNan fmtF32 else 0
  | .fin s m e =>
    if m = 0 then infBits fmtF32 s
    else if s then quietNan fmtF32
    else
      let odd := e % 2 = 1
      let m' := if odd then 2 * m else m
      let e' := (if odd then e - 1 else e) / 2
      let r := isqrt (2 ^ 160 / m')
      roundQ fmtF32 false (2 * r + b2n (r * r * m' ≠ 2 ^ 160)) 1 (-80 - e' - 1)

/-- Whether a binary32 word is a NaN. -/
def isNan (w : Nat) : Bool := num32 w = .nan

/-- Whether a binary32 word is finite. -/
def isFinite32 (w : Nat) : Bool := w / 2 ^ 23 % 256 ≠ 255

/-- A rank that orders the non-NaN words, −0 below +0 (R148). -/
def rank32 (w : Nat) : Int := if w.testBit 31 then -((w % 2 ^ 31 : Nat) : Int) - 1 else (w : Int)

/-- Whether a binary32 word is greater than zero. -/
def gtZero (w : Nat) : Bool := !isNan w && 0 < w && w < 2 ^ 31

/-- The word 1.0. -/
def one32 : Nat := 0x3F800000

/-- MIN and MAX; in heritage mode one NaN yields the other input (R148, R173). -/
def minMax (her isMax : Bool) (a b : Nat) : Nat :=
  if isNan a ∨ isNan b then
    if her then (if isNan a then (if isNan b then quietNan fmtF32 else b) else a) else quietNan fmtF32
  else if isMax then (if rank32 a < rank32 b then b else a) else (if rank32 b < rank32 a then b else a)

/-- The rounded product. -/
def mul32 (a b : Nat) : Nat := rne (mulNum (num32 a) (num32 b))

/-- a × b + c with one rounding, or with the product rounded first in heritage mode (R149, R173). -/
def fma32 (her : Bool) (a b c : Nat) : Nat :=
  if her then rne (addNum (num32 (mul32 a b)) (num32 c))
  else rne (addNum (mulNum (num32 a) (num32 b)) (num32 c))

/-- The sign inverted, a NaN kept as the quiet NaN. -/
def neg32 (a : Nat) : Nat := if isNan a then quietNan fmtF32 else if a.testBit 31 then a - 2 ^ 31 else a + 2 ^ 31

/-- powi by repeated squaring, `k` bits of the exponent left (R150). -/
def powiGo (her : Bool) : Nat → Nat → Nat → Nat → Nat
  | 0, _, _, acc => acc
  | k + 1, n, sq, acc =>
    if n = 0 then acc
    else
      let acc' := if n % 2 = 1 then flush her (mul32 acc sq) else acc
      let n' := n / 2
      powiGo her k n' (if n' = 0 then sq else flush her (mul32 sq sq)) acc'

/-- powi(b, n) of R150. -/
def powi (her : Bool) (b n : Nat) : Nat := powiGo her 32 n b one32

/-- A u32 as binary32, rounded to nearest even (R147). -/
def natTo32 (n : Nat) : Nat := roundQ fmtF32 false n 1 0

/-- A curve of (step, value) points at step s (R152). -/
def curveAt (pts : List (Nat × Nat)) (s : Nat) : Nat :=
  match pts with
  | [] => 0
  | (s0, v0) :: _ =>
    if s ≤ s0 then v0
    else
      let last := pts.getLastD (s0, v0)
      if last.1 ≤ s then last.2
      else
        let before := (pts.filter fun p => p.1 ≤ s).getLastD (s0, v0)
        let next := ((pts.filter fun p => s < p.1).head?).getD last
        let frac := roundQ fmtF32 false (s - before.1) (next.1 - before.1) 0
        let diff := rne (addNum (num32 next.2) (negNum (num32 before.2)))
        rne (addNum (mulNum (num32 frac) (num32 diff)) (num32 before.2))

/-- How a value is rounded on write (R160, R173): to nearest, or stochastically with `bits` random bits of value `rb`. -/
inductive RoundMode where
  | nearest
  | stochastic (rb bits : Nat)
  deriving DecidableEq, Repr

/-- |v| in units, rounded (R160). -/
def roundUnits (mode : RoundMode) (n d : Nat) : Nat :=
  match mode with
  | .nearest => nearestEven n d
  | .stochastic rb k => n / d + (if 2 ^ k * d ≤ (n % d) * 2 ^ k + rb * d then 1 else 0)

/-- A finite binary32 value rounded into bfloat16 or binary16: the word and whether it saturated (R160; in heritage mode an
overflow to nearest writes an infinity, R173). -/
def roundOut (her : Bool) (f : Fmt) (mode : RoundMode) (w : Nat) : Nat × Bool :=
  match num32 w with
  | .nan => (quietNan f, false)
  | .inf s => (infBits f s, false)
  | .fin s m e =>
    if m = 0 then (packBits f s 0 0, false)
    else
      let u := ulpExp f m 1 e
      let q := inUnits m 1 e u
      match encodeUnits f s (roundUnits mode q.1 q.2) u with
      | some w' => (w', false)
      | none => (if her ∧ mode = .nearest then infBits f s else maxBits f s, true)

/-- A word of a state or gradient format as binary32 (R142). -/
def toF32 (code : Nat) (w : Nat) : Nat :=
  match numOf (fmtOf code) w with
  | .nan => quietNan fmtF32
  | .inf s => infBits fmtF32 s
  | .fin s m e => roundQ fmtF32 s m 1 e

/-- A KB8 element as binary32: mantissa byte q, block exponent X (R142). -/
def kb8Value (q : Byte) (x : Nat) : Nat :=
  if x = 0 then 0
  else if x = 255 then quietNan fmtF32
  else
    let i := q.toInt
    roundQ fmtF32 (decide (i < 0)) i.natAbs 1 ((x : Int) - 133)

/-- The mantissas of a block at exponent X (R161). -/
def kb8Mants (vs : List (Nat × RoundMode)) (x : Nat) : List Int :=
  vs.map fun vm =>
    match num32 vm.1 with
    | .fin s m e =>
      let q := inUnits m 1 e ((x : Int) - 133)
      let n := if m = 0 then 0 else roundUnits vm.2 q.1 q.2
      if s then -(n : Int) else n
    | _ => 0

/-- The loop of R161, at most `k` rounds: the exponent, the mantissas, the number of clamped elements. -/
def kb8Loop (vs : List (Nat × RoundMode)) : Nat → Nat → Nat × List Byte × Nat
  | 0, x => (x, vs.map fun _ => 0#8, 0)
  | k + 1, x =>
    let qs := kb8Mants vs x
    if qs.all fun q => q.natAbs ≤ 127 then (x, qs.map (BitVec.ofInt 8), 0)
    else if x = 254 then
      (x, qs.map fun q => BitVec.ofInt 8 (if q < -127 then -127 else if 127 < q then 127 else q), (qs.filter fun q => 127 < q.natAbs).length)
    else kb8Loop vs k (x + 1)

/-- A block of finite values written as KB8 (R161). -/
def kb8Out (vs : List (Nat × RoundMode)) : Nat × List Byte × Nat :=
  let amax := vs.foldl (fun acc vm => max acc (vm.1 % 2 ^ 31)) 0
  match num32 amax with
  | .fin _ m e =>
    if m = 0 then (0, vs.map fun _ => 0#8, 0)
    else
      let x := log2Q m 1 e + 127
      kb8Loop vs 256 (if x < 1 then 1 else if 254 < x then 254 else x.toNat)
  | _ => (0, vs.map fun _ => 0#8, 0)

/-- floor(log2 |x|) of a finite non-zero element, none otherwise (R108). -/
def exponentOf (code : Nat) (w : Nat) : Option Int :=
  match numOf (fmtOf code) w with
  | .fin _ m e => if m = 0 then none else some (log2Q m 1 e)
  | _ => none

/-- A quantized element: the lane, whether it saturated, whether it was poisoned (R110, R111). -/
def quantize (code : Nat) (w : Nat) (ex : Int) : Lane × Bool × Bool :=
  match numOf (fmtOf code) w with
  | .fin s m e =>
    if ex = -32768 then (⟨0#40, 0⟩, false, false)
    else
      let q := inUnits m 1 (e + 22 - ex) 0
      let n := nearestEven q.1 q.2
      let c := min n 8388607
      let v : Int := if s then -(c : Int) else c
      (⟨BitVec.ofInt 40 v, (v % 7).toNat⟩, decide (8388607 < n), false)
  | _ => (⟨0#40, 7⟩, false, true)

/-- Two lanes combined, and whether the residues disagree (R112). -/
def addLanes (u v : Lane) : Lane × Bool :=
  if u.code = 7 ∨ v.code = 7 then (⟨0#40, 7⟩, false)
  else
    let w := u.val + v.val
    let code := (u.code + v.code) % 7
    (⟨w, code⟩, decide ((w.toInt % 7).toNat ≠ code))

/-- Whether a lane's code is its value's residue (R112). -/
def laneOk (l : Lane) : Bool := l.code = 7 || (l.val.toInt % 7).toNat = l.code

/-- The final conversion of a result lane with exponent E and divisor d (R131). -/
def convertLane (code : Nat) (l : Lane) (ex : Int) (d : Nat) : Nat :=
  let f := fmtOf code
  if l.code = 7 then quietNan f
  else
    let v := l.val.toInt
    if v = 0 ∨ ex = -32768 ∨ d = 0 then 0
    else roundQ f (decide (v < 0)) v.natAbs d (ex - 22)

end Sys2Proof.Machine
end

