-- ==== Sys2Proof/Machine/Trees.lean ====
section
/-! DEFINITION. Combining trees: groups as boxes of job-relative coordinates, parents, children and heights (R102 to R104). -/

namespace Sys2Proof.Machine

open Sys2Proof

/-- A group: its origin and its extents na, nb, nc (R102). -/
structure Box where
  origin : Coord
  ext : Coord
  deriving DecidableEq, Repr

/-- Members of a group (R102). -/
def Box.size (g : Box) : Nat := g.ext.a * g.ext.b * g.ext.c

/-- The offsets of a chip from the group's origin, within the job's block (R102). -/
def offsetsIn (s : State) (g : Box) (c : Coord) : Coord :=
  let off := fun x x0 n => (x + n - x0 % max n 1) % max n 1
  ⟨off c.a g.origin.a (extA s), off c.b g.origin.b (extB s), off c.c g.origin.c (extC s)⟩

/-- Whether a chip lies in the group (R102). -/
def inBox (s : State) (g : Box) (c : Coord) : Bool :=
  let o := offsetsIn s g c
  decide (o.a < g.ext.a) && decide (o.b < g.ext.b) && decide (o.c < g.ext.c)

/-- The member index x + na × (y + nc × z), with x along a, z along b, y along c (R102). -/
def memberIndex (g : Box) (o : Coord) : Nat := o.a + g.ext.a * (o.c + g.ext.c * o.b)

/-- The offsets of a member index. -/
def offsetsOf (g : Box) (i : Nat) : Coord :=
  ⟨i % max g.ext.a 1, i / max g.ext.a 1 / max g.ext.c 1, i / max g.ext.a 1 % max g.ext.c 1⟩

/-- The chip at some offsets of a group. -/
def chipAt (s : State) (g : Box) (o : Coord) : Coord :=
  ⟨(g.origin.a + o.a) % max (extA s) 1, (g.origin.b + o.b) % max (extB s) 1, (g.origin.c + o.c) % max (extC s) 1⟩

/-- One step toward `q`, never wrapping (R104). -/
def stepTo (p q : Nat) : Nat := if p < q then p + 1 else p - 1

/-- The parent of the member at offsets `o` in the tree rooted at offsets `r`: path 0 visits the axes a, c, b; path 1 b, c, a (R104). -/
def parentOf (path1 : Bool) (o r : Coord) : Option Coord :=
  if path1 then
    if o.b ≠ r.b then some { o with b := stepTo o.b r.b }
    else if o.c ≠ r.c then some { o with c := stepTo o.c r.c }
    else if o.a ≠ r.a then some { o with a := stepTo o.a r.a }
    else none
  else
    if o.a ≠ r.a then some { o with a := stepTo o.a r.a }
    else if o.c ≠ r.c then some { o with c := stepTo o.c r.c }
    else if o.b ≠ r.b then some { o with b := stepTo o.b r.b }
    else none

/-- The distance of two numbers. -/
def gap (p q : Nat) : Nat := if p < q then q - p else p - q

/-- A member's height (R104). -/
def heightOf (o r : Coord) : Nat := gap o.a r.a + gap o.b r.b + gap o.c r.c

/-- The offsets next to a member inside the group: at most six. -/
def neighbours (g : Box) (o : Coord) : List Coord :=
  (if o.a = 0 then [] else [{ o with a := o.a - 1 }]) ++ (if o.a + 1 < g.ext.a then [{ o with a := o.a + 1 }] else []) ++
  (if o.b = 0 then [] else [{ o with b := o.b - 1 }]) ++ (if o.b + 1 < g.ext.b then [{ o with b := o.b + 1 }] else []) ++
  (if o.c = 0 then [] else [{ o with c := o.c - 1 }]) ++ (if o.c + 1 < g.ext.c then [{ o with c := o.c + 1 }] else [])

/-- The children of a member: the neighbours whose parent it is (R104). -/
def childrenOf (g : Box) (path1 : Bool) (o r : Coord) : List Coord := (neighbours g o).filter fun c => parentOf path1 c r = some o

/-- The whole job as a group (R202, R338). -/
def jobBox (s : State) : Box := ⟨⟨0, 0, 0⟩, ⟨extA s, extB s, extC s⟩⟩

/-- Root offsets of the agreement tree (R202). -/
def agreeRoot (s : State) : Coord := ⟨extA s / 2, extB s / 2, extC s / 2⟩

/-- Members in the subtree of a member, itself included, down to `fuel` hops (R204). -/
def subtree (g : Box) (path1 : Bool) (r : Coord) : Nat → Coord → List Coord
  | 0, o => [o]
  | fuel + 1, o => o :: (childrenOf g path1 o r).flatMap (subtree g path1 r fuel)

/-- The longest path of a group's trees. -/
def treeDepth (g : Box) : Nat := g.ext.a + g.ext.b + g.ext.c

end Sys2Proof.Machine
end

