-- ==== Sys2Proof/Machine/Plan.lean ====
section
/-! DEFINITION. Turn plans: decoding the image (R75, R76, R105, R144, R145), the time need (R87), the audit (R84, R106, R146, R173,
R453) and the chunk order (R189). -/

namespace Sys2Proof.Machine

open Sys2Proof

/-! ### Turn kinds (R77) -/

/-- Floor rate for the work of a kind, per second; 0 where the kind has no work (R77). -/
def floorRate (heritage : Bool) (kind : Nat) : Nat :=
  if kind = Kind.scale ∨ kind = Kind.reduce then 2400000000000
  else if kind = Kind.update then (if heritage then 500000000000 else 4000000000000)
  else if kind = Kind.delta then 12000000000000
  else if kind = Kind.pond then 24000000000000
  else 0

/-- Whether a kind claims the HBM share (R44, R77). -/
def claimsHbm (kind : Nat) : Bool := kind = Kind.update || kind = Kind.delta || kind = Kind.pond

/-- Whether two kinds may overlap at one chip (R77). -/
def mayOverlap (a b : Nat) : Bool :=
  let pair := fun x y => (a = x && b = y) || (a = y && b = x)
  pair Kind.mirror Kind.scale || pair Kind.mirror Kind.reduce || pair Kind.scale Kind.scale || pair Kind.scale Kind.reduce ||
    pair Kind.reduce Kind.reduce || pair Kind.update Kind.delta

/-! ### Decoding -/

/-- A turn entry at a byte offset of the image (R76). -/
def turnAt (img : Bytes) (o : Nat) : TurnEntry :=
  let b := slice o 64 img
  let f := field 0 8 b
  { offset := bits 47 0 f, kind := bits 55 48 f, commitAnchored := bit 56 f, duration := field 8 4 b, period := field 12 2 b,
    phase := field 14 2 b, work := field 16 8 b, memBytes := field 24 8 b, memRate := field 32 4 b, portMask := bits 5 0 (field 36 1 b),
    portRate := field 38 2 b, portBytes := field 40 8 b, energy := field 48 4 b, first := field 52 2 b, count := field 54 2 b,
    flags := bits 1 0 (field 56 2 b), deadline := field 60 4 b }

/-- A collective entry (R105). -/
def collAt (img : Bytes) (o : Nat) : CollEntry :=
  let b := slice o 64 img
  let e := field 36 4 b
  { tensorId := bits 23 0 (field 0 4 b), elems := field 4 8 b, inType := field 12 1 b, outType := field 13 1 b, op := field 14 1 b,
    sampled := bit 0 (field 15 1 b), source := field 16 8 b, resultOff := field 24 8 b, origin := coordOf (field 32 4 b),
    ext := ⟨bits 5 0 e, bits 11 6 e, bits 16 12 e⟩, tree0 := field 40 2 b, tree1 := field 42 2 b, expIndex := field 44 4 b,
    rootOff := field 48 4 b }

/-- An operand descriptor (R145). -/
def operandAt (b : Bytes) : Operand :=
  { addr := field 0 8 b, fmt := field 8 1 b, write := bit 0 (field 9 1 b), lazy := bit 1 (field 9 1 b), decay := bits 3 0 (field 10 1 b) }

/-- A tensor entry (R145). -/
def tensorAt (img : Bytes) (o : Nat) : TensorEntry :=
  let b := slice o 128 img
  let f := field 4 4 b
  { id := bits 23 0 (field 0 4 b), program := bits 15 0 f, policy := bits 23 16 f, touchMode := bits 31 24 f, elems := field 8 8 b,
    gradOff := field 16 8 b, gradType := field 24 1 b, weightOp := field 25 1 b, opCount := field 26 1 b, rowLen := field 28 4 b,
    origin := field 32 4 b, touchMap := field 40 8 b, lastTouch := field 48 8 b,
    allOps := (List.range 6).map fun j => operandAt (slice (56 + 12 * j) 12 b) }

/-- The points of a curve (R144). -/
def curveOf (b : Bytes) : List (Nat × Nat) := (List.range 32).map fun i => (field (8 * i) 4 b, field (8 * i + 4) 4 b)

/-- A furrow program entry (R144). -/
def programAt (img : Bytes) (o : Nat) : Program :=
  let b := slice o 896 img
  let n := field 0 2 b
  { len := n, instrs := (List.range (min n 64)).map fun i => BitVec.ofNat 32 (field (64 + 4 * i) 4 b),
    consts := (List.range 16).map fun i => field (320 + 4 * i) 4 b, points0 := field 2 1 b, points1 := field 3 1 b,
    curve0 := (curveOf (slice 384 256 b)).take (field 2 1 b), curve1 := (curveOf (slice 640 256 b)).take (field 3 1 b) }

/-- The tables of an image: offset, entries, bytes an entry (R75). -/
def tablesOf (img : Bytes) : List (Nat × Nat × Nat) :=
  [(field 32 4 img, field 22 2 img, 64), (field 36 4 img, field 40 2 img, field 42 2 img), (field 44 4 img, field 48 4 img, 128),
   (field 52 4 img, field 56 2 img, 896)]

/-- The plan an image holds (R75). -/
def planOf (img : Bytes) : Plan :=
  let flags := field 59 1 img
  { id := field 16 4 img, tag := field 20 2 img, lead := field 24 4 img, routeBound := field 28 4 img, reportRing := field 58 1 img,
    tileFed := bit 0 flags, heritage := bit 1 flags, geom := bits 15 0 (field 60 4 img), cisternNeed := field 64 8 img,
    undoNeed := field 72 8 img, plotBytes := field 80 8 img, jobChips := field 88 4 img, inputHalf := field 92 4 img,
    gradSlot := field 96 8 img, length := field 8 4 img,
    turns := (List.range (field 22 2 img)).map fun i => turnAt img (field 32 4 img + 64 * i),
    colls := (List.range (field 40 2 img)).map fun i => collAt img (field 36 4 img + 64 * i),
    tensors := (List.range (field 48 4 img)).map fun i => tensorAt img (field 44 4 img + 128 * i),
    programs := (List.range (field 56 2 img)).map fun i => programAt img (field 52 4 img + 896 * i) }

/-! ### Geometry of a plan, the cistern layout (R28, R454) -/

/-- k of the plan's geometry word. -/
def Plan.k (p : Plan) : Nat := bits 7 0 p.geom
/-- G of the plan's geometry word. -/
def Plan.g (p : Plan) : Nat := bits 11 8 p.geom
/-- Mode of the plan's geometry word: 0 basin, 1 mirror, 2 replicated. -/
def Plan.mode (p : Plan) : Nat := bits 15 12 p.geom

/-- Bytes of the cistern scales (R28). -/
def scalesSize (p : Plan) : Nat := roundUp (2 * p.colls.length) 65536
/-- Offset of the gradient slot in the cistern (R28). -/
def gradBase (p : Plan) : Nat := 4 * p.inputHalf
/-- Offset of the cistern scales (R28). -/
def scalesBase (p : Plan) : Nat := 4 * p.inputHalf + p.gradSlot

/-- Sizes of the areas placed from the top of the cistern, in order: health, chunk order, relay, pond record, logical table (R454). -/
def topSizes (p : Plan) (plotChunks : Nat) : List Nat :=
  [roundUp (8 * p.tensors.length * 32) 65536, roundUp (16 * plotChunks) 65536, p.k / 4 * 2048 * p.g * 65536, 4 * 2 ^ 20, 256 * 1024]

/-- The cistern offset of area n from the top (R454). -/
def topArea (p : Plan) (plotChunks cisternSize n : Nat) : Nat := cisternSize - sumOf ((topSizes p plotChunks).take (n + 1))

/-- Cistern offset of the health area. -/
def healthArea (s : State) (p : Plan) : Nat := topArea p (plotChunks s) (regionSize s 3) 0
/-- Cistern offset of the chunk order area. -/
def orderArea (s : State) (p : Plan) : Nat := topArea p (plotChunks s) (regionSize s 3) 1
/-- Cistern offset of the relay area. -/
def relayArea (s : State) (p : Plan) : Nat := topArea p (plotChunks s) (regionSize s 3) 2
/-- Cistern offset of the pond record. -/
def pondRecArea (s : State) (p : Plan) : Nat := topArea p (plotChunks s) (regionSize s 3) 3
/-- Cistern offset of the logical table. -/
def logicalArea (s : State) (p : Plan) : Nat := topArea p (plotChunks s) (regionSize s 3) 4

/-- The least undo need in basin and mirror modes (R197). -/
def undoMin (p : Plan) : Nat := roundUp (2 * 2048 * 65536 + 32 * 10 ^ 12 * 4 * p.routeBound / 10 ^ 9) 65536

/-! ### Time need (R87) -/

/-- The lowest background cap in force over the 24 channels, GB/s (R403). -/
def lowestCap (s : State) : Nat := (minOf s.power.caps).getD 0

/-- Ports named by a mask. -/
def portsIn (mask : Nat) : Nat := (setBits 6 mask).length

/-- The DELTA entry paired with an UPDATE (R87). -/
def deltaOf (p : Plan) : Option TurnEntry := p.turns.find? fun t => t.kind = Kind.delta

/-- The least greater of two times, where none stands for unbounded. -/
def maxTime : Option Nat → Option Nat → Option Nat
  | some a, some b => some (max a b)
  | _, _ => none

/-- The flume term of R87. -/
def flumeTime (p : Plan) (t : TurnEntry) (m : Nat) : Option Nat :=
  let rate := floorRate p.heritage t.kind
  if rate = 0 ∨ t.work = 0 then some 0 else if m = 0 then none else some (ceilDiv (t.work * 10 ^ 9 * 4096) (rate * m))

/-- The memory term of R87, under a background cap. -/
def memTime (cap : Nat) (t : TurnEntry) : Option Nat :=
  let rate := if claimsHbm t.kind then t.memRate * 10 ^ 9 else min (t.memRate * 10 ^ 9) (24 * (cap * 10 ^ 9))
  if t.memBytes = 0 then some 0 else if rate = 0 then none else some (ceilDiv (t.memBytes * 10 ^ 9) rate)

/-- The port term of R87. -/
def portTime (t : TurnEntry) : Option Nat :=
  if t.portMask = 0 ∨ t.portBytes = 0 then some 0
  else if t.portRate = 0 then none else some (ceilDiv (t.portBytes * 10 ^ 9) (t.portRate * 10 ^ 9))

/-- The gate term of R87. -/
def gateTime (p : Plan) (t : TurnEntry) : Option Nat :=
  if t.kind = Kind.update ∧ p.mode ≠ 2 then
    match deltaOf p with
    | none => some 0
    | some d =>
      let push := d.portBytes * portsIn d.portMask
      if push ≤ p.undoNeed then some 0
      else if d.portRate = 0 ∨ d.portMask = 0 then none
      else some (ceilDiv ((push - p.undoNeed) * 10 ^ 9) (d.portRate * 10 ^ 9 * portsIn d.portMask))
  else some 0

/-- The time need of a turn at an admission margin in Q4.12 under a background cap in GB/s; none is UNBOUNDED (R87). -/
def needOf (p : Plan) (cap : Nat) (t : TurnEntry) (m : Nat) : Option Nat :=
  (maxTime (maxTime (flumeTime p t m) (memTime cap t)) (maxTime (portTime t) (gateTime p t))).map (· + 2 * p.routeBound + 10000)

/-! ### Audit: the time line of R453 -/

/-- A turn placed on the time line: from, until, entry. -/
abbrev Placed := Nat × Nat × TurnEntry

/-- The turns placed for a commit instant C (R453). -/
def placedAt (p : Plan) (c : Nat) : List Placed :=
  p.turns.flatMap fun t =>
    if t.commitAnchored then [(c + t.offset, c + t.offset + t.duration, t)]
    else
      let stop := if t.kind = Kind.commit then c else t.offset + t.duration
      [(t.offset, stop, t), (c + p.lead + t.offset, c + p.lead + t.offset + t.duration, t)]

/-- The turns in progress at an instant. -/
def inProgress (ps : List Placed) (at_ : Nat) : List TurnEntry := (ps.filter fun q => q.1 ≤ at_ ∧ at_ < q.2.1).map fun q => q.2.2

/-- The instants at which the turns in progress can first exceed a limit: every start. -/
def startsOf (ps : List Placed) : List Nat := ps.map fun q => q.1

/-- The COMMIT turn's window: the instants C that the audit tries lie in it. -/
def commitWindow (p : Plan) : Nat × Nat :=
  match p.turns.find? fun t => t.kind = Kind.commit ∧ !t.commitAnchored with
  | some t => (t.offset, t.offset + t.duration)
  | none => (0, 0)

/-- The commit instants at which the overlaps can change: where a bound that moves with C meets one that does not, each with its
neighbours, and the ends of the window. -/
def commitTrials (p : Plan) : List Nat :=
  let (lo, hi) := commitWindow p
  let fixed := (p.turns.filter fun t => !t.commitAnchored).flatMap fun t => [t.offset, t.offset + t.duration]
  let moving := 0 :: p.turns.flatMap fun t =>
    if t.commitAnchored then [t.offset, t.offset + t.duration] else [p.lead + t.offset, p.lead + t.offset + t.duration]
  let meets := fixed.flatMap fun f => moving.flatMap fun m => if m ≤ f then [f - m - 1, f - m, f - m + 1] else []
  (lo :: hi :: (lo + 1) :: (hi - 1) :: meets).filter fun c => lo ≤ c ∧ c ≤ hi

/-- Whether a property of the turns in progress holds at every instant for every commit instant (R453). -/
def alwaysDuring (p : Plan) (ok : List TurnEntry → Bool) : Bool :=
  (commitTrials p).all fun c =>
    let ps := placedAt p c
    (startsOf ps).all fun at_ => ok (inProgress ps at_)

/-- Whether every pair of a list is allowed to overlap. -/
def pairsOk : List TurnEntry → Bool
  | [] => true
  | t :: ts => ts.all (fun u => mayOverlap t.kind u.kind) && pairsOk ts

/-- The sum of energy ÷ duration as a fraction of µJ per ns. -/
def powerSum (ts : List TurnEntry) : Nat × Nat :=
  ts.foldl (fun acc t => (acc.1 * max t.duration 1 + t.energy * acc.2, acc.2 * max t.duration 1)) (0, 1)

/-- At most 95 W: 0.095 µJ per ns (check 0x0D). -/
def powerOk (ts : List TurnEntry) : Bool := (powerSum ts).1 * 1000 ≤ 95 * (powerSum ts).2

/-- Summed rate on one port. -/
def portSum (ts : List TurnEntry) (port : Nat) : Nat := sumOf (ts.map fun t => if bit port t.portMask then t.portRate else 0)

/-! ### Audit: tables -/

/-- Whether two ranges, each a start and a length, share a byte. -/
def rangesMeet (a b : Nat × Nat) : Bool := decide (0 < a.2) && decide (0 < b.2) && decide (a.1 < b.1 + b.2) && decide (b.1 < a.1 + a.2)

/-- Whether no two of a list of ranges share a byte. -/
def disjointAll : List (Nat × Nat) → Bool
  | [] => true
  | r :: rs => rs.all (fun q => !rangesMeet r q) && disjointAll rs

/-- Whether two things at different places of a list agree under a test. -/
def anyPair {α : Type} (bad : α → α → Bool) : List α → Bool
  | [] => false
  | x :: xs => xs.any (bad x) || anyPair bad xs

/-- Elements of a touch unit: 2,048 in block mode, the row length in row mode (R166). -/
def unitSize (t : TensorEntry) : Nat := if t.touchMode = 2 then t.rowLen else 2048
/-- Touch units of a tensor. -/
def unitCount (t : TensorEntry) : Nat := if t.touchMode = 0 then 0 else ceilDiv t.elems (max (unitSize t) 1)
/-- The operands that count (R145). -/
def TensorEntry.ops (t : TensorEntry) : List Operand := t.allOps.take t.opCount
/-- The start of a KB8 operand's exponent plane (R143). -/
def planeAddr (t : TensorEntry) (o : Operand) : Nat := roundUp (o.addr + t.elems) 65536
/-- The byte ranges of an operand's array (R143). -/
def operandRanges (t : TensorEntry) (o : Operand) : List (Nat × Nat) :=
  if o.fmt = 4 then [(o.addr, t.elems), (planeAddr t o, ceilDiv t.elems 32)] else [(o.addr, t.elems * fmtBytes o.fmt)]
/-- The range of the last-touch array (R166). -/
def touchArray (t : TensorEntry) : List (Nat × Nat) := if t.touchMode = 0 then [] else [(t.lastTouch, 4 * unitCount t)]
/-- Every array of a tensor in the plot. -/
def tensorArrays (t : TensorEntry) : List (Nat × Nat) := t.ops.flatMap (operandRanges t) ++ touchArray t
/-- The result range of a collective in the gradient slot. -/
def resultRange (c : CollEntry) : Nat × Nat := (c.resultOff, c.elems * fmtBytes c.outType)
/-- Members of a collective's group. -/
def CollEntry.box (c : CollEntry) : Box := ⟨c.origin, c.ext⟩

/-- The collectives a turn names, with their indices (R76). -/
def collsOfTurn (p : Plan) (t : TurnEntry) : List (Nat × CollEntry) := ((indexed 0 p.colls).drop t.first).take t.count
/-- The tensors a turn names, with their indices. -/
def tensorsOfTurn (p : Plan) (t : TurnEntry) : List (Nat × TensorEntry) := ((indexed 0 p.tensors).drop t.first).take t.count

/-- Whether a collective entry passes R106, but for the conditions on turns. -/
def collOk (s : State) (p : Plan) (c : CollEntry) : Bool :=
  match p.tensors.find? fun t => t.id = c.tensorId with
  | none => false
  | some t =>
    decide (1 ≤ c.elems) && decide (c.elems ≤ 51001958400) && decide (1 ≤ c.inType ∧ c.inType ≤ 3) && decide (1 ≤ c.outType ∧ c.outType ≤ 3) &&
    decide (c.op = 1 ∨ c.op = 2) && decide (fmtBytes t.gradType ≤ fmtBytes c.outType) &&
    ((List.range 5).all fun r => !rangesMeet (c.source, c.elems * fmtBytes c.inType) (regionBase s r, regionSize s r)) &&
    decide (c.resultOff + c.elems * fmtBytes c.outType ≤ p.gradSlot) &&
    decide (1 ≤ c.ext.a ∧ c.ext.a ≤ extA s ∧ 1 ≤ c.ext.b ∧ c.ext.b ≤ extB s ∧ 1 ≤ c.ext.c ∧ c.ext.c ≤ extC s) &&
    decide (c.origin.a < extA s ∧ c.origin.b < extB s ∧ c.origin.c < extC s) && decide (c.box.size ≤ 16384) &&
    inBox s c.box (here s) && decide (c.rootOff < c.box.size) && decide (c.tree0 ≠ 0) && decide (c.tree1 ≠ 0)

/-- Whether a SCALE turn runs in every step in which the REDUCE turn runs (R106). -/
def runsWith (sc rd : TurnEntry) : Bool := decide (rd.period % max sc.period 1 = 0) && decide (rd.phase % max sc.period 1 = sc.phase)

/-- The conditions of R106 on SCALE and REDUCE turns. -/
def scaleReduceOk (p : Plan) : Bool :=
  let ts := indexed 0 p.turns
  (p.turns.all fun t => t.kind ≠ Kind.scale ||
    !anyPair (fun (a b : Nat × CollEntry) => a.2.box ≠ b.2.box || a.2.expIndex = b.2.expIndex) (collsOfTurn p t)) &&
  ts.all fun it => it.2.kind ≠ Kind.reduce ||
    (collsOfTurn p it.2).all fun c => ts.any fun jt =>
      jt.2.kind = Kind.scale && !jt.2.commitAnchored && decide (jt.1 < it.1) && runsWith jt.2 it.2 &&
        decide (jt.2.first ≤ c.1 ∧ c.1 < jt.2.first + jt.2.count)

/-- Whether a tensor entry passes R146. -/
def tensorOk (s : State) (p : Plan) (t : TensorEntry) : Bool :=
  let inPlot := fun (r : Nat × Nat) => decide (plotBase s ≤ r.1 ∧ r.1 + r.2 ≤ plotBase s + regionSize s 0)
  decide (t.program < p.programs.length) && decide (1 ≤ t.elems ∧ t.elems ≤ 51001958400) && decide (t.policy ≤ 2) && decide (t.touchMode ≤ 2) &&
  (if t.touchMode = 2 then decide (1 ≤ t.rowLen ∧ t.rowLen ≤ 65536) else decide (t.rowLen = 0)) &&
  (p.colls.any fun c => c.tensorId = t.id) &&
  (p.colls.all fun c => c.tensorId ≠ t.id || (c.resultOff = t.gradOff && c.outType = t.gradType)) &&
  decide (1 ≤ t.opCount ∧ t.opCount ≤ 6) &&
  (t.weightOp = 0xFF || (match t.ops[t.weightOp]? with | some o => o.write | none => false)) &&
  (t.ops.all fun o => (o.fmt = 1 || o.fmt = 2 || o.fmt = 4) && decide (o.addr % 65536 = 0)) &&
  (t.ops.all fun o => (operandRanges t o).all inPlot) &&
  (t.ops.all fun o => !o.lazy || (decide (t.touchMode ≠ 0) && o.write)) &&
  (t.touchMode = 0 ||
    (decide (t.lastTouch % 65536 = 0) && (touchArray t).all inPlot &&
     decide (t.touchMap + ceilDiv (unitCount t) 8 ≤ p.gradSlot) &&
     p.colls.all fun c => !rangesMeet (t.touchMap, ceilDiv (unitCount t) 8) (resultRange c)))

/-- Fields of a furrow instruction (R149). -/
def insOp (w : Word) : Nat := (w.extractLsb' 26 6).toNat
/-- Destination. -/
def insD (w : Word) : Nat := (w.extractLsb' 22 4).toNat
/-- Operand a. -/
def insA (w : Word) : Nat := (w.extractLsb' 17 5).toNat
/-- Operand b. -/
def insB (w : Word) : Nat := (w.extractLsb' 12 5).toNat
/-- Operand c. -/
def insC (w : Word) : Nat := (w.extractLsb' 7 5).toNat
/-- The immediate. -/
def insImm (w : Word) : Nat := (w.extractLsb' 0 7).toNat

/-- How many of the operands a, b, c an opcode uses (R149). -/
def operandsUsed (op : Nat) : Nat :=
  if op = 0x00 ∨ op = 0x13 then 0
  else if op = 0x06 ∨ op = 0x07 ∨ op = 0x10 ∨ op = 0x11 then 3
  else if op = 0x02 ∨ op = 0x03 ∨ op = 0x04 ∨ op = 0x05 ∨ op = 0x0B ∨ op = 0x0C then 2
  else 1

/-- Whether steps of a curve rise strictly. -/
def rising : List (Nat × Nat) → Bool
  | a :: b :: rest => decide (a.1 < b.1) && rising (b :: rest)
  | _ => true

/-- Whether a program entry passes R146. -/
def programOk (g : Program) : Bool :=
  decide (1 ≤ g.len ∧ g.len ≤ 64) &&
  (g.instrs.all fun w => decide (insOp w ≤ 0x13) && (insOp w = 0 || !(decide (12 ≤ insD w ∧ insD w ≤ 14))) &&
    (insOp w ≠ 0x13 || insImm w / 16 = 0)) &&
  decide (g.points0 ≤ 32) && decide (g.points1 ≤ 32) && rising g.curve0 && rising g.curve1

/-- The further conditions of heritage mode (R173). -/
def heritageOk (p : Plan) : Bool :=
  let reads := fun (w : Word) => ([insA w, insB w, insC w].take (operandsUsed (insOp w))).any fun x => x = 13 || x = 14
  (p.tensors.all fun t => t.touchMode = 0 && t.ops.all fun o => o.fmt ≠ 4) &&
    p.programs.all fun g => g.instrs.all fun w => insOp w ≠ 0x13 && !reads w

/-- Whether the operand descriptors beyond the count are all zero, in the image (R146). -/
def sparesZero (img : Bytes) : Bool :=
  (List.range (field 48 4 img)).all fun i =>
    let b := slice (field 44 4 img + 128 * i) 128 img
    (b.drop (56 + 12 * field 26 1 b)).all (· = 0#8)

/-! ### Audit: the checks (R84) -/

/-- Check 0x01. -/
def audit01 (img : Bytes) (len : Nat) : Bool :=
  let p := planOf img
  decide (field 0 4 img = 0x4E4C504F ∧ field 4 2 img = 2 ∧ field 6 2 img = 128 ∧ p.length = len) &&
  decide (crc32c (putAt 12 (zeros 4) img) = field 12 4 img) && decide (p.id ≠ 0 ∧ 100000 ≤ p.lead ∧ p.lead ≤ 1000000000) &&
  decide (p.routeBound ≤ 100000 ∧ p.reportRing ≤ 15)

/-- Check 0x02. -/
def audit02 (img : Bytes) (len : Nat) : Bool :=
  decide (1 ≤ field 22 2 img ∧ field 22 2 img ≤ 1024) &&
  ((tablesOf img).all fun t => decide (128 ≤ t.1 ∧ t.1 + t.2.1 * t.2.2 ≤ len)) &&
  disjointAll ((tablesOf img).map fun t => (t.1, t.2.1 * t.2.2))

/-- Check 0x03. -/
def audit03 (p : Plan) : Bool :=
  p.turns.all fun t => decide (1 ≤ t.kind ∧ t.kind ≤ 9) &&
    (decide (t.work = 0) || !(t.kind = Kind.mirror || t.kind = Kind.gap || t.kind = Kind.check || t.kind = Kind.commit)) &&
    (!bit 0 t.flags || t.kind = Kind.gap) && (!bit 1 t.flags || t.kind = Kind.reduce) &&
    decide (t.period ≠ 0 ∧ t.phase < t.period ∧ 1000 ≤ t.duration)

/-- Ascending order of anchor, then offset; a paired UPDATE immediately before its DELTA (R76). -/
def orderedTurns : List TurnEntry → Bool
  | a :: b :: rest =>
    (if a.commitAnchored = b.commitAnchored then decide (a.offset ≤ b.offset) else b.commitAnchored) && orderedTurns (b :: rest)
  | _ => true

/-- Check 0x04. -/
def audit04 (p : Plan) : Bool :=
  let ts := indexed 0 p.turns
  orderedTurns p.turns && ts.all fun u => u.2.kind ≠ Kind.update || ts.all fun d =>
    d.2.kind ≠ Kind.delta || d.2.commitAnchored ≠ u.2.commitAnchored || d.2.offset ≠ u.2.offset || d.1 = u.1 + 1

/-- The start-anchored turns of a kind. -/
def startTurns (p : Plan) (k : Nat) : List TurnEntry := p.turns.filter fun t => t.kind = k ∧ !t.commitAnchored

/-- Check 0x05. -/
def audit05 (p : Plan) : Bool :=
  match startTurns p Kind.mirror, startTurns p Kind.check, startTurns p Kind.commit with
  | [m], [c], [k] =>
    decide (m.period = 1 ∧ c.period = 1 ∧ k.period = 1) && !(startTurns p Kind.reduce).isEmpty &&
    ((startTurns p Kind.reduce).all fun r => r.offset + r.duration ≤ c.offset) &&
    ((startTurns p Kind.update).all fun u => c.offset + c.duration ≤ u.offset && u.offset + u.duration ≤ k.offset)
  | _, _, _ => false

/-- Check 0x06. -/
def audit06 (p : Plan) : Bool :=
  let us := p.turns.filter fun t => t.kind = Kind.update
  let ds := p.turns.filter fun t => t.kind = Kind.delta
  if p.mode = 2 then us.length = 1 && ds.isEmpty
  else
    match us, ds with
    | [u], [d] => decide (u.offset = d.offset ∧ u.duration = d.duration ∧ u.period = 1 ∧ d.period = 1)
    | _, _ => false

/-- Check 0x07. -/
def audit07 (p : Plan) : Bool :=
  match p.turns.filter fun t => t.kind = Kind.gap ∧ bit 0 t.flags with
  | [g] => !g.commitAnchored && ((startTurns p Kind.reduce).all fun r => r.offset + r.duration ≤ g.offset) &&
      (startTurns p Kind.check).all fun c => g.offset + g.duration ≤ c.offset
  | _ => false

/-- Check 0x08. -/
def audit08 (p : Plan) : Bool :=
  p.turns.all fun t => !t.commitAnchored || ((t.kind = Kind.pond || t.kind = Kind.gap) && decide (t.offset + t.duration ≤ p.lead))

/-- Check 0x0B at one instant. -/
def memOk (cap : Nat) (ts : List TurnEntry) : Bool :=
  let sum := sumOf (ts.map fun t => t.memRate)
  if ts.any fun t => claimsHbm t.kind then sum ≤ 32000 else sum ≤ 24 * cap

/-- Check 0x0E (R28, R197, R454). -/
def audit0E (s : State) (p : Plan) : Bool :=
  decide (p.inputHalf % 65536 = 0 ∧ p.gradSlot % 65536 = 0 ∧ p.cisternNeed ≤ regionSize s 3) &&
  decide (4 * p.inputHalf + p.gradSlot + scalesSize p + sumOf (topSizes p (plotChunks s)) ≤ regionSize s 3) &&
  decide (p.undoNeed ≤ regionSize s 4) && (p.mode = 2 || undoMin p ≤ p.undoNeed) && decide (p.plotBytes = regionSize s 0)

/-- Check 0x0F. -/
def audit0F (s : State) (p : Plan) : Bool :=
  decide (p.geom = bits 15 0 (regNat s Reg.basinGeomF)) && geoSet s && decide (p.tag = tagOf s)

/-- Check 0x10 (R106, R146, R173). DESIGN CHOICE (assumption 92): no check bounds the counts of tensors and programs. -/
def audit10 (s : State) (img : Bytes) (p : Plan) : Bool :=
  (p.turns.all fun t =>
    if t.kind = Kind.scale ∨ t.kind = Kind.reduce then t.first + t.count ≤ p.colls.length
    else if t.kind = Kind.update then t.first + t.count ≤ p.tensors.length
    else true) &&
  decide (field 42 2 img = 64) && p.colls.all (collOk s p) &&
  !anyPair (fun a b => rangesMeet (resultRange a) (resultRange b)) p.colls && scaleReduceOk p &&
  !anyPair (fun (a b : TensorEntry) => a.id = b.id) p.tensors && p.tensors.all (tensorOk s p) && sparesZero img &&
  disjointAll (p.tensors.flatMap tensorArrays) && p.programs.all programOk &&
  (p.turns.all fun t => t.kind ≠ Kind.update || decide (t.work = sumOf ((tensorsOfTurn p t).map fun x => x.2.elems))) &&
  (!p.heritage || heritageOk p)

/-- The largest height in any tree of a group over a list of root offsets, on both paths alike: heights do not depend on the path. -/
def maxHeight (g : Box) (roots : List Nat) : Nat :=
  maxOf (roots.flatMap fun r => (List.range g.size).map fun i => heightOf (offsetsOf g i) (offsetsOf g r))

/-- Reaches of a collective (R103). -/
def reachCount (c : CollEntry) : Nat := ceilDiv c.elems 778240

/-- Whether a collective has a path 1 (R103, R132). -/
def CollEntry.dual (c : CollEntry) : Bool := c.sampled && decide (1 < c.box.size)

/-- Member indices that root a reach of a collective, on either path (R103). -/
def rootsOf (c : CollEntry) : List Nat :=
  let n := max c.box.size 1
  let path0 := (List.range (min (reachCount c) n)).map fun r => (r + c.rootOff) % n
  if c.dual then path0 ++ path0.map fun r => (r + n / 2) % n else path0

/-- The deadline of a SCALE or REDUCE turn as an offset from its start: 0 means its end (file 04, "Deadlines and exclusion"). -/
def deadlineOf (t : TurnEntry) : Nat := if t.deadline = 0 then t.duration else t.deadline

/-- The lanes of a SCALE turn's vector. -/
def scaleLanes (p : Plan) (t : TurnEntry) : Nat := maxOf ((collsOfTurn p t).map fun c => c.2.expIndex + 1)

/-- The largest height in any tree of a turn's collectives (R127). DEDUCED (assumption 89): a SCALE turn's trees are those of its own vector. -/
def turnHeight (p : Plan) (t : TurnEntry) : Nat :=
  if t.kind = Kind.scale then
    match collsOfTurn p t with
    | [] => 0
    | (_, c) :: _ =>
      let n := max c.box.size 1
      maxHeight c.box ((List.range (min (ceilDiv (scaleLanes p t) 2091008) n)).map fun r => (r + c.rootOff) % n)
  else maxOf ((collsOfTurn p t).map fun c => maxHeight c.2.box (rootsOf c.2))

/-- The largest height in any tree of a sampled collective that a REDUCE turn names (R127). -/
def retryHeight (p : Plan) : Nat :=
  maxOf (((p.turns.filter fun t => t.kind = Kind.reduce).flatMap (collsOfTurn p)).map fun c =>
    if c.2.dual then maxHeight c.2.box (rootsOf c.2) else 0)

/-- Check 0x11 (R127). -/
def audit11 (p : Plan) : Bool :=
  let hop := p.routeBound + 4000
  let check := ((startTurns p Kind.check).map fun t => t.offset).headD 0
  (p.turns.all fun t => t.deadline ≤ t.duration) &&
  ((p.turns.filter fun t => t.kind = Kind.scale ∨ t.kind = Kind.reduce).all fun t =>
    decide (turnHeight p t * hop ≤ deadlineOf t) &&
      (t.commitAnchored || decide (t.offset + deadlineOf t + 3 * p.routeBound ≤ check))) &&
  ((p.turns.filter fun t => t.kind = Kind.gap ∧ bit 0 t.flags).all fun g => 3 * p.routeBound + retryHeight p * hop ≤ g.duration)

/-- Check 0x12. -/
def audit12 (p : Plan) : Bool := !(p.tileFed || p.turns.any fun t => bit 1 t.flags) || decide (p.jobChips ≤ 1024)

/-- The code of the first check that fails, 0 when every check passes (R84). Checks 0x03 on look at tables that check 0x02 has placed. -/
def audit (s : State) (img : Bytes) (len : Nat) : Nat :=
  let p := planOf img
  let cap := lowestCap s
  if !audit01 img len then 0x01 else if !audit02 img len then 0x02 else if !audit03 p then 0x03 else if !audit04 p then 0x04
  else if !audit05 p then 0x05 else if !audit06 p then 0x06 else if !audit07 p then 0x07 else if !audit08 p then 0x08
  else if !alwaysDuring p pairsOk then 0x09
  else if !alwaysDuring p (fun ts => (List.range 6).all fun k => portSum ts k ≤ 672) then 0x0A
  else if !alwaysDuring p (memOk cap) then 0x0B
  else if !(p.turns.all fun t => match needOf p cap t 4096 with | some n => n ≤ t.duration | none => false) then 0x0C
  else if !((p.turns.all fun t => powerOk [t]) && alwaysDuring p powerOk) then 0x0D
  else if !audit0E s p then 0x0E else if !audit0F s p then 0x0F else if !audit10 s img p then 0x10
  else if !audit11 p then 0x11 else if !audit12 p then 0x12 else 0

/-- The code of the checks repeated after a commit, 0 when both pass (R85). -/
def reaudit (s : State) (p : Plan) : Nat := if !audit0E s p then 0x0E else if !audit0F s p then 0x0F else 0

/-! ### Reserved fields of a plan (R9) -/

/-- Reserved fields that are not zero in one furrow instruction (R149). DEDUCED (assumption 87): the imm of an instruction other than RND is
unused and counts as one. -/
def insReserved (w : Word) : Nat :=
  let used := operandsUsed (insOp w)
  b2n (insOp w = 0 && insD w ≠ 0) + b2n (used < 1 && insA w ≠ 0) + b2n (used < 2 && insB w ≠ 0) + b2n (used < 3 && insC w ≠ 0) +
    b2n (insOp w ≠ 0x13 && insImm w ≠ 0)

/-- Reserved fields that are not zero in the header. -/
def headerReserved (img : Bytes) : Nat :=
  b2n (field 59 1 img / 4 ≠ 0) + b2n (field 62 2 img ≠ 0) + b2n ((slice 104 24 img).any (· ≠ 0#8))

/-- Reserved fields that are not zero in the tables. -/
def tablesReserved (img : Bytes) : Nat :=
  sumOf ((List.range (field 22 2 img)).map fun i =>
    let b := slice (field 32 4 img + 64 * i) 64 img
    b2n (field 7 1 b / 2 ≠ 0) + b2n (field 36 1 b / 64 ≠ 0) + b2n (field 37 1 b ≠ 0) + b2n (field 56 2 b / 4 ≠ 0) + b2n (field 58 2 b ≠ 0)) +
  sumOf ((List.range (field 40 2 img)).map fun i =>
    let b := slice (field 36 4 img + 64 * i) 64 img
    b2n (field 3 1 b ≠ 0) + b2n (field 15 1 b / 2 ≠ 0) + b2n (field 32 4 b / 2 ^ 14 ≠ 0) + b2n (field 36 4 b / 2 ^ 17 ≠ 0) +
      b2n ((slice 52 12 b).any (· ≠ 0#8))) +
  sumOf ((List.range (field 48 4 img)).map fun i =>
    let b := slice (field 44 4 img + 128 * i) 128 img
    b2n (field 3 1 b ≠ 0) + b2n (field 27 1 b ≠ 0) + b2n (field 36 4 b ≠ 0) +
      sumOf ((List.range 6).map fun j =>
        b2n (field (65 + 12 * j) 1 b / 4 ≠ 0) + b2n (field (66 + 12 * j) 1 b / 16 ≠ 0) + b2n (field (67 + 12 * j) 1 b ≠ 0))) +
  sumOf ((List.range (field 56 2 img)).map fun i =>
    let b := slice (field 52 4 img + 896 * i) 896 img
    b2n ((slice 4 60 b).any (· ≠ 0#8)) + sumOf ((programAt img (field 52 4 img + 896 * i)).instrs.map insReserved))

/-- Non-zero reserved fields met in a plan image: those of the header, and those of the tables once check 0x02 has placed them (R9). -/
def planReserved (img : Bytes) (code : Nat) : Nat := headerReserved img + if code = 1 ∨ code = 2 then 0 else tablesReserved img

/-! ### The chunk order (R189) -/

/-- Insert in ascending order of (ordinal, chunk). -/
def insertRank (x : Nat × Nat) : List (Nat × Nat) → List (Nat × Nat)
  | [] => [x]
  | y :: ys => if x.1 < y.1 ∨ (x.1 = y.1 ∧ x.2 ≤ y.2) then x :: y :: ys else y :: insertRank x ys

/-- The chunks of a byte range of the plot, each with the ordinal of the last element in it; `per` elements share a byte, or an
element has `width` bytes; `unit` elements share an item. -/
def rankRange (s : State) (base e width unit : Nat) (r : Nat × Nat) : List (Nat × Nat) :=
  if r.2 = 0 then []
  else
    let first := (r.1 - plotBase s) / 65536
    let last := (r.1 + r.2 - 1 - plotBase s) / 65536
    (upFrom first (last + 1 - first)).map fun c =>
      let stop := min (r.1 + r.2) (plotBase s + (c + 1) * 65536) - r.1
      (base + min e (ceilDiv stop width * unit) - 1, c)

/-- The ranked chunks of a tensor whose elements begin at an ordinal. -/
def rankTensor (s : State) (base : Nat) (t : TensorEntry) : List (Nat × Nat) :=
  (t.ops.filter fun o => o.write).flatMap (fun o =>
    if o.fmt = 4 then rankRange s base t.elems 1 1 (o.addr, t.elems) ++ rankRange s base t.elems 1 32 (planeAddr t o, ceilDiv t.elems 32)
    else rankRange s base t.elems (fmtBytes o.fmt) 1 (o.addr, t.elems * fmtBytes o.fmt)) ++
  (touchArray t).flatMap (rankRange s base t.elems 4 (unitSize t))

/-- The ranked chunks of a run of tensors. -/
def rankTensors (s : State) : Nat → List TensorEntry → List (Nat × Nat)
  | _, [] => []
  | base, t :: ts => rankTensor s base t ++ rankTensors s (base + t.elems) ts

/-- The tensors of the UPDATE turn. -/
def updateTensors (p : Plan) : List (Nat × TensorEntry) :=
  match p.turns.find? fun t => t.kind = Kind.update with
  | some t => tensorsOfTurn p t
  | none => []

/-- The chunk at each position (R189): the chunks of a dense run by the ordinal of their last element, then the others. -/
def chunkOrder (s : State) (p : Plan) : List Nat :=
  let ranked := rankTensors s 0 ((updateTensors p).map fun x => x.2)
  let best := ranked.foldl (fun acc x => putKey x.2 (max x.1 (getKey x.2 0 acc)) acc) ([] : List (Nat × Nat))
  let front := (best.foldl (fun acc x => insertRank (x.2, x.1) acc) []).map fun x => x.2
  front ++ (List.range (plotChunks s)).filter fun c => !front.contains c

/-- The position of a chunk in an order. -/
def positionIn (order : List Nat) (c : Nat) : Nat := order.findIdx (· = c)

/-- The bytes of a chunk order table: P entries of 8 bytes, the chunk at position n and the position of chunk n (R189). -/
def orderTable (order : List Nat) : Bytes := (indexed 0 order).flatMap fun e => le 4 e.2 ++ le 4 (positionIn order e.1)

end Sys2Proof.Machine
end

