-- ==== Sys2Proof/Machine/Place.lean ====
section
/-! DEFINITION. Basins and banks: members, placement of parity (R20, R21, R178, R179), arrival bits (R180 to R183), pending masks
(R221), the undo window (R197) and what a chip supplies to a chain (R222). -/

namespace Sys2Proof.Machine

open Sys2Proof

/-! ### Members and placement -/

/-- Members of a basin; 1 outside basin mode. -/
def kOf (s : State) : Nat := max (geoK s) 1
/-- Parity chunks per stripe, n_p (R178, R179). -/
def nParity (s : State) : Nat := if mirrorMode s then 1 else geoK s / 4 + geoG s
/-- Local groups of a basin. -/
def groupsOf (s : State) : Nat := geoK s / 4
/-- Member index of a chip in its basin, which is its member position in its bank row (R20). -/
def memberOf (s : State) (c : Coord) : Nat := c.a % kOf s
/-- The chip at member m of a chip's basin. -/
def memberChip (s : State) (c : Coord) (m : Nat) : Coord := { c with a := c.a - memberOf s c + m }
/-- The chip at member position m of the bank of a chip's basin (R21). -/
def bankChip (s : State) (c : Coord) (m : Nat) : Coord := { memberChip s c m with b := (c.b + 1) % max (extB s) 1 }
/-- The row of the basin whose bank this chip belongs to. -/
def ownRow (s : State) : Nat := (partneredBy s).b
/-- Member m of the basin whose bank this chip belongs to (R21). -/
def ownerChip (s : State) (m : Nat) : Coord := memberChip s (partneredBy s) m
/-- Position and slot of parity j of stripe i (R178). -/
def place (s : State) (i j : Nat) : Nat × Nat :=
  let t := i * nParity s + j
  (t % kOf s, t / kOf s)
/-- Stripe and parity of a slot at this chip (R178). -/
def unplace (s : State) (slot : Nat) : Nat × Nat :=
  let t := slot * kOf s + memberOf s (here s)
  (t / max (nParity s) 1, t % max (nParity s) 1)
/-- The chip, in this chip's own bank, that holds parity j of stripe i. -/
def holderOf (s : State) (i j : Nat) : Coord := bankChip s (here s) (place s i j).1
/-- The chip, in this chip's row, that holds parity j of stripe i: for the basin whose bank this row is. -/
def rowHolder (s : State) (i j : Nat) : Coord := memberChip s (here s) (place s i j).1
/-- Whether a parity number is a local one. -/
def isLocal (s : State) (j : Nat) : Bool := decide (j < groupsOf s)
/-- The parity of stripe i that this chip holds, with its slot, if any. -/
def heldParity (s : State) (i : Nat) : Option (Nat × Nat) :=
  ((List.range (nParity s)).find? fun j => (place s i j).1 = memberOf s (here s)).map fun j => (j, (place s i j).2)

/-! ### Arrival bits -/

/-- The arrival byte of a slot (R180). -/
def arrivalOf (s : State) (slot : Nat) : Nat := getKey slot 0 s.basin.arrival
/-- Arrival bits of a slot in use: contributions to its parity (R180). -/
def contributions (s : State) (slot : Nat) : Nat :=
  if mirrorMode s then 1 else if isLocal s (unplace s slot).2 then 4 else groupsOf s
/-- An arrival byte whose in-use bits all carry a polarity. -/
def fullByte (n : Nat) (p : Bool) : Nat := if p then 2 ^ n - 1 else 0
/-- Whether a contribution's arrival bit equals the step polarity (R181). -/
def arrived (s : State) (slot c : Nat) : Bool := bit c (arrivalOf s slot) == polarity s
/-- An arrival byte put in place. -/
def putArrival (slot v : Nat) (s : State) : State :=
  { s with basin.arrival := (s.basin.arrival.filter fun e => e.1 ≠ slot) ++ (if v = 0 then [] else [(slot, v)]) }
/-- Set one contribution's bit to the current polarity (R183). -/
def setArrived (slot c : Nat) (s : State) : State :=
  if arrived s slot c then s else putArrival slot (arrivalOf s slot ^^^ 2 ^ c) s
/-- Set all in-use bits of a slot to the value that means the committed step, or the step in flight (R181, R182). -/
def setWhole (slot : Nat) (inFlight : Bool) (s : State) : State :=
  putArrival slot (fullByte (contributions s slot) (polarity s == inFlight)) s
/-- Whether a slot is absent (R239). -/
def isAbsent (s : State) (slot : Nat) : Bool := s.basin.absent.contains slot
/-- A slot becomes absent (R239). -/
def makeAbsent (slot : Nat) (s : State) : State :=
  if isAbsent s slot then s else { s with basin.absent := s.basin.absent ++ [slot] }
/-- A slot becomes present (R240). -/
def makePresent (slot : Nat) (s : State) : State := { s with basin.absent := s.basin.absent.filter (· ≠ slot) }
/-- The pending mask of a contribution (R221). -/
def pendingOf (s : State) (slot c : Nat) : BitVec 16 := getKey (slot, c) 0 s.basin.pending
/-- A page noted in a pending mask. -/
def notePending (slot c page : Nat) (s : State) : State :=
  { s with basin.pending := putKey (slot, c) (pendingOf s slot c ||| BitVec.ofNat 16 (2 ^ page)) s.basin.pending }
/-- The four pending masks a record carries for a slot (R224, R258). -/
def pendings (s : State) (slot : Nat) : List (BitVec 16) := (List.range 4).map (pendingOf s slot)

/-- BASIN_DEGRADED or BASIN_EXCEEDED for the basin whose bank this is (R239, R246, R400, R451). -/
def basinEvent (status cause : Nat) (s : State) : State :=
  flagEvent (if status = Code.basinDegraded then 1 else 2) (event 0x0D status cause (le 1 (ownRow s) ++ le 4 (absentSlots s)) s)

/-! ### The chunk order and the undo window -/

/-- The chunk order of the active plan; ascending where no plan is active. -/
def orderOf (s : State) : List Nat :=
  match s.plans.active with
  | some p => chunkOrder s p
  | none => List.range (plotChunks s)
/-- The position of a chunk. -/
def posOf (s : State) (i : Nat) : Nat := positionIn (orderOf s) i
/-- Undo slots of the declared window. -/
def undoSlots (s : State) : Nat := regionChunks s 4
/-- The lowest free undo slot, if any. -/
def freeUndo (s : State) : Option Nat := (List.range (undoSlots s)).find? fun n => !s.basin.undo.any fun e => e.slot = n
/-- The undo entry of a chunk, if any. -/
def undoOf (s : State) (i : Nat) : Option UndoEnt := s.basin.undo.find? fun e => e.stripe = i
/-- Address of a page of an undo slot. -/
def undoAddr (s : State) (slot page : Nat) : Nat := undoBase s + slot * 65536 + page * 4096
/-- Address of a page of a plot chunk. -/
def plotAddr (s : State) (i page : Nat) : Nat := plotBase s + i * 65536 + page * 4096
/-- Address of a page of a bank-share slot. -/
def bankAddr (s : State) (slot page : Nat) : Nat := bankBase s + slot * 65536 + page * 4096

/-- Pages named by a mask, ascending. -/
def pagesOf (m : BitVec 16) : List Nat := (List.range 16).filter fun n => m.toNat.testBit n
/-- The coefficient of member m in parity j: 1 or 0 for a local, α for a global (R176). -/
def weight (s : State) (m j : Nat) : Byte :=
  if isLocal s j then (if m / 4 = j then 1 else 0) else coef m (j - groupsOf s)

/-- An XOR of two readings, none where either failed. -/
def xorRead (a b : Option Bytes) : Option Bytes :=
  match a, b with
  | some x, some y => some (xorBytes x y)
  | _, _ => none

/-- Page n of chunk i at the step that a parity with this bit and mask records (R222). -/
def supply (i n : Nat) (b : Bool) (pm : BitVec 16) (s : State) : Option Bytes × State :=
  let (page, s) := readPage 0 (plotAddr s i n) {} s
  if b == polarity s || pm.toNat.testBit n then (page, s)
  else
    match undoOf s i with
    | some e =>
      if e.mask.toNat.testBit n then
        let (u, s) := readPage 4 (undoAddr s e.slot n) {} s
        (xorRead page u, s)
      else (page, s)
    | none => (page, s)

/-- The pages of a list that a reader makes, none when any fails. -/
def gather (read : Nat → State → Option Bytes × State) : List Nat → State → Option (List (Nat × Bytes)) × State
  | [], s => (some [], s)
  | n :: ns, s =>
    let (p, s) := read n s
    let (rest, s) := gather read ns s
    (match p, rest with
      | some x, some xs => some ((n, x) :: xs)
      | _, _ => none, s)

/-- Pages of one list weighted and added into those of another, page by page. -/
def addPages (w : Byte) (add acc : List (Nat × Bytes)) : List (Nat × Bytes) :=
  acc.map fun e => (e.1, xorBytes e.2 (gfScale w (getKey e.1 (zeros 4096) add)))

/-- Pages sent one STORE each to a slot of a buffer window (R223, R258). -/
def sendPages (dst : Coord) (window base : Nat) (ps : List (Nat × Bytes)) (s : State) : State :=
  ps.foldl (fun s e => sendStore dst window (base + e.1 * 4096) (.data e.2) s) s

end Sys2Proof.Machine
end

