-- ==== Sys2Proof/Machine/Repair.lean ====
section
/-! DEFINITION. Escalation of uncorrectable pages and the repair attempts (R257 to R265): which attempts a page has, their launch,
their success and their failure. -/

namespace Sys2Proof.Machine

open Sys2Proof

/-- The time a repair attempt has, in ns (R263). -/
def repairTime : Nat := 20000000

/-- The earliest instant at which the step in flight starts or started: as announced, and not before now where it has not been. -/
def stepStartsAt (s : State) : Nat :=
  match s.step.startAt with
  | some b => b
  | none => if s.step.announced then s.step.nextAt else s.ht

/-- The steps, from the one in flight on, until a turn next runs by its period and phase (R76). -/
def stepsUntil (s : State) (t : TurnEntry) : Nat :=
  (t.phase + max t.period 1 - stepNum s % max t.period 1) % max t.period 1

/-- The earliest planned start of the next UPDATE turn of the active plan, where it has one (R262): a later step starts no sooner than
the plan's length after the step before it. -/
def updateStartAt (s : State) : Option Nat :=
  match s.step.recoveryAt with
  | some y => some y
  | none =>
    match s.plans.active with
    | none => none
    | some p => (p.turns.find? fun t => t.kind = Kind.update).map fun t => stepStartsAt s + stepsUntil s t * p.length + t.offset

/-- Whether a repair's whole deadline fits in the quiet interval (R262). -/
def quietNow (s : State) : Bool :=
  !s.refill.frozen &&
    (!planActive s || (!s.step.updBegun && (match updateStartAt s with
      | some u => decide (s.ht + repairTime + 20000000 ≤ u)
      | none => true)))

/-- The flags that a page record carries for what a repair serves. -/
def finderOf : RepairFor → Finder
  | .scrub => { rider := true }
  | .update | .delta => { inUpdate := true }
  | .descriptor _ _ => { descriptor := true }
  | .pond | .escalation => {}

/-! ### Which attempts a page has -/

/-- Areas of the cistern (R28, R454): 0 own inputs, 1 mirrored inputs, 2 gradient slot, 3 scales, 4 health, 5 chunk order, 6 relay,
7 any other. -/
def cisternArea (s : State) (o : Nat) : Nat :=
  match s.plans.active with
  | none => 7
  | some p =>
    if o < 2 * p.inputHalf then 0 else if o < 4 * p.inputHalf then 1 else if o < scalesBase p then 2
    else if o < scalesBase p + scalesSize p then 3
    else if healthArea s p ≤ o then 4 else if orderArea s p ≤ o then 5 else if relayArea s p ≤ o then 6 else 7

/-- The collectives whose results or scales a cistern page holds. -/
def collsAt (s : State) (o : Nat) : List (Nat × CollEntry) :=
  match s.plans.active with
  | none => []
  | some p => (indexed 0 p.colls).filter fun c =>
      rangesMeet (o / 4096 * 4096, 4096) (gradBase p + (resultRange c.2).1, (resultRange c.2).2) ||
      rangesMeet (o / 4096 * 4096, 4096) (scalesBase p + 2 * c.1, 2)

/-- The member of a group with the lowest index that is not in a list (R232, R257). -/
def lowestOther (s : State) (g : Box) (except : List Coord) : Option Coord :=
  ((List.range g.size).map fun i => chipAt s g (offsetsOf g i)).find? fun c => !except.contains c

/-- The tensor whose arrays hold a plot address. -/
def tensorOn (s : State) (a : Nat) : Option TensorEntry :=
  match s.plans.active with
  | none => none
  | some p => p.tensors.find? fun t => (tensorArrays t).any fun r => rangesMeet (a / 4096 * 4096, 4096) r

/-- The chip that a push of a cistern or plot page is asked from (R257): the partner, the source chip, the gradient peer, or the
replica. -/
def pushFrom (s : State) (region a : Nat) : Option Coord :=
  if region = 0 then
    if mirrorMode s then some (partnerOf s (here s))
    else
      match s.plans.active, tensorOn s a with
      | some p, some t =>
        match p.colls.find? fun c => c.tensorId = t.id with
        | some c => lowestOther s c.box [here s]
        | none => none
      | _, _ => none
  else if region = 1 then some (partneredBy s)
  else
    match cisternArea s (a - cisternBase s) with
    | 0 => some (partnerOf s (here s))
    | 1 => some (partneredBy s)
    | 2 | 3 => (collsAt s (a - cisternBase s)).findSome? fun c => lowestOther s c.2.box [here s]
    | _ => none

/-- The target code, the stripe and the attempts of a page, each a kind and an equation: 1 local chain, 2 global chain, 3 chain of
the holder's own parity, 4 push (R257, R258). -/
def attemptsFor (s : State) (region a : Nat) : Nat × Nat × List (Nat × Nat) :=
  let chunk := (a - regionBase s region) / 65536
  if region = 0 then
    if basinMode s then (0, chunk, (1, 0) :: (List.range (geoG s)).map fun h => (2, h))
    else if (pushFrom s 0 a).isSome then ((if mirrorMode s then 0 else 5), chunk, [(4, 0)]) else (0, chunk, [])
  else if region = 1 then
    if basinMode s then
      let (i, j) := unplace s chunk
      (if isLocal s j then (1, i, [(3, j)]) else (2, i, [(3, j)]))
    else (5, chunk, [(4, 0)])
  else if region = 4 then
    match s.basin.undo.find? fun e => e.slot = chunk with
    | some e => (3, e.stripe, if basinMode s then [(1, 0)] else [])
    | none => (3, plotChunks s, [])
  else if region = 3 then (4, 0, if (pushFrom s 3 a).isSome then [(4, 0)] else [])
  else (0, chunk, [])

/-- Whether an attempt may start only in a quiet interval (R257, R262). -/
def needsQuiet (s : State) (region kind equation : Nat) : Bool :=
  kind = 2 || (kind = 3 && !isLocal s equation) || (kind = 4 && (region = 1 || (region = 0 && !mirrorMode s)))

/-- Whether an attempt has to wait: for a quiet interval, or, where it asks for a gradient or its scales, for the start of CHECK
(R257, R262). -/
def attemptWaits (s : State) (region a kind equation : Nat) : Bool :=
  (needsQuiet s region kind equation && !quietNow s) ||
    (kind = 4 && region = 3 &&
      (match cisternArea s (a - cisternBase s) with
        | 2 | 3 => !(s.red.checkStarted || s.step.updBegun)
        | _ => false))

/-- Whether a repair is background class 1: nothing that proceeds at once waits on it (R264, R361). -/
def isBackground (s : State) (w : RepairFor) : Bool :=
  !s.refill.frozen &&
    (match w with
      | .scrub | .escalation => true
      | .update | .delta | .pond | .descriptor _ _ => false)

/-! ### Launch -/

/-- A repair record. -/
def repairRec (tag kind target stripe page : Nat) (requester : Coord) : RepairRec :=
  { tag := tag, kind := kind, target := target, stripe := stripe, mask := BitVec.ofNat 16 (2 ^ page), arrival := 0, hop := 0,
    requester := requester, equation := 0, pending := List.replicate 4 0, offset := 0 }

/-- A repair record sent to window 51 (R258). -/
def sendRepair (dst : Coord) (r : RepairRec) (s : State) : State := sendStore dst 51 0 (.repair r) s

/-- The members a chain passes, in order (R259, R261). -/
def chainMembers (s : State) (kind target requesterMember parity : Nat) : List Nat :=
  let all := List.range (kOf s)
  if target = 1 then all.filter fun m => m / 4 = parity
  else if target = 2 then all
  else if kind = 1 then all.filter fun m => m / 4 = requesterMember / 4 ∧ m ≠ requesterMember
  else all.filter fun m => m ≠ requesterMember

/-- The address of a page of a stripe in a region, for the pages this chip repairs for itself. -/
def Attempt.slot (s : State) (a : Attempt) : Nat := (a.addr - regionBase s a.region) / 65536

/-- The packets with which an attempt begins. -/
def launchPackets (a : Attempt) (s : State) : State :=
  let me := here s
  if a.kind = 1 then
    sendRepair (holderOf s a.stripe (memberOf s me / 4)) (repairRec a.tag 0 a.target a.stripe a.page me) s
  else if a.kind = 2 then
    sendRepair (holderOf s a.stripe (groupsOf s + a.equation))
      { repairRec a.tag 0 a.target a.stripe a.page me with equation := a.equation } s
  else if a.kind = 3 then
    let slot := a.slot s
    let s := { s with
      guard.overlays := s.guard.overlays ++ [(slot, a.page, zeros 4096)],
      guard.holds := s.guard.holds ++ [⟨a.tag, me, a.stripe, a.deadline⟩] }
    let first := (chainMembers s (if isLocal s a.equation then 1 else 2) a.target 0 a.equation).headD 0
    let dst := ownerChip s first
    let s := sendPages dst 50 (a.tag % 64 * 65536) [(a.page, zeros 4096)] s
    sendRepair dst { repairRec a.tag (if isLocal s a.equation then 1 else 2) a.target a.stripe a.page me with
      arrival := arrivalOf s slot, pending := pendings s slot, equation := a.equation - groupsOf s } s
  else
    match pushFrom s a.region a.addr with
    | none => s
    | some c =>
      sendRepair c { repairRec a.tag 4 a.target a.stripe a.page me with
        offset := if a.target = 4 then a.addr - cisternBase s else 0 } s

/-- A fresh repair tag, never zero (R258, R263). -/
def takeTag (s : State) : State := { s with guard.nextTag := if s.guard.nextTag = 65535 then 1 else s.guard.nextTag + 1 }

/-- What waits on a descriptor's range told of an outcome (R266). -/
def noteRange (w : RepairFor) (f : RangeWait → RangeWait) (s : State) : State :=
  match w with
  | .descriptor q i => { s with guard.ranges := s.guard.ranges.map fun r => if r.ring = q ∧ r.idx = i then f r else r }
  | _ => s

/-- Results that lay in a lost page of the gradient slot count as missing, and a step whose CHECK has passed and whose UPDATE has not begun
fails with them (R126, R257). -/
def dropResults (o : Nat) (s : State) : State :=
  let cs := (collsAt s o).map fun c => c.1
  { s with red.results := s.red.results.filter fun r => r.scale || !cs.contains r.coll,
           step.check := if s.step.check = 1 && !s.step.updBegun && !cs.isEmpty then 2 else s.step.check }

/-- Whether a page reads, its errors within the decoder's reach. -/
def pageReads (s : State) (r a : Nat) : Bool :=
  !s.guard.damaged.contains a && (match decodePage s r a with
    | .good _ _ => true
    | .uncorrectable => false)

/-- What an escalation had in hand fails with it: the UPDATE, or the pond's copy (R257). -/
def markFailed (w : RepairFor) (s : State) : State :=
  if w = .update then { s with upd.failed := true }
  else if w = .pond then { s with pond.copy := s.pond.copy.map fun c => { c with failed := true } }
  else s

/-- What a lost page of the cistern comes to: a scratch page of zeros, a relay lost, results missing (R257). -/
def cisternLost (a : Nat) (s : State) : State :=
  let area := cisternArea s (a - cisternBase s)
  if area = 4 then storeRepaired 3 a (zeros 4096) s
  else if area = 6 then { s with basin.relayLost := true }
  else if area = 2 ∨ area = 3 then dropResults (a - cisternBase s) s
  else s

/-- A slot of the basin is absent, the basin is reported degraded and a rebuild is due after the next commit (R239, R246, R257). -/
def bankLost (slot : Nat) (s : State) : State :=
  basinEvent Code.basinDegraded 0 { makeAbsent slot s with refill.rebuildDue := true }

/-- What hangs on a lost page of a region: the slot, the stripe's globals, the cistern's content; what waited for its repair is given up
(R253, R257). -/
def lostEffect (region a stripe : Nat) (s : State) : State :=
  dropMerges a (if region = 1 then bankLost ((a - bankBase s) / 65536) s
    else if region = 4 then { s with basin.undoLost := if stripe < plotChunks s then unionIdx s.basin.undoLost [stripe] else s.basin.undoLost }
    else if region = 3 then cisternLost a s
    else s)

/-- What a lost page comes to in its region (R257, R264). -/
def pageLost (region a stripe : Nat) (w : RepairFor) (s : State) : State :=
  lostEffect region a stripe (if region = 1 then s else reportUnrecoverable region a (finderOf w) s)

/-- The outcome of a page whose every attempt failed (R257, R264). A page that reads, on which only a REPAIR_RANGE ran the escalation, keeps
its content (R266). -/
def escalationFailed (region a stripe : Nat) (w : RepairFor) (s : State) : State :=
  let s := noteRange w (fun r => { r with failed := r.failed + 1 }) s
  let asked := match w with
    | .descriptor _ _ => pageReads s region a
    | _ => false
  if asked then s else pageLost region a stripe w (markFailed w s)

/-- A read of a listed page fails at once: what needed it fails with it, and no attempt is made (R265). -/
def listedFails (region a stripe : Nat) (w : RepairFor) (s : State) : State :=
  lostEffect region a stripe (markFailed w (noteRange w (fun r => { r with failed := r.failed + 1 }) s))

/-- The attempts of a row tried in turn: the first is launched or, where it must wait or belongs to background class 1, kept; an update
does not wait for a quiet interval (R264). -/
def tryAttempts (region a target stripe : Nat) (w : RepairFor) : List (Nat × Nat) → State → State
  | [], s => escalationFailed region a stripe w s
  | (k, e) :: rest, s =>
    let waits := attemptWaits s region a k e
    if waits && (w = .update || w = .delta) then tryAttempts region a target stripe w rest s
    else
      let later := waits || isBackground s w
      let tag := s.guard.nextTag
      let at_ : Attempt := ⟨tag, region, a, target, stripe, (a - regionBase s region) / 4096 % 16, k, e, rest, s.ht + repairTime, w, later⟩
      let s := { takeTag s with guard.attempts := s.guard.attempts ++ [at_] }
      if later then s else launchPackets at_ s

/-- A cistern page of the chunk order tables rebuilt from the plan (R189, R257). -/
def rebuildOrder (a : Nat) (w : RepairFor) (s : State) : State :=
  match s.plans.active with
  | none => s
  | some p =>
    let base := cisternBase s + orderArea s p
    let size := 8 * plotChunks s
    let tab := fun (n : Nat) => match (if n = s.plans.activeTab then some p else s.plans.standby) with
      | some q => orderTable (chunkOrder s q)
      | none => zeros size
    let page := slice (a - base) 4096 (tab 0 ++ tab 1)
    count Reg.pgRepaired 1 (noteRange w (fun r => { r with repaired := r.repaired + 1 }) (storeRepaired 3 a page s))

/-- Whether a descriptor is a REPAIR_RANGE, which repairs whether or not the page decodes and whatever is listed (R265, R266). -/
def isRepairRange (s : State) (w : RepairFor) : Bool :=
  match w with
  | .descriptor q i => (runningAt s q i).any fun d => d.op = Op.repairRange
  | _ => false

/-- Whether a listed page is tried again for this finder: for the ditch rider and for a REPAIR_RANGE; an UPDATE reports it anew (R264, R265). -/
def triesListed (s : State) (w : RepairFor) : Bool := w = .scrub || isRepairRange s w

/-- Escalation of an uncorrectable page (R257): its first attempt is launched. A listed page fails at once but for the ditch rider and
REPAIR_RANGE (R265); a repair already under way also serves a finder that does not wait for it. -/
def escalate (region addr : Nat) (w : RepairFor) (s : State) : State :=
  let a := addr / 4096 * 4096
  if region = 3 ∧ cisternArea s (a - cisternBase s) = 5 then rebuildOrder a w s
  else if (w = .scrub || w = .escalation || w = .delta) && s.guard.attempts.any (fun x => x.region = region && x.addr = a) then s
  else
    let row := attemptsFor s region a
    if s.guard.damaged.contains a && !triesListed s w then
      (if w = .update then escalationFailed region a row.2.1 w s else listedFails region a row.2.1 w s)
    else tryAttempts region a row.1 row.2.1 w row.2.2 s

/-- Escalation of each page of a list. -/
def escalateAll (region : Nat) (bad : List Nat) (w : RepairFor) (s : State) : State := bad.foldl (fun s a => escalate region a w s) s

/-- Escalation of those pages of a list that do not read: a reader that needed them all could not go on. -/
def escalateUnread (region : Nat) (pages : List Nat) (w : RepairFor) (s : State) : State :=
  escalateAll region (pages.filter fun a => !pageReads s region a) w s

/-- A kept attempt begun (R263). -/
def launchAttempt (a : Attempt) (s : State) : State :=
  let b := { a with deferred := false, deadline := s.ht + repairTime }
  launchPackets b { s with guard.attempts := s.guard.attempts.map fun x => if x.tag = a.tag then b else x }

/-- Kept attempts that may begin now, of background class 1 or of those that proceed at once (R257, R262, R264). -/
def dueAttempts (s : State) (background : Bool) : List Attempt :=
  s.guard.attempts.filter fun a =>
    a.deferred && (isBackground s a.forWhom == background) && !attemptWaits s a.region a.addr a.kind a.equation

/-- Attempts that waited and that no background class holds back begin once they may (R257, R262, R264). -/
def startDeferred (s : State) : State := (dueAttempts s false).foldl (fun s a => launchAttempt a s) s

/-- Background class 1: kept repairs begun, one for a granted chunk, on channels with room; what is left of `n` (R97, R264). -/
def repairWork (n : Nat) (s : State) : Nat × State :=
  let due := ((dueAttempts s true).filter fun a => channelRoom s a.addr).take n
  (n - due.length, due.foldl (fun s a => charge (traffic s) (launchAttempt a s)) s)

/-! ### Ends of an attempt -/

/-- The overlay and the hold of an own chain given up, and the attempt removed. -/
def dropAttempt (a : Attempt) (s : State) : State :=
  { s with
    guard.attempts := s.guard.attempts.filter fun b => b.tag ≠ a.tag,
    guard.overlays := if a.kind = 3 then s.guard.overlays.filter fun o => !(o.1 = a.slot s ∧ o.2.1 = a.page) else s.guard.overlays,
    guard.holds := if a.kind = 3 then s.guard.holds.filter fun h => !(h.tag = a.tag ∧ h.requester = here s) else s.guard.holds }

/-- An attempt fails: the next of its row is tried (R257, R263). -/
def attemptFailed (a : Attempt) (s : State) : State :=
  tryAttempts a.region a.addr a.target a.stripe a.forWhom a.rest (dropAttempt a s)

/-- A page repaired: written whole, counted and reported (R257); a REPAIR_RANGE write withdraws the live offer (R301). Every repair of the
page ends with it, and one whose page has been written whole meanwhile writes nothing (assumption 77). -/
def attemptDone (a : Attempt) (page : Bytes) (s : State) : State :=
  let same := s.guard.attempts.filter fun x => x.region = a.region && x.addr = a.addr
  let asked := same.any fun x => isRepairRange s x.forWhom
  let stale := !asked && pageReads s a.region a.addr
  let s := same.foldl (fun s x => noteRange x.forWhom (fun r => { r with repaired := r.repaired + 1 }) (dropAttempt x s)) s
  if stale then s
  else
    let s := if asked && a.region = 0 then withdrawOffer [(a.addr - plotBase s) / 65536] s else s
    reportRepaired a.region a.addr (finderOf a.forWhom) (storeRepaired a.region a.addr page s)

/-- The attempt of a tag, if one is in progress. -/
def attemptOf (s : State) (tag : Nat) : Option Attempt := s.guard.attempts.find? fun a => a.tag = tag && !a.deferred

/-- Whether acknowledgements for a stripe are held back (R260). -/
def stripeHeld (s : State) (i : Nat) : Bool := s.guard.holds.any fun h => h.stripe = i && decide (s.ht < h.deadline)

/-- The completion of a SCRUB_RANGE or REPAIR_RANGE (R266, R379). -/
def rangeResult (op : Nat) (r : RangeWait) : Result :=
  { status :=
      if op = Op.scrubRange then
        (if 0 < r.failed then Code.pageUnrecoverable else if 0 < r.repaired then Code.pageRepaired
          else if 0 < r.corrected then Code.pageCorrected else Code.ok)
      else (if r.failed = 0 then Code.pageRepaired else if r.repaired = 0 then Code.pageUnrecoverable else Code.okPartial),
    word := sat32 r.corrected, quad := sat32 r.repaired + 2 ^ 32 * sat32 r.failed }

/-- Ranges on which no attempt is left complete (R266). -/
def finishRanges (s : State) : State :=
  let busy := fun (r : RangeWait) => s.guard.attempts.any fun a => a.forWhom = .descriptor r.ring r.idx
  let done := s.guard.ranges.filter fun r => !busy r
  let s := { s with guard.ranges := s.guard.ranges.filter busy }
  done.foldl (fun s r =>
    match runningAt s r.ring r.idx with
    | some d => complete r.ring d (rangeResult d.op r) s
    | none => s) s

/-! ### The repair buffer -/

/-- Pages of a buffer slot that a mask names; none when one is missing. -/
def bufferPages (s : State) (tag : Nat) (mask : BitVec 16) : Option (List (Nat × Bytes)) :=
  (pagesOf mask).foldr (fun n acc =>
    match acc, s.guard.buffer.find? fun e => e.1 = tag % 64 ∧ e.2.1 = n with
    | some xs, some e => some ((n, e.2.2) :: xs)
    | _, _ => none) (some [])

/-- A buffer slot emptied of the pages a mask names. -/
def clearBuffer (tag : Nat) (s : State) : State :=
  { s with guard.buffer := s.guard.buffer.filter fun e => e.1 ≠ tag % 64 }

end Sys2Proof.Machine
end

