-- ==== Sys2Proof/Machine/Basin.lean ====
section
/-! DEFINITION. The basin code in motion: what a member sends, what a holder and a relay do with it, acknowledgements and relay
limits (R183 to R200). -/

namespace Sys2Proof.Machine

open Sys2Proof

/-! ### Member role (R190, R193) -/

/-- Whether relay limits apply (R193). -/
def hasLimits (s : State) : Bool := basinMode s && decide (0 < geoG s)

/-- The relay limit of the bank chip at a position; 2,048 until one has arrived (R193). -/
def limitOf (s : State) (h : Nat) : Nat := getKey h 2048 s.basin.limits

/-- Bank chips of this chip's bank, by position. -/
def bankPositions (s : State) : List Nat := List.range (kOf s)

/-- A marker to window 59 (R186). -/
def sendMarker (dst : Coord) (kind role : Nat) (mask : BitVec 16) (chunk position : Nat) (s : State) : State :=
  send (.chip dst) 6 59 0 0 (.marker ⟨stepNum s, kind, role, mask, chunk, position⟩) s

/-- A delta or combined page to window 57 (R185). -/
def sendAccum (dst : Coord) (slot page : Nat) (bs : Bytes) (s : State) : State :=
  send (.chip dst) 2 57 (slot * 65536 + page * 4096) (stepNum s % 256) (.data bs) s

/-- The next unfinished position of this chip's update (R190). -/
def nextPos (s : State) : Nat := if s.step.updDone then plotChunks s else s.upd.pos

/-- The entries queued for a bank chip, in order. -/
def queueFor (s : State) (h : Nat) : List QueueEnt := s.basin.queue.filter fun e => e.dest = h

/-- The pages of an undo entry and its CHUNK marker sent to a bank chip (R190). -/
def issueDelta (h : Nat) (e : QueueEnt) (ps : List (Nat × Bytes)) (s : State) : State :=
  let dst := bankChip s (here s) h
  let s := ps.foldl (fun s x => sendAccum dst e.slot x.1 x.2 s) s
  let s := sendMarker dst 0 0 (e.mask ||| e.extra) e.chunk e.pos s
  count Reg.bcDeltas 1 { s with basin.undo := s.basin.undo.map fun u => if u.slot = e.undo then { u with issued := true } else u }

/-- An undo entry sent to the bank chip at a position (R190); not where a page cannot be read, which is escalated once (R257). -/
def sendDelta (h : Nat) (e : QueueEnt) (s : State) : Bool × State :=
  let r := gather (fun n => readPage 4 (undoAddr s e.undo n) {}) (pagesOf e.mask) s
  match r.1 with
  | some ps => (true, issueDelta h e ps r.2)
  | none =>
    (false, if s.basin.undoLost.contains e.chunk then r.2
      else escalateUnread 4 ((pagesOf e.mask).map fun n => undoAddr s e.undo n) .delta r.2)

/-- The queue for one bank chip sent as far as its limit allows (R190, R193). -/
def drainQueue (h : Nat) : Nat → State → State
  | 0, s => s
  | n + 1, s =>
    match queueFor s h with
    | [] => s
    | e :: _ =>
      if !hasLimits s || e.pos < limitOf s h then
        let r := sendDelta h e s
        if r.1 then drainQueue h n { r.2 with basin.queue := r.2.basin.queue.filter fun x => x ≠ e } else r.2
      else if e.waited then s
      else count Reg.bcLimitWaits 1
        { s with basin.queue := s.basin.queue.map fun x => if x = e then { x with waited := true } else x }

/-- Progress toward a bank chip (R190). -/
def progressTo (s : State) (h : Nat) : Nat :=
  match queueFor s h with
  | [] => nextPos s
  | e :: _ => min (nextPos s) e.pos

/-- The PROGRESS marker to a bank chip, when one is due; `timer` when 10 µs have passed (R190). DESIGN CHOICE (assumption 94): before the step's
first PROGRESS the 10 µs have passed. -/
def sendProgress (h : Nat) (timer : Bool) (s : State) : State :=
  let prog := progressTo s h
  let last := getKey h (0, 0) s.basin.progSent
  if last.1 + 256 ≤ prog ∨ (last.1 < prog ∧ (timer ∨ last.2 + 10000 ≤ s.ht)) then
    let s := sendMarker (bankChip s (here s) h) 1 0 0 0 prog s
    { s with basin.progSent := putKey h (prog, s.ht) s.basin.progSent }
  else s

/-- The FINAL marker to a bank chip, once everything it is owed has gone (R190). -/
def sendFinal (h : Nat) (s : State) : State :=
  if s.basin.finalPending ∧ progressTo s h = plotChunks s ∧ (queueFor s h).isEmpty ∧ !s.basin.finalsSent.contains h then
    let s := sendMarker (bankChip s (here s) h) 2 0 0 0 0xFFFFFFFF s
    { s with basin.finalsSent := s.basin.finalsSent ++ [h] }
  else s

/-- Run whenever a bank chip's queue, limit or progress changes (R190). -/
def memberSend (h : Nat) (s : State) : State :=
  if !codedMode s || s.basin.stopped then s
  else sendFinal h (sendProgress h false (drainQueue h ((queueFor s h).length) s))

/-- The member role toward every bank chip. -/
def memberSendAll (s : State) : State := (bankPositions s).foldl (fun s h => memberSend h s) s

/-! ### Acknowledgements (R187, R193, R195) -/

/-- Progress received from a member. -/
def progressOf (s : State) (m : Nat) : Nat := getKey m 0 s.basin.progress

/-- The relay limit of a group at this chip (R193). -/
def relayLimit (s : State) (g : Nat) : Nat :=
  let w := (minOf ((List.range 4).map fun r => progressOf s (4 * g + r))).getD 0
  let a := (minOf ((s.basin.relays.filter fun e => e.group = g).map fun e => posOf s e.stripe)).getD w
  min w a + 2048

/-- Whether a chip is a data member of the basin whose bank this chip belongs to (R188). -/
def isOurMember (s : State) (c : Coord) : Bool :=
  c.b = ownRow s && c.c = (here s).c && decide (c.a / kOf s = (here s).a / kOf s)

/-- Whether a chip belongs to this chip's own bank row. -/
def isRowMate (s : State) (c : Coord) : Bool := c.b = (here s).b && c.c = (here s).c && decide (c.a / kOf s = (here s).a / kOf s)

/-- The limit field of an acknowledgement to a chip (R187). -/
def ackLimit (s : State) (dest : Coord) : Nat :=
  if hasLimits s ∧ isOurMember s dest then relayLimit s (memberOf s dest / 4) else 0xFFFFFFFF

/-- Whether a pending entry may be sent: its stripe is not held (R260). -/
def ackFree (s : State) (x : Nat × Nat) : Bool := !stripeHeld s x.1

/-- Whether an entry that may be sent has been pending for 4 µs (R187, R260). -/
def ackDue (s : State) (a : AckQueue) : Bool := a.entries.any fun x => ackFree s x && decide (x.2 + 4000 ≤ s.ht)

/-- Send what is pending for a chip, at most 1,020 entries; those of a held stripe stay (R187, R260). -/
def flushAck (dest : Coord) (s : State) : State :=
  let entries := ((s.basin.acks.find? fun a => a.dest = dest).map AckQueue.entries).getD []
  let go := (entries.filter (ackFree s)).take 1020
  let lim := ackLimit s dest
  let s := send (.chip dest) 5 58 0 0 (.ack ⟨stepNum s, lim, go.map Prod.fst⟩) s
  let rest := entries.filter fun x => !go.contains x
  { s with
    basin.acks := (s.basin.acks.filter fun a => a.dest ≠ dest) ++ (if rest.isEmpty then [] else [⟨dest, rest⟩]),
    basin.limitSent := if lim = 0xFFFFFFFF then s.basin.limitSent else putKey dest lim s.basin.limitSent }

/-- One entry made pending for a chip; the batch goes when it holds 1,020 (R187). -/
def ackPending (dest : Coord) (stripe : Nat) (s : State) : State :=
  let old := s.basin.acks.find? fun a => a.dest = dest
  let entries := ((old.map AckQueue.entries).getD []) ++ [(stripe, s.ht)]
  let s := { s with basin.acks := (s.basin.acks.filter fun a => a.dest ≠ dest) ++ [⟨dest, entries⟩] }
  if 1020 ≤ (entries.filter (ackFree s)).length then flushAck dest s else s

/-- Acknowledgements for members whose limit has advanced by 512 or more (R187). -/
def sendLimits (s : State) : State :=
  if !hasLimits s then s
  else (List.range (kOf s)).foldl (fun s m =>
    let dest := ownerChip s m
    if getKey dest 2048 s.basin.limitSent + 512 ≤ relayLimit s (m / 4) then flushAck dest s else s) s

/-- The relay entry of a stripe at this chip, if one is open. -/
def relayOf (s : State) (i : Nat) : Option RelayEnt := s.basin.relays.find? fun e => e.stripe = i

/-- Whether every combined delta of a stripe has been settled by the global holders (R195). -/
def relaySettled (s : State) (i : Nat) : Bool :=
  match relayOf s i with
  | none => true
  | some e => e.sent && !e.lost && e.sentTo.all fun h => e.ackedBy.contains h

/-- Whether an owed acknowledgement may go (R195, R260). -/
def mayAck (s : State) (o : (Nat × Nat) × Coord × Nat) : Bool :=
  let (slot, c) := o.1
  !stripeHeld s o.2.2 && arrived s slot c &&
    (!(basinMode s && isLocal s (unplace s slot).2 && decide (0 < geoG s)) ||
      ((List.range 4).all (arrived s slot) && relaySettled s o.2.2))

/-- Relay slots freed once every acknowledgement owed for their stripe has been sent (R195). -/
def freeRelays (s : State) : State :=
  { s with basin.relays := s.basin.relays.filter fun e =>
      !(e.sent && relaySettled s e.stripe && !(s.basin.owed.any fun o => o.2.2 = e.stripe) &&
        !(s.basin.acks.any fun a => a.entries.any fun x => x.1 = e.stripe)) }

/-- Every acknowledgement that may go is made pending; relay slots that nothing waits on are freed (R195). -/
def settleOwed (s : State) : State :=
  let go := s.basin.owed.filter (mayAck s)
  let s := { s with basin.owed := s.basin.owed.filter fun o => !go.contains o }
  let s := go.foldl (fun s o => ackPending o.2.1 o.2.2 s) s
  freeRelays (sendLimits (freeRelays s))

/-! ### Relay role (R191 to R194) -/

/-- Address of a page of a combined chunk in the relay area (R191). -/
def relayAddr (s : State) (g stripe h page : Nat) : Nat :=
  match s.plans.active with
  | none => 0
  | some p => cisternBase s + relayArea s p + (g * 2048 + posOf s stripe % 2048) * (geoG s * 65536) + h * 65536 + page * 4096

/-- A relay slot opened, zero-filled (R192). -/
def openRelay (g i : Nat) (s : State) : State :=
  if (relayOf s i).isSome then s
  else
    let s := storeZeroPages 3 (relayAddr s g i 0 0) (16 * geoG s) s
    { s with basin.relays := s.basin.relays ++ [{ group := g, stripe := i, masks := List.replicate (geoG s) 0 }] }

/-- A member's delta page combined into the relay slot of its stripe (R192). -/
def combine (g i m page : Nat) (bs : Bytes) (s : State) : State :=
  if geoG s = 0 then s
  else
    let s := openRelay g i s
    let s := (List.range (geoG s)).foldl (fun s h => accumPage 3 (relayAddr s g i h page) (gfScale (coef m h) bs) s) s
    { s with basin.relays := s.basin.relays.map fun e =>
        if e.stripe = i then { e with masks := e.masks.map fun x => x ||| BitVec.ofNat 16 (2 ^ page) } else e }

/-- The non-zero pages of a combined chunk; none where one cannot be read. -/
def combinedPages (e : RelayEnt) (h : Nat) (s : State) : Option (List (Nat × Bytes)) × State :=
  let (ps, s) := gather (fun n => readPage 3 (relayAddr s e.group e.stripe h n) {}) (pagesOf (e.masks.getD h 0)) s
  (ps.map fun xs => xs.filter fun x => x.2.any (· ≠ 0#8), s)

/-- The pages of a combined delta and its relay marker sent to the holder of a global parity (R194). -/
def issueCombined (e : RelayEnt) (h : Nat) (ps : List (Nat × Bytes)) (s : State) : State :=
  let (pos, slot) := place s e.stripe (groupsOf s + h)
  let dst := memberChip s (here s) pos
  let s := ps.foldl (fun s x => sendAccum dst slot x.1 x.2 s) s
  count Reg.bcRelayed 1 (sendMarker dst 0 1 (maskOf (ps.map fun x => x.1)) e.stripe (posOf s e.stripe) s)

/-- The combined delta of one global parity sent (R194): whether it holds a page, none where one cannot be read, which is escalated
(R257). -/
def sendCombined (e : RelayEnt) (h : Nat) (s : State) : Option Bool × State :=
  let r := combinedPages e h s
  match r.1 with
  | some ps => (some (!ps.isEmpty), issueCombined e h ps r.2)
  | none =>
    (none, escalateUnread 3 ((pagesOf (e.masks.getD h 0)).map fun n => relayAddr s e.group e.stripe h n) .escalation r.2)

/-- The combined deltas of a stripe sent, and its relay slot marked: to whom they went, and whether one was lost (R194, R195, R257). -/
def relayStripe (e : RelayEnt) (s : State) : State :=
  let r := (List.range (geoG s)).foldl (fun acc h =>
    let r := sendCombined e h acc.2
    (acc.1 ++ [r.1], r.2)) (([] : List (Option Bool)), s)
  let dst := if r.1.any (· == some true) then (List.range (geoG s)).map fun h => (place s e.stripe (groupsOf s + h)).1 else []
  { r.2 with basin.relays := r.2.basin.relays.map fun x =>
      if x.stripe = e.stripe then { x with sent := true, sentTo := dst, lost := r.1.any Option.isNone } else x }

/-- The relay step of a stripe whose four member bits equal p (R194): combined deltas for the open slot, nothing where none is open
or where the stripe was invalidated (R238). -/
def checkComplete (i : Nat) (s : State) : State :=
  match heldParity s i with
  | none => s
  | some (j, slot) =>
    if !(basinMode s && isLocal s j && (List.range 4).all (arrived s slot)) then s
    else
      match relayOf s i with
      | none => s
      | some e =>
        if e.sent then s
        else if s.basin.invalid.contains i then
          { s with basin.relays := s.basin.relays.map fun x => if x.stripe = i then { x with sent := true, sentTo := [] } else x }
        else relayStripe e s

/-- The relay's FINAL markers, once every member's has arrived and every open slot has been sent (R194). -/
def relayFinal (s : State) : State :=
  if basinMode s ∧ !s.basin.relayFinalSent ∧ (List.range (kOf s)).all (s.basin.finals.contains ·) ∧
      s.basin.relays.all (·.sent) then
    let me := memberOf s (here s)
    let s := ((bankPositions s).filter (· ≠ me)).foldl (fun s m => sendMarker (memberChip s (here s) m) 2 1 0 0 0xFFFFFFFF s) s
    { s with basin.relayFinalSent := true, basin.relayFinals := unionIdx s.basin.relayFinals [me] }
  else s

/-- What a holder does after any change of its bits or its relay slots. -/
def holderSettle (s : State) : State := settleOwed (relayFinal s)

/-! ### Holder checks (R188) -/

/-- The contribution that a sender has in a slot, none when the placement gives it none (R188). -/
def contribOf (s : State) (slot : Nat) (sender : Coord) : Option Nat :=
  let (i, j) := unplace s slot
  if mirrorMode s then (if sender = partneredBy s then some 0 else none)
  else if isLocal s j then
    (if isOurMember s sender ∧ memberOf s sender / 4 = j then some (memberOf s sender % 4) else none)
  else if isRowMate s sender then (List.range (groupsOf s)).find? fun g => (place s i g).1 = memberOf s sender
  else none

/-- The chunks at positions from one progress to another, in order (R196). -/
def chunksBetween (s : State) (lo hi : Nat) : List Nat := (((orderOf s).take hi).drop lo)

/-- The sweep of a member's PROGRESS or FINAL marker (R196). -/
def sweepMember (sender : Coord) (hi : Nat) (s : State) : State :=
  let m := memberOf s sender
  let j := if mirrorMode s then 0 else m / 4
  let c := if mirrorMode s then 0 else m % 4
  (chunksBetween s (progressOf s m) hi).foldl (fun s i =>
    let (pos, slot) := place s i j
    if pos = memberOf s (here s) ∧ !arrived s slot c then checkComplete i (setArrived slot c s) else s) s

/-- The sweep of a relay's FINAL marker over the global slots held here (R196). -/
def sweepRelay (sender : Coord) (s : State) : State :=
  (List.range (bankSlots s)).foldl (fun s slot =>
    let (i, j) := unplace s slot
    if isLocal s j ∨ plotChunks s ≤ i then s
    else (List.range (groupsOf s)).foldl (fun s g =>
      if (place s i g).1 = memberOf s sender then setArrived slot g s else s) s) s

/-! ### Own part of the commit (R35, R201) -/

/-- Whether every arrival bit of the bank shares shows the step in flight (R35). -/
def bitmapsDone (s : State) : Bool :=
  (List.range (bankSlots s)).all fun slot =>
    decide (plotChunks s ≤ (unplace s slot).1) || (List.range (contributions s slot)).all (arrived s slot)

/-- Whether a marker has come from every expected sender (R33, R35). -/
def markersDone (s : State) : Bool :=
  (List.range (kOf s)).all (s.basin.finals.contains ·) &&
    (!basinMode s || (List.range (kOf s)).all (s.basin.relayFinals.contains ·))

/-- Whether this chip's contribution to the agreement is complete (R35, R201, R257, R264). -/
def ownComplete (s : State) : Bool :=
  s.step.updDone && !s.upd.failed && !s.basin.relayLost &&
    (s.agree.kids.all fun k => k.2.step = stepNum s && s.plans.active.any fun p => p.id = k.2.planId) &&
    (!codedMode s ||
      (bitmapsDone s && s.basin.undo.isEmpty && markersDone s && s.basin.queue.isEmpty &&
        (bankPositions s).all (s.basin.finalsSent.contains ·) &&
        (!basinMode s || (s.basin.relayFinalSent && s.basin.relays.all (·.sent)))))

/-- The per-step state of the basin code cleared at a commit or at a step's end (R36, R221). -/
def Basin.nextStep (b : Basin) : Basin :=
  { b with
    pending := [], relays := [], owed := [], limitSent := [], progress := [], finals := [], relayFinalSent := false,
    relayFinals := [], queue := [], limits := [], progSent := [], finalPending := false, finalsSent := [], undoLost := [],
    relayLost := false, acks := [], stopped := false, invalid := [] }

end Sys2Proof.Machine
end

