-- ==== Sys2Proof/Machine/Furrow.lean ====
section
/-! DEFINITION. Furrow programs and the update of one tensor: the register file, the instructions, catch-up and write-back
(R142 to R173). -/

namespace Sys2Proof.Machine

open Sys2Proof

/-- What an element's program can see beside its registers (R147, R155). -/
structure ElemCtx where
  her : Bool
  seed : Quad
  step : Nat
  tensor : Nat
  elem : Nat
  t : Nat
  deriving DecidableEq, Repr

/-- The quiet NaN for a NaN, any other value as it is (R148). -/
def canon (w : Nat) : Nat := if isNan w then quietNan fmtF32 else w

/-- Operand code: a register or a constant (R147). -/
def operand (consts regs : List Nat) (code : Nat) : Nat := if code < 16 then regs.getD code 0 else consts.getD (code - 16) 0

/-- The result of an instruction on its operands (R148, R149, R173). -/
def insResult (c : ElemCtx) (w : Word) (a b k : Nat) : Nat :=
  let op := insOp w
  let h := c.her
  if op = 0x01 then a
  else if op = 0x02 then rne (addNum (num32 a) (num32 b))
  else if op = 0x03 then rne (addNum (num32 a) (negNum (num32 b)))
  else if op = 0x04 then mul32 a b
  else if op = 0x05 then divRne (num32 a) (num32 b)
  else if op = 0x06 then fma32 h a b k
  else if op = 0x07 then fma32 h (neg32 a) b k
  else if op = 0x08 then sqrtRne (num32 a)
  else if op = 0x09 then (if h then divRne (num32 one32) (num32 (flush h (sqrtRne (num32 a)))) else rsqrtRne (num32 a))
  else if op = 0x0A then divRne (num32 one32) (num32 a)
  else if op = 0x0B then minMax h false a b
  else if op = 0x0C then minMax h true a b
  else if op = 0x0D then a % 2 ^ 31
  else if op = 0x0E then neg32 a
  else if op = 0x0F then (if isNan a then a else if a % 2 ^ 31 = 0 then 0 else if gtZero a then one32 else one32 + 2 ^ 31)
  else if op = 0x10 then (if gtZero a then b else k)
  else if op = 0x11 then minMax h false (minMax h true a b) k
  else if op = 0x12 then powi h a c.t
  else if op = 0x13 then roundQ fmtF32 false ((furrowY0 c.seed c.step c.tensor c.elem (0x10 + insImm w % 16)).toNat / 2 ^ 40) 1 (-24)
  else 0

/-- One instruction on the register file (R149); the read-only registers are no destination (R147). -/
def runIns (c : ElemCtx) (consts : List Nat) (regs : List Nat) (w : Word) : List Nat :=
  if insOp w = 0 then regs
  else
    let rd := fun code => flush c.her (operand consts regs code)
    regs.set (insD w) (flush c.her (canon (insResult c w (rd (insA w)) (rd (insB w)) (rd (insC w)))))

/-- A program run on an element's register file. -/
def runProgram (c : ElemCtx) (g : Program) (regs : List Nat) : List Nat := g.instrs.foldl (runIns c g.consts) regs

/-- Catch-up of a lazily decayed operand (R168). -/
def catchUp (her : Bool) (x beta lt s : Nat) : Nat :=
  if lt = 0xFFFFFFFF ∨ s ≤ lt then x else flush her (mul32 x (powi her beta (s - lt - 1)))

/-! ### Loads from a working copy of the plot -/

/-- An element of an operand as binary32 (R142, R143). -/
def loadOperand (her : Bool) (m : Mem) (t : TensorEntry) (o : Operand) (i : Nat) : Nat :=
  flush her (if o.fmt = 4 then kb8Value (readByte m (o.addr + i)) (readByte m (planeAddr t o + i / 32)).toNat
    else toF32 o.fmt (ofLe (readBytes m (o.addr + 2 * i) 2)))

/-- The stored word of a gradient element. -/
def gradWord (m : Mem) (slot : Nat) (t : TensorEntry) (i : Nat) : Nat :=
  ofLe (readBytes m (slot + t.gradOff + i * fmtBytes t.gradType) (fmtBytes t.gradType))

/-- Whether a gradient element is ±0. -/
def gradZero (code w : Nat) : Bool :=
  match numOf (fmtOf code) w with
  | .fin _ m _ => m = 0
  | _ => false

/-- Whether a gradient element is NaN or infinite. -/
def gradBad (code w : Nat) : Bool :=
  match numOf (fmtOf code) w with
  | .fin .. => false
  | _ => true

/-- The words of gradient elements laid out as a type gives them. -/
def gradWords (code : Nat) (bs : Bytes) : List Nat :=
  let w := fmtBytes code
  (List.range (bs.length / w)).map fun i => ofLe (slice (i * w) w bs)

/-- What gradient elements from one on add to their tensor's counts and touch map (R162, R166). -/
def gradFrame (t : TensorEntry) (coll first : Nat) (ws : List Nat) : GradFrame where
  coll := coll
  first := first
  zero := (ws.filter (gradZero t.gradType)).length
  bad := (ws.filter (gradBad t.gradType)).length
  units :=
    if t.touchMode = 0 then []
    else ((indexed first ws).filter fun e => !gradZero t.gradType e.2).foldl (fun us e => unionIdx us [e.1 / max (unitSize t) 1]) []

/-- What a frame's elements add put in place of what the elements converted there before had added (R162). -/
def putGrad (g : GradFrame) (s : State) : State :=
  { s with grads.frames := (s.grads.frames.filter fun x => !(x.coll = g.coll ∧ x.first = g.first)) ++ [g] }

/-- The frames converted of a tensor's gradient. -/
def gradFrames (s : State) (p : Plan) (t : TensorEntry) : List GradFrame :=
  s.grads.frames.filter fun g => ((p.colls.drop g.coll).head?.map CollEntry.tensorId) == some t.id

/-- Zero and non-finite gradient counts of a tensor (R162). -/
def gradCounts (s : State) (p : Plan) (t : TensorEntry) : Nat × Nat :=
  let gs := gradFrames s p t
  (sumOf (gs.map GradFrame.zero), sumOf (gs.map GradFrame.bad))

/-- Touch units with a non-zero or non-finite gradient element, those whose touch map bit is set (R162, R166). -/
def touchedUnits (s : State) (p : Plan) (t : TensorEntry) : List Nat :=
  let us := (gradFrames s p t).flatMap GradFrame.units
  (List.range (unitCount t)).filter us.contains

/-- The bytes of a touch map (R166). -/
def touchBytes (t : TensorEntry) (touched : List Nat) : Bytes := bitmapBytes (ceilDiv (unitCount t) 8) touched

/-! ### One tensor -/

/-- What running an element leaves: whether its unit was touched, whether it counts as a non-finite result, and each operand's value to
write with its rounding. -/
structure ElemOut where
  touched : Bool
  ran : Bool
  bad : Bool
  vals : List (Nat × RoundMode)
  deriving DecidableEq, Repr

/-- Whether an element belongs to a touched unit. -/
def unitTouched (t : TensorEntry) (touched : List Nat) (i : Nat) : Bool := t.touchMode = 0 || touched.contains (i / max (unitSize t) 1)

/-- The chunks in which an element has written bytes: operand bytes, block exponents, its unit's last-touch counter (R228). -/
def elemChunks (plot : Nat) (t : TensorEntry) (i : Nat) : List Nat :=
  let at_ := fun a => (a - plot) / 65536
  ((t.ops.filter fun o => o.write).flatMap fun o =>
    if o.fmt = 4 then [at_ (o.addr + i), at_ (planeAddr t o + i / 32)] else [at_ (o.addr + 2 * i)]) ++
  (if t.touchMode = 0 then [] else [at_ (t.lastTouch + 4 * (i / max (unitSize t) 1))])

/-- One element loaded, caught up, run and rounded off (R147, R159, R163, R164, R168). `go` is false for an element outside the chunks
that this run covers; `m` holds the plot's staged content, `gm` the gradient. -/
def runElem (her : Bool) (seed step : Nat) (g : Program) (t : TensorEntry) (m gm : Mem) (slot : Nat) (touched : List Nat)
    (go : Nat → Bool) (i : Nat) : ElemOut :=
  let loaded := t.ops.map fun o => loadOperand her m t o i
  if !(unitTouched t touched i && go i) then ⟨false, false, false, loaded.map fun v => (v, .nearest)⟩
  else
    let lt := ofLe (readBytes m (t.lastTouch + 4 * (i / max (unitSize t) 1)) 4)
    let asLoaded := (t.ops.zip loaded).map fun ov =>
      if ov.1.lazy then catchUp her ov.2 (g.consts.getD ov.1.decay 0) lt step else ov.2
    let gw := gradWord gm slot t i
    if gradBad t.gradType gw then ⟨true, false, false, asLoaded.map fun v => (v, .nearest)⟩
    else
      let ts := u32 (step - t.origin + 1)
      let ctx : ElemCtx := ⟨her, BitVec.ofNat 64 seed, step, t.id, i, ts⟩
      let grad := flush her (toF32 t.gradType gw)
      let regs := [grad] ++ (List.range 6).map (fun j => asLoaded.getD j 0) ++ [0, 0, 0, 0, 0, natTo32 ts, curveAt g.curve0 step,
        curveAt g.curve1 step, 0]
      let out := runProgram ctx g regs
      let results := (List.range t.ops.length).map fun j => out.getD (j + 1) 0
      if (t.ops.zip results).any fun x => x.1.write && !isFinite32 x.2 then ⟨true, true, true, asLoaded.map fun v => (v, .nearest)⟩
      else
        let rb := fun (_ : Unit) =>
          if her then RoundMode.stochastic ((furrowY0 (BitVec.ofNat 64 seed) step t.id i 0).toNat / 2 ^ 56) 8
          else RoundMode.stochastic ((furrowY0 (BitVec.ofNat 64 seed) step t.id i 1).toNat / 2 ^ 48) 16
        ⟨true, true, false, (indexed 0 results).map fun jv => (jv.2, if jv.1 = t.weightOp then rb () else .nearest)⟩

/-- The writes of one bfloat16 or binary16 operand, for elements from `lo` on: the memory and the saturations (R160, R163). -/
def writePlain (her : Bool) (o : Operand) (j lo : Nat) (outs : List ElemOut) (m : Mem) : Mem × Nat :=
  (indexed lo outs).foldl (fun acc e =>
    let v := e.2.vals.getD j (0, .nearest)
    if e.2.touched && isFinite32 v.1 then
      let (w, sat) := roundOut her (fmtOf o.fmt) v.2 v.1
      (writeBytes (o.addr + 2 * e.1) (le 2 w) acc.1, acc.2 + b2n sat)
    else acc) (m, 0)

/-- The writes of one KB8 operand, block by block from that of element `lo`: the memory, the saturations, the elements of blocks left as they
were (R161, R163). -/
def writeKb8 (t : TensorEntry) (o : Operand) (j lo : Nat) (outs : List ElemOut) (m : Mem) : Mem × Nat × List Nat :=
  (upFrom (lo / 32) (ceilDiv outs.length 32)).foldl (fun acc b =>
    let es := (outs.drop (32 * b - lo)).take 32
    if !es.any fun e => e.touched then acc
    else
      let vs := es.map fun e => e.vals.getD j (0, .nearest)
      if vs.all fun v => isFinite32 v.1 then
        let (x, qs, sat) := kb8Out (vs ++ List.replicate (32 - vs.length) (0, .nearest))
        (writeBytes (planeAddr t o + b) [BitVec.ofNat 8 x] (writeBytes (o.addr + 32 * b) qs acc.1), acc.2.1 + sat, acc.2.2)
      else (acc.1, acc.2.1, acc.2.2 ++ upFrom (32 * b) es.length)) (m, 0, [])

/-- The writes of every written operand, in operand order (R159). -/
def writeOperands (her : Bool) (t : TensorEntry) (lo : Nat) (outs : List ElemOut) (m : Mem) : Mem × Nat × List Nat :=
  (indexed 0 t.ops).foldl (fun acc jo =>
    if !jo.2.write then acc
    else if jo.2.fmt = 4 then
      let r := writeKb8 t jo.2 jo.1 lo outs acc.1
      (r.1, acc.2.1 + r.2.1, unionIdx acc.2.2 r.2.2)
    else
      let r := writePlain her jo.2 jo.1 lo outs acc.1
      (r.1, acc.2.1 + r.2, acc.2.2)) (m, 0, [])

/-- What running elements of a tensor leaves: the staged content of the plot, elements run, non-finite results, saturations. -/
structure TensorOut where
  mem : Mem
  ran : Nat
  nonfinite : Nat
  sat : Nat
  deriving DecidableEq, Repr

/-- The last-touch counters of the units whose last element lies from `lo` up to `hi` (R168). -/
def writeTouch (t : TensorEntry) (step lo hi : Nat) (units : List Nat) (m : Mem) : Mem :=
  (units.filter fun u => lo < min ((u + 1) * unitSize t) t.elems && min ((u + 1) * unitSize t) t.elems ≤ hi).foldl
    (fun m u => writeBytes (t.lastTouch + 4 * u) (le 4 step) m) m

/-- The elements of one tensor from `lo` up to `hi` updated at a step (R147 to R168); `lo` begins a block of 32. -/
def runTensor (p : Plan) (seed step slot : Nat) (go : Nat → Bool) (touched : List Nat) (lo hi : Nat) (t : TensorEntry) (m gm : Mem) : TensorOut :=
  match p.programs[t.program]? with
  | none => ⟨m, 0, 0, 0⟩
  | some g =>
    let outs := (upFrom lo (hi - lo)).map (runElem p.heritage seed step g t m gm slot touched go)
    let w := writeOperands p.heritage t lo outs m
    let bad := unionIdx (((indexed lo outs).filter fun e => e.2.bad).map fun e => e.1) w.2.2
    ⟨writeTouch t step lo hi (touched.filter fun u => go (u * unitSize t)) w.1, (outs.filter fun e => e.ran).length, bad.length, w.2.1⟩

/-- A health entry (R165). -/
def healthBytes (step tensor flags zeroGrad nonGrad nonRes sat touched : Nat) : Bytes :=
  le 4 step ++ le 3 tensor ++ le 1 flags ++ le 5 (sat40 zeroGrad) ++ le 5 (sat40 nonGrad) ++ le 5 (sat40 nonRes) ++ le 5 (sat40 sat) ++
    le 4 (sat32 touched)

/-- A health record (R379). -/
def healthRecord (step tensor index flags zeroGrad nonGrad nonRes sat touched : Nat) : List Bytes :=
  [le 1 0 ++ le 1 4 ++ le 1 0 ++ le 1 flags ++ le 4 step ++ le 3 tensor ++ zeros 1 ++ le 5 (sat40 zeroGrad) ++ le 5 (sat40 nonGrad) ++
    le 5 (sat40 nonRes) ++ le 5 (sat40 sat), zeros 4 ++ le 4 (sat32 touched) ++ le 4 index]

end Sys2Proof.Machine
end

