-- ==== Sys2Proof/Machine/Update.lean ====
section
/-! DEFINITION. The update unit at work: reading what it needs, assembling the changed chunks, undo entries and plot writes, health
entries (R164 to R172, R190, R197 to R199, R238, R264). -/

namespace Sys2Proof.Machine

open Sys2Proof

/-- Address of the cistern gradient slot. -/
def gradSlotAddr (s : State) (p : Plan) : Nat := cisternBase s + gradBase p

/-- How an UPDATE turn handles a tensor: 0 run, 1 skipped by policy 1 (R164), 2 skipped under R151. DEDUCED (assumption 90): the health entry of
a policy 1 skip has flag 0 and the gradient counts. -/
def tensorFate (s : State) (p : Plan) (t : TensorEntry) : Nat :=
  if stepNum s < t.origin then 2 else if t.policy = 1 ∧ 0 < (gradCounts s p t).2 then 1 else 0

/-- The arrays of a tensor in the plot: the chunk in which each begins, and how many elements a chunk of it serves. Every array begins a chunk
(R146). -/
def tensorRuns (s : State) (t : TensorEntry) : List (Nat × Nat) :=
  let chunk := fun (a : Nat) => (a - plotBase s) / 65536
  (t.ops.flatMap fun o => if o.fmt = 4 then [(chunk o.addr, 65536), (chunk (planeAddr t o), 65536 * 32)] else [(chunk o.addr, 32768)]) ++
    (if t.touchMode = 0 then [] else [(chunk t.lastTouch, 16384 * max (unitSize t) 1)])

/-- Chunks of the plot that elements from `lo` up to `hi` of a tensor need: every operand, and the last-touch counters (R167, R169). -/
def chunksOfElems (s : State) (t : TensorEntry) (lo hi : Nat) : List Nat :=
  if hi ≤ lo then [] else (tensorRuns s t).flatMap fun r => upFrom (r.1 + lo / r.2) ((hi - 1) / r.2 + 1 - lo / r.2)

/-- The first element that needs a chunk, and the first after it that does not. -/
def elemsOfChunk (s : State) (t : TensorEntry) (c : Nat) : Nat × Nat :=
  match (tensorRuns s t).find? fun r => decide (r.1 ≤ c) && decide ((c - r.1) * r.2 < t.elems) with
  | some r => ((c - r.1) * r.2, min ((c - r.1 + 1) * r.2) t.elems)
  | none => (0, t.elems)

/-- The list without repeats. -/
def distinct (xs : List Nat) : List Nat := xs.foldl (fun acc x => if acc.contains x then acc else acc ++ [x]) []

/-- A write into part of a region's pages, an unreadable page escalated before the merge (R253). -/
def mergeWrite (r a : Nat) (bs : Bytes) (w : RepairFor) (s : State) : State :=
  let (bad, s) := writePart r a bs (finderOf w) s
  escalateAll r bad w s

/-- The touch map of a tensor written from what its frames have added (R162). -/
def refreshTouch (p : Plan) (t : TensorEntry) (s : State) : State :=
  if t.touchMode = 0 then s else mergeWrite 3 (gradSlotAddr s p + t.touchMap) (touchBytes t (touchedUnits s p t)) .escalation s

/-- A health entry written in the cistern, and its record where a count or a flag asks for one (R165). -/
def writeHealth (p : Plan) (x : Nat) (t : TensorEntry) (flags nonRes sat touched : Nat) (counts : Nat × Nat) (s : State) : State :=
  let a := cisternBase s + healthArea s p + 32 * (stepNum s % 8 * p.tensors.length + x)
  let s := mergeWrite 3 a (healthBytes (stepNum s) t.id flags counts.1 counts.2 nonRes sat touched) .escalation s
  if counts.2 ≠ 0 ∨ nonRes ≠ 0 ∨ sat ≠ 0 ∨ bit 0 flags ∨ bit 1 flags ∨ bit 3 flags then
    report (ringNo p.reportRing) (healthRecord (stepNum s) t.id x flags counts.1 counts.2 nonRes sat touched) false s
  else s

/-- Whether this chip runs the recovery of a spare (R238). -/
def spareRecovery (s : State) : Bool := s.refill.isSpare && s.step.recoveryAt.isSome

/-- The class of a chunk of a spare's rebuilt plot; undetermined where none is known (R227). -/
def classOf (s : State) (c : Nat) : ChunkClass :=
  (s.refill.classes.find? fun k => k.chunk = c).getD { chunk := c, cls := 2, pending := 0, determined := false }

/-- Chunks of torn closures (R228). -/
def tornChunks (s : State) : List Nat := s.upd.torn.flatten

/-- Whether a run covers the chunks of an element: all outside a spare's recovery, there those of closures wholly at s−1 (R238). -/
def elemGo (s : State) (t : TensorEntry) (i : Nat) : Bool :=
  !spareRecovery s || (elemChunks (plotBase s) t i).all fun c => (classOf s c).cls = 1 && !(tornChunks s).contains c

/-- The element ranges of a tensor, from an element on, that this run covers: all in dense mode, touched units otherwise, in a spare's recovery
element by element (R167, R238). -/
def neededRanges (s : State) (t : TensorEntry) (touched : List Nat) (lo : Nat) : List (Nat × Nat) :=
  if spareRecovery s then
    ((upFrom lo (t.elems - lo)).filter fun i => unitTouched t touched i && elemGo s t i).map fun i => (i, i + 1)
  else if t.touchMode = 0 then [(lo, t.elems)]
  else (touched.map fun u => (max lo (u * unitSize t), min ((u + 1) * unitSize t) t.elems)).filter fun r => decide (r.1 < r.2)

/-- Chunks read into staging, their old content kept; those with a page that could not be read come back, and its pages (R169, R255). -/
def stageChunks : List Nat → State → List Nat × List Nat × State
  | [], s => ([], [], s)
  | c :: cs, s =>
    if s.upd.old.any (fun x => x.1 = c) then stageChunks cs s
    else
      let r := readChunk 0 c { inUpdate := true } s
      if r.2.1.isEmpty then
        stageChunks cs { r.2.2 with
          upd.old := r.2.2.upd.old ++ [(c, r.1)], upd.work := writeBytes (plotBase s + c * 65536) r.1 r.2.2.upd.work }
      else
        let q := stageChunks cs r.2.2
        (c :: q.1, r.2.1 ++ q.2.1, q.2.2)

/-- Gradient elements of a tensor read into staging (R169): their bytes by address, and the pages that could not be read. -/
def stageGradient (p : Plan) (t : TensorEntry) : List (Nat × Nat) → Mem → State → Mem × List Nat × State
  | [], gm, s => (gm, [], s)
  | x :: xs, gm, s =>
    let w := fmtBytes t.gradType
    let a := gradSlotAddr s p + t.gradOff + x.1 * w
    let r := readSpan 3 a ((x.2 - x.1) * w) { inUpdate := true } s
    let q := stageGradient p t xs (writeBytes a r.1 gm) r.2.2
    (q.1, r.2.1 ++ q.2.1, q.2.2)

/-- A changed chunk put in position order among those still to be written. -/
def insertTodo (e : Nat × Nat × Bytes) : List (Nat × Nat × Bytes) → List (Nat × Nat × Bytes)
  | [] => [e]
  | x :: xs => if e.1 ≤ x.1 then e :: x :: xs else x :: insertTodo e xs

/-- A chunk all of whose elements have run: to be written where its content has changed, done with otherwise (R32, R169). -/
def closeChunk (c : Nat) (s : State) : State :=
  let a := plotBase s + c * 65536
  let new := readBytes s.upd.work a 65536
  let same := (s.upd.old.find? fun x => x.1 = c).all fun x => x.2 = new
  let u := { s.upd with work := eraseBytes a 65536 s.upd.work }
  { s with upd := if same then { u with old := u.old.filter fun x => x.1 ≠ c } else { u with todo := insertTodo (posOf s c, c, new) u.todo } }

/-- A tensor run from where assembly stands up to an element: its sums and counters, and its chunks that are complete (R169). -/
def runPart (p : Plan) (t : TensorEntry) (touched chunks : List Nat) (hi : Nat) (gm : Mem) (s : State) : State :=
  let r := runTensor p (seedOf s) (stepNum s) (gradSlotAddr s p) (elemGo s t) touched s.upd.elem hi t s.upd.work gm
  let s := wideAdd Reg.updElemsLo r.ran s
  let s := { s with upd := { s.upd with
    elem := hi, work := r.mem, sums := (s.upd.sums.1 + r.ran, s.upd.sums.2.1 + r.nonfinite, s.upd.sums.2.2 + r.sat) } }
  (chunks.filter fun c => decide ((elemsOfChunk s t c).2 ≤ hi)).foldl (fun s c => closeChunk c s) s

/-- The end of a tensor: its health entry, which a spare writes where it ran elements of it, and its counters (R165, R174, R238). -/
def closeTensor (p : Plan) (x : Nat × TensorEntry) (touched : List Nat) (s : State) : State :=
  let (ran, nonfinite, sat) := s.upd.sums
  let s := if !spareRecovery s || decide (0 < ran) then
      writeHealth p x.1 x.2 (if spareRecovery s then 8 else 0) nonfinite sat touched.length (gradCounts s p x.2) s
    else s
  let s := count Reg.updNonfinite nonfinite (count Reg.updSat sat s)
  regPut Reg.updUnitsSkipped (sat32 (regNat s Reg.updUnitsSkipped + (unitCount x.2 - touched.length))) s

/-- Assembly goes on with the next tensor of the turn. -/
def nextTensor (s : State) : State := { s with upd := { s.upd with tensor := s.upd.tensor + 1, elem := 0, sums := (0, 0, 0) } }

/-- A tensor taken on from the element where assembly stands: what it needs is read, it is run up to the first element whose bytes cannot be
read, and those pages' repairs begin (R169, R255, R264). Whether it is done. -/
def stageTensor (p : Plan) (x : Nat × TensorEntry) (s : State) : Bool × State :=
  let t := x.2
  let touched := touchedUnits s p t
  let ranges := neededRanges s t touched s.upd.elem
  let chunks := distinct (ranges.flatMap fun r => chunksOfElems s t r.1 r.2)
  let c := stageChunks chunks s
  let map := if t.touchMode = 0 then ([], [], c.2.2)
    else readSpan 3 (gradSlotAddr s p + t.touchMap) (ceilDiv (unitCount t) 8) { inUpdate := true } c.2.2
  let g := stageGradient p t ranges [] map.2.2
  let base := gradSlotAddr s p + t.gradOff
  let stops := (c.1.map fun c => (elemsOfChunk s t c).1) ++ (g.2.1.map fun a => (a - base) / fmtBytes t.gradType) ++ (map.2.1.map fun _ => 0)
  match minOf stops with
  | none => (true, closeTensor p x touched (runPart p t touched chunks t.elems g.1 g.2.2))
  | some e =>
    let s := runPart p t touched chunks (max s.upd.elem (e / 32 * 32)) g.1 g.2.2
    let rest := chunks.filter fun c => decide (s.upd.elem < (elemsOfChunk s t c).2)
    let s := { s with upd.stall := (minOf (rest.map (posOf s))).getD 0 }
    (false, escalateAll 0 c.2.1 .update (escalateAll 3 (distinct (map.2.1 ++ g.2.1)) .update s))

/-- The tensors of the turn from where assembly stands, in table order, as far as what they need can be read (R151, R164, R169). A tensor that
is not updated is not read either. -/
def stageTensors (p : Plan) : List (Nat × TensorEntry) → State → State
  | [], s => { s with upd := { s.upd with assembled := true, stall := plotChunks s } }
  | x :: xs, s =>
    let fate := tensorFate s p x.2
    if fate = 2 then stageTensors p xs (nextTensor (writeHealth p x.1 x.2 4 0 0 0 (0, 0) s))
    else if fate = 1 then stageTensors p xs (nextTensor (writeHealth p x.1 x.2 1 0 0 0 (gradCounts s p x.2) s))
    else
      let r := stageTensor p x s
      if r.1 then stageTensors p xs (nextTensor r.2) else r.2

/-- The counts and the touch map of a tensor derived again from the gradient slot's content (R162); its pages that could not be read. -/
def scanTensor (p : Plan) (t : TensorEntry) (s : State) : List Nat × State :=
  let r := readSpan 3 (gradSlotAddr s p + t.gradOff) (t.elems * fmtBytes t.gradType) { inUpdate := true } s
  match (indexed 0 p.colls).find? fun c => c.2.tensorId = t.id with
  | some c =>
    let old := gradFrames r.2.2 p t
    let s := { r.2.2 with grads.frames := r.2.2.grads.frames.filter fun g => !old.contains g }
    (r.2.1, refreshTouch p t (putGrad (gradFrame t c.1 0 (gradWords t.gradType r.1)) s))
  | none => (r.2.1, r.2.2)

/-- The gradients that came by another path scanned before the update runs (R162): the pages that could not be read. -/
def scanTensors (p : Plan) : List (Nat × TensorEntry) → State → List Nat × State
  | [], s => ([], s)
  | x :: xs, s =>
    if stepNum s < x.2.origin then scanTensors p xs s
    else
      let r := scanTensor p x.2 s
      let q := scanTensors p xs r.2
      (r.1 ++ q.1, q.2)

/-- Assembly begun: its counters at zero, and the chunks of torn closures waiting for their copies (R174, R238). -/
def openAssembly (s : State) : State :=
  if s.upd.reading then s
  else
    let s := regPut Reg.updUnitsSkipped 0 (widePut Reg.updElemsLo 0 s)
    let torn := if spareRecovery s then tornChunks s else []
    { s with upd := { s.upd with
      reading := true, todo := torn.foldl (fun todo c => insertTodo (posOf s c, c, []) todo) s.upd.todo } }

/-- Assembly taken as far as it goes: the changed chunks whose elements have all run are ready to be written; where a page cannot be read, its
repair is begun and the rest waits for it (R169, R255, R264). -/
def assemble (s : State) : State :=
  match s.plans.active with
  | none => s
  | some p =>
    let s := openAssembly s
    let ts := updateTensors p
    if s.grads.scan then
      let r := scanTensors p ts s
      if r.1.isEmpty then stageTensors p (ts.drop s.upd.tensor) { r.2 with grads.scan := false } else escalateAll 3 (distinct r.1) .update r.2
    else stageTensors p (ts.drop s.upd.tensor) s

/-- What is queued for the local holder of a chunk, or for the mirror partner (R179, R190). -/
def enqueueDelta (pos c u : Nat) (mask extra : BitVec 16) (s : State) : State :=
  let (h, slot) := if mirrorMode s then (0, c) else place s c (memberOf s (here s) / 4)
  { s with basin.queue := s.basin.queue ++ [{ dest := h, chunk := c, pos := pos, undo := u, mask := mask, slot := slot, extra := extra }] }

/-- A chunk written to the plot and the offers of its old content withdrawn (R301). -/
def writePlotChunk (c : Nat) (bs : Bytes) (s : State) : State := withdrawOffer [c] (storeChunk 0 c bs s)

/-- The old content of a chunk: as staged, or read for a chunk that comes as a copy; where it cannot be read, its repair is begun (R169,
R238). -/
def oldContent (c : Nat) (s : State) : Option Bytes × State :=
  match s.upd.old.find? fun x => x.1 = c with
  | some x => (some x.2, s)
  | none =>
    let r := readChunk 0 c { inUpdate := true } s
    if r.2.1.isEmpty then (some r.1, r.2.2) else (none, escalateAll 0 r.2.1 .update r.2.2)

/-- A delta placed in the undo window, and then the chunk written (R30, R169, R197). -/
def writeDelta (pos c u : Nat) (bs : Bytes) (pages : List (Nat × Bytes)) (s : State) : State :=
  let s := pages.foldl (fun s e => storePage 4 (undoAddr s u e.1) e.2 s) s
  let mask := maskOf (pages.map fun e => e.1)
  let extra := if spareRecovery s then (classOf s c).pending else 0
  let s := { s with basin.undo := s.basin.undo ++ [{ slot := u, stripe := c, mask := mask, step := stepNum s, extra := extra }] }
  let s := regPut Reg.bcUndoPeak (max (regNat s Reg.bcUndoPeak) s.basin.undo.length) s
  enqueueDelta pos c u mask extra (writePlotChunk c bs s)

/-- A chunk that a spare in replicated mode has copied after its peer's update is of class S (R231). -/
def noteCopied (c : Nat) (s : State) : State :=
  if spareRecovery s then { s with refill.classes := s.refill.classes.map fun x => if x.chunk = c then { x with cls := 0 } else x } else s

/-- One changed chunk: its delta into the undo window, then the write; not while the window is full (R30, R169, R172, R197). A chunk that the
decoder left undetermined has no delta: its holder is told to drop the parity. Pages that the holder has already accumulated need their
marker even where no other page changes (R238). Whether it is done. -/
def writeChanged (pos c : Nat) (bs : Bytes) (s : State) : Bool × State :=
  if !codedMode s then (true, noteCopied c (writePlotChunk c bs s))
  else if spareRecovery s && !(classOf s c).determined then
    let (h, _) := if mirrorMode s then (0, c) else place s c (memberOf s (here s) / 4)
    (true, sendMarker (bankChip s (here s) h) 0 2 0 c pos (writePlotChunk c bs s))
  else
    let old := oldContent c s
    match old.1 with
    | none => (false, old.2)
    | some was =>
      let s := old.2
      let pages := nonZeroPages (xorBytes bs was)
      if pages.isEmpty && (!spareRecovery s || (classOf s c).pending = 0) then (true, s)
      else
        match freeUndo s with
        | none => (false, { s with upd.waiting := true })
        | some u => (true, writeDelta pos c u bs pages s)

/-- The next unfinished position: that of the next chunk to be written, or the lowest not yet assembled. -/
def todoPos (s : State) : Nat :=
  min ((s.upd.todo.head?.map fun e => e.1).getD (plotChunks s)) (if s.upd.assembled then plotChunks s else s.upd.stall)

/-- A chunk of a torn closure as its peer copied it; nothing until every page has come (R238). -/
def copyOf (s : State) (c : Nat) : Bytes :=
  let ps := (List.range 16).map fun n => (s.refill.copies.find? fun x => x.1 = c ∧ x.2.1 = n).map fun x => x.2.2
  if ps.all Option.isSome then ps.flatMap fun p => p.getD [] else []

/-- Chunks written in position order until none is left, the undo window is full, or a copy is awaited (R30, R169, R238). -/
def writeLoop : Nat → State → State
  | 0, s => s
  | n + 1, s =>
    match s.upd.todo with
    | [] => s
    | (pos, c, new) :: rest =>
      let bs := if new.isEmpty then copyOf s c else new
      if bs.isEmpty then { s with upd.waiting := true }
      else
        let r := writeChanged pos c bs s
        if !r.1 then r.2
        else
          let s := { r.2 with upd := { r.2.upd with todo := rest, waiting := false, old := r.2.upd.old.filter fun x => x.1 ≠ c } }
          let s := { s with upd.pos := todoPos s }
          writeLoop n (if codedMode s then memberSendAll s else s)

/-- The end of the update's work (R190, R201). -/
def finishUpdate (s : State) : State :=
  let s := { s with upd.pos := plotChunks s, step.updDone := true, basin.finalPending := codedMode s }
  memberSendAll s

/-- The update taken as far as it can go: assembled on once its repairs are over, chunks written, its end noted. A page that no attempt
repaired stops assembly, not the writes of what is assembled (R169, R264). -/
def continueUpdate (s : State) : State :=
  if !s.upd.started || s.step.updDone || s.refill.frozen then s
  else
    let waits := s.upd.assembled || s.upd.failed || s.guard.attempts.any fun a => a.forWhom = .update
    let s := if waits then s else assemble s
    let s := { s with upd.pos := todoPos s }
    let s := writeLoop s.upd.todo.length s
    if s.upd.assembled && s.upd.todo.isEmpty then finishUpdate s else s

/-- The work of an UPDATE turn begun or resumed (R36, R164, R236). -/
def beginUpdate (s : State) : State := continueUpdate { s with upd.started := true, step.updBegun := true }

/-- What follows any change that a waiting update, queue or holder may have waited for. -/
def pokeBasin (s : State) : State :=
  if s.refill.frozen then s else holderSettle (memberSendAll (continueUpdate s))

end Sys2Proof.Machine
end

