-- ==== Sys2Proof/Machine/Reduction.lean ====
section
/-! DEFINITION. Exact reduction: reaches, own contributions, partial sums up the trees, results, aborts, the dual-path comparison and
its retry (R103 to R138). -/

namespace Sys2Proof.Machine

open Sys2Proof

/-! ### Reaches -/

/-- Which reach, on which path. -/
structure RKey where
  scale : Bool
  coll : Nat
  reach : Nat
  path1 : Bool := false
  retry : Bool := false
  deriving DecidableEq, Repr

/-- What the plan says of a reach (R103, R105, R108). -/
structure RInfo where
  turn : Nat
  entry : TurnEntry
  box : Box
  root : Nat
  lanes : Nat
  per : Nat
  base : Nat
  digest : Nat
  tree0 : Nat
  tree1 : Nat
  dual : Bool
  deriving DecidableEq, Repr

/-- Whether a turn runs in a step (R76). -/
def runsIn (t : TurnEntry) (n : Nat) : Bool := decide (n % max t.period 1 = t.phase)

/-- The digest of a collective (R107). -/
def collDigest (c : CollEntry) : Nat :=
  crc32c (le 4 c.tensorId ++ le 8 c.elems ++ le 1 c.inType ++ le 1 c.outType ++ le 1 c.op ++ le 1 0)

/-- The digest of a SCALE turn (R107). -/
def scaleDigest (p : Plan) (t : TurnEntry) : Nat := crc32c ((collsOfTurn p t).flatMap fun c => le 4 (collDigest c.2))

/-- A reach of a SCALE turn. -/
def scaleInfo (p : Plan) (i : Nat) (t : TurnEntry) (reach : Nat) : Option RInfo :=
  match collsOfTurn p t with
  | [] => none
  | (_, c) :: _ =>
    let total := scaleLanes p t
    if total ≤ 2091008 * reach then none
    else some ⟨i, t, c.box, (reach + c.rootOff) % max c.box.size 1, min 2091008 (total - 2091008 * reach), 2042, 2091008 * reach,
      scaleDigest p t, c.tree0, c.tree0, false⟩

/-- A reach of a collective. -/
def collInfo (i : Nat) (t : TurnEntry) (c : CollEntry) (reach : Nat) : Option RInfo :=
  if c.elems ≤ 778240 * reach then none
  else some ⟨i, t, c.box, (reach + c.rootOff) % max c.box.size 1, min 778240 (c.elems - 778240 * reach), 760, 778240 * reach, collDigest c,
    c.tree0, c.tree1, c.dual⟩

/-- The reach of a key in the step in flight; none where the plan holds none (R128). -/
def infoOf (s : State) (k : RKey) : Option RInfo :=
  match s.plans.active with
  | none => none
  | some p =>
    let ts := (indexed 0 p.turns).filter fun x => runsIn x.2 (stepNum s)
    if k.scale then
      (ts.find? fun x => x.2.kind = Kind.scale ∧ x.2.first = k.coll).bind fun x => scaleInfo p x.1 x.2 k.reach
    else
      match p.colls[k.coll]?, ts.find? fun x => x.2.kind = Kind.reduce ∧ x.2.first ≤ k.coll ∧ k.coll < x.2.first + x.2.count with
      | some c, some x => collInfo x.1 x.2 c k.reach
      | _, _ => none

/-- Frames of a reach. -/
def RInfo.frames (i : RInfo) : Nat := ceilDiv i.lanes i.per
/-- Lanes of a frame (R115). -/
def RInfo.frameLen (i : RInfo) (f : Nat) : Nat := min i.per (i.lanes - i.per * f)
/-- Root offsets of a path (R103). -/
def RInfo.rootOf (i : RInfo) (path1 : Bool) : Coord :=
  offsetsOf i.box (if path1 then (i.root + i.box.size / 2) % max i.box.size 1 else i.root)
/-- The chip that roots a path. -/
def RInfo.rootChip (s : State) (i : RInfo) (path1 : Bool) : Coord := chipAt s i.box (i.rootOf path1)

/-- The sampled frames of a reach in the step in flight, at most 16 (R120, R132). -/
def sampledFrames (s : State) (k : RKey) (i : RInfo) : List Nat :=
  if !i.dual then []
  else ((List.range i.frames).filter fun f =>
    crc32c (le 4 (stepNum s) ++ le 2 k.coll ++ le 2 k.reach ++ le 2 f ++ le 2 0) % 256 = 0).take 16

/-- What this chip holds of a reach's result, if anything. -/
def resultOf (s : State) (k : RKey) : Option ReachResult :=
  s.red.results.find? fun r => r.scale = k.scale ∧ r.coll = k.coll ∧ r.reach = k.reach

/-- The frames a retry of a reach runs (R135). -/
def retryFrames (s : State) (k : RKey) : List Nat :=
  match (resultOf s k).bind ReachResult.record with
  | some r => r.retryList.filter (· ≠ 0xFFFF)
  | none => []

/-- The frames that travel under a key. -/
def keyFrames (s : State) (k : RKey) (i : RInfo) : List Nat :=
  if k.retry then retryFrames s k else if k.path1 then sampledFrames s k i else List.range i.frames

/-- Member index of a chip of the group. -/
def memberIn (s : State) (g : Box) (c : Coord) : Nat := memberIndex g (offsetsIn s g c)

/-- The children of this chip for a key, as chips. -/
def kidsOf (s : State) (k : RKey) (i : RInfo) : List Coord :=
  (childrenOf i.box k.path1 (offsetsIn s i.box (here s)) (i.rootOf k.path1)).map (chipAt s i.box)

/-- The parent of this chip for a key. -/
def parentFor (s : State) (k : RKey) (i : RInfo) : Option Coord :=
  (parentOf k.path1 (offsetsIn s i.box (here s)) (i.rootOf k.path1)).map (chipAt s i.box)

/-- This chip's height for a key. -/
def heightFor (s : State) (k : RKey) (i : RInfo) : Nat := heightOf (offsetsIn s i.box (here s)) (i.rootOf k.path1)

/-- The hop allowance H of the active plan (R121). -/
def hopOf (s : State) : Nat := ((s.plans.active.map Plan.routeBound).getD 0) + 4000

/-- The start of a turn of the step in flight: start-anchored turns from the step's start, a recovery run's from its own (R78, R236). -/
def turnStart (s : State) (t : TurnEntry) : Nat :=
  if t.commitAnchored then s.step.commitAt + t.offset
  else
    match s.step.recoveryAt, s.plans.active with
    | some y, some p =>
      if t.kind = Kind.commit then
        y + (((p.turns.find? fun u => u.kind = Kind.update).map TurnEntry.duration).getD 0)
      else if t.kind = Kind.update ∨ t.kind = Kind.delta then y
      else (s.step.startAt.getD 0) + t.offset
    | _, _ => (s.step.startAt.getD 0) + t.offset

/-- The start of the CHECK turn of the step in flight. -/
def checkStart (s : State) : Nat :=
  match s.plans.active with
  | some p => ((startTurns p Kind.check).map (turnStart s)).headD 0
  | none => 0

/-- The instant D of a key: the turn's deadline, or Dr for a retry (R121, R135). -/
def deadlineAt (s : State) (k : RKey) (i : RInfo) : Nat :=
  if k.retry then checkStart s - 3 * ((s.plans.active.map Plan.routeBound).getD 0)
  else turnStart s i.entry + deadlineOf i.entry

/-- The cut-off C(h) of this chip for a key (R121). -/
def cutoffAt (s : State) (k : RKey) (i : RInfo) : Nat := deadlineAt s k i - heightFor s k i * hopOf s

/-! ### Sending (R114 to R117) -/

/-- The prefix of a packet of a key. -/
def keyPrefix (k : RKey) (i : RInfo) (count : Nat) : Prefix :=
  { digest := i.digest, coll := k.coll, reach := k.reach, count := count, path := k.path1, retry := k.retry, scale := k.scale }

/-- The slot of a reach number (R118). -/
def slotOf (q : Nat) : Nat := q % 24

/-- A packet of a reduction multicast on a tree. -/
def sendTree (t window offset : Nat) (payload : Payload) (s : State) : State := send (.tree t) 4 window offset 0 payload s

/-- The place of a sampled frame among the sampled frames of its reach, a retried one's too (R116). -/
def kthOf (s : State) (k : RKey) (i : RInfo) (f : Nat) : Nat := (sampledFrames s k i).idxOf f

/-- A frame sent to this chip's parent (R116). -/
def sendFrame (dst : Coord) (k : RKey) (i : RInfo) (q : Nat) (fault : Bool) (a : FrameAcc) (s : State) : State :=
  let pre := { keyPrefix k i a.count with fault := fault }
  let body := if k.scale then Payload.exps pre a.exps else Payload.lanes pre a.lanes
  if k.path1 then sendPartial dst 62 (slotOf q * 65536 + kthOf s k i a.f * 4096) body s
  else sendPartial dst 61 (slotOf q * 4194304 + a.f * 4096) body s

/-! ### Own contributions (R108 to R110) -/

/-- A contribution element. -/
def sourceWord (s : State) (c : CollEntry) (n : Nat) : Nat :=
  ofLe (hbmRaw s (c.source + n * fmtBytes c.inType) (fmtBytes c.inType))

/-- The exponent lane of a collective's contribution (R108). -/
def expLane (s : State) (c : CollEntry) : Int :=
  (List.range c.elems).foldl (fun acc n =>
    match exponentOf c.inType (sourceWord s c n) with
    | some x => max acc x
    | none => acc) (-32768)

/-- The own exponent lanes of a frame (R108). -/
def ownExps (s : State) (i : RInfo) (f : Nat) : List Int :=
  match s.plans.active with
  | none => []
  | some p => (List.range (i.frameLen f)).map fun j =>
      match (collsOfTurn p i.entry).find? fun c => c.2.expIndex = i.base + i.per * f + j with
      | some c => expLane s c.2
      | none => -32768

/-- The shared exponent of a collective; −32,768 where none is held (R28, R108). -/
def expOf (s : State) (c : Nat) : Int := getKey c (-32768) s.red.exps

/-- The own lanes of a frame with the counts of saturated and poisoned lanes (R110). -/
def ownLanes (s : State) (k : RKey) (i : RInfo) (f : Nat) : List Lane × Nat × Nat :=
  match s.plans.active.bind fun p => p.colls[k.coll]? with
  | none => ([], 0, 0)
  | some c =>
    let qs := (List.range (i.frameLen f)).map fun j => quantize c.inType (sourceWord s c (i.base + i.per * f + j)) (expOf s k.coll)
    (qs.map fun q => q.1, (qs.filter fun q => q.2.1).length, (qs.filter fun q => q.2.2).length)

/-! ### The reaches held -/

/-- The key of a reach. -/
def Reach.key (r : Reach) : RKey := ⟨r.scale, r.coll, r.reach, r.path1, r.retry⟩

/-- The reach of a key, open or closed in this step. -/
def reachAt (s : State) (k : RKey) : Option Reach := s.red.reaches.find? fun r => r.key = k

/-- Whether this chip knows of a RESIDUE_FAULT in a reach, on whichever path, in a retry or in its result (R130). -/
def reachFault (s : State) (k : RKey) : Bool :=
  (s.red.reaches.any fun r => r.scale = k.scale && r.coll = k.coll && r.reach = k.reach && r.fault) ||
    (resultOf s k).any fun r => r.fault

/-- The reach of a key changed. -/
def updReach (k : RKey) (f : Reach → Reach) (s : State) : State :=
  { s with red.reaches := s.red.reaches.map fun r => if r.key = k then f r else r }

/-- The number q of a reach in its turn (R118). -/
def reachNo (s : State) (k : RKey) : Nat :=
  match s.plans.active, infoOf s { k with path1 := false, retry := false } with
  | some p, some i =>
    if k.scale then k.reach
    else sumOf (((collsOfTurn p i.entry).filter fun c => c.1 < k.coll).map fun c => reachCount c.2) + k.reach
  | _, _ => 0

/-- Frames added lane by lane; how many adders found their residues apart (R112). -/
def addFrames (xs ys : List Lane) : List Lane × Nat :=
  let zs := (xs.zip ys).map fun p => addLanes p.1 p.2
  (zs.map fun z => z.1, (zs.filter fun z => z.2).length)

/-- A contribution added into a frame, `kid` the member it comes from, none for this chip's own. -/
def addInto (k : RKey) (f n : Nat) (kid : Option Nat) (lanes : List Lane) (exps : List Int) (s : State) : State :=
  match (reachAt s k).bind fun r => r.frames.find? fun a => a.f = f with
  | none => s
  | some a =>
    let (sum, faults) := addFrames a.lanes lanes
    let a' := { a with
      lanes := sum, exps := (a.exps.zip exps).map (fun p => max p.1 p.2), count := a.count + n,
      kids := match kid with
        | some m => unionIdx a.kids [m]
        | none => a.kids }
    let s := updReach k (fun r => { r with
      frames := r.frames.map fun b => if b.f = f then a' else b, fault := r.fault || decide (0 < faults) }) s
    if faults = 0 then s else count Reg.redResidue faults s

/-- A reach opened, its frames at zero (R118). -/
def newReach (k : RKey) (i : RInfo) (s : State) : State :=
  if (reachAt s k).isSome then s
  else
    let frames := (keyFrames s k i).map fun f => ({
      f := f,
      lanes := if k.scale then [] else List.replicate (i.frameLen f) ⟨0, 0⟩,
      exps := if k.scale then List.replicate (i.frameLen f) (-32768) else [] } : FrameAcc)
    let r : Reach := {
                       turn := i.turn, scale := k.scale, coll := k.coll, reach := k.reach, q := reachNo s k, path1 := k.path1,
                       retry := k.retry, frames := frames }
    { s with red.reaches := s.red.reaches ++ [r] }

/-! ### Results (R124 to R126, R131) -/

/-- What a result's arrival changes at this chip. -/
def updResult (k : RKey) (f : ReachResult → ReachResult) (s : State) : State :=
  let new : ReachResult := { scale := k.scale, coll := k.coll, reach := k.reach }
  let s := if (resultOf s k).isSome then s else { s with red.results := s.red.results ++ [new] }
  { s with red.results := s.red.results.map fun r => if r.scale = k.scale ∧ r.coll = k.coll ∧ r.reach = k.reach then f r else r }

/-- A residue fault recorded for the step (R29, R130). -/
def noteResidue (c : Nat) (s : State) : State := { s with red.residue := unionIdx s.red.residue [c] }

/-- Exponents of a SCALE result frame taken, and the cistern scales written (R28, R108). -/
def takeExps (k : RKey) (i : RInfo) (f : Nat) (es : List Int) (s : State) : State :=
  match s.plans.active with
  | none => s
  | some p =>
    (collsOfTurn p i.entry).foldl (fun s c =>
      let lane := c.2.expIndex
      if i.base + i.per * f ≤ lane ∧ lane < i.base + i.per * f + es.length ∧ lane / 2091008 = k.reach then
        let x := es.getD (lane - (i.base + i.per * f)) (-32768)
        let s := { s with red.exps := putKey c.1 x s.red.exps }
        mergeWrite 3 (cisternBase s + scalesBase p + 2 * c.1) (le 2 (s16 x)) .escalation s
      else s) s

/-- A result frame checked, converted and written to the gradient slot (R124, R130, R131, R162). -/
def convertFrame (k : RKey) (i : RInfo) (f n : Nat) (fault : Bool) (ls : List Lane) (s : State) : State :=
  match s.plans.active with
  | none => s
  | some p =>
    match p.colls[k.coll]? with
    | none => s
    | some c =>
      let bad := (ls.filter fun l => !laneOk l).length
      let s := if bad = 0 then s else count Reg.redResidue bad s
      let s := if 0 < bad ∨ fault then updResult k (fun r => { r with fault := true }) (noteResidue k.coll s) else s
      let d := if c.op = 1 then n else 1
      let w := fmtBytes c.outType
      let ws := ls.map fun l => if n = 0 then 0 else convertLane c.outType l (expOf s k.coll) d
      let first := i.base + i.per * f
      let s := mergeWrite 3 (gradSlotAddr s p + c.resultOff + first * w) (ws.flatMap (le w)) .escalation s
      match p.tensors.find? fun t => t.id = c.tensorId with
      | some t => refreshTouch p t (putGrad (gradFrame t k.coll first ws) s)
      | none => s

/-- A result frame taken by this chip, once per frame. -/
def takeResult (k : RKey) (i : RInfo) (f n : Nat) (fault : Bool) (ls : List Lane) (es : List Int) (s : State) : State :=
  let s := if k.scale then takeExps k i f es s else convertFrame k i f n fault ls s
  updResult k (fun r =>
    if k.retry then { r with retryGot := unionIdx r.retryGot [f], fault := r.fault || fault }
    else { r with frames := unionIdx r.frames [f], fault := r.fault || fault }) s

/-- A result record taken by this chip (R109, R117, R130, R135, R136). -/
def takeRecord (k : RKey) (i : RInfo) (rec : ResultRec) (fault : Bool) (s : State) : State :=
  let s := if fault then noteResidue k.coll s else s
  let me := memberIn s i.box (here s)
  let s :=
    if k.scale && !rec.bitmap.contains me then
      match s.plans.active with
      | none => s
      | some p =>
        let out := ((collsOfTurn p i.entry).filter fun c => c.2.expIndex / 2091008 = k.reach).map fun c => c.1
        { s with red.excluded := unionIdx s.red.excluded out }
    else s
  let s := if rec.verdict = 2 then { s with red.dualFail := unionIdx s.red.dualFail [k.coll] } else s
  updResult k (fun r =>
    if k.retry then { r with retrySettled := true, fault := r.fault || fault }
    else { r with record := some rec, fault := r.fault || fault }) s

/-- The result record of a reach sent by its path-0 root, and taken by the root itself (R124, R134). -/
def sendResult (k : RKey) (i : RInfo) (fault : Bool) (rec : ResultRec) (s : State) : State :=
  let pre := { keyPrefix { k with path1 := false } i 0 with record := true, down := true, fault := fault }
  let s := sendTree (if k.retry then i.tree1 else i.tree0) 63 (slotOf (reachNo s k) * 4096) (.resultRecord pre rec) s
  takeRecord { k with path1 := false } i rec fault s

/-- The path-1 result of a sampled frame held at this root, if it has come (R133). -/
def path1Of (s : State) (k : RKey) (f : Nat) : Option Path1Frame :=
  s.red.path1.find? fun x => x.coll = k.coll ∧ x.reach = k.reach ∧ x.f = f ∧ x.retry = k.retry

/-- The class of a sampled frame: 0 unverified, 1 matched, 2 mismatched (R134). -/
def compareFrame (s : State) (k : RKey) (a : FrameAcc) : Nat :=
  match path1Of s k a.f with
  | none => 0
  | some x => if x.count ≠ a.count then 0 else if x.lanes = a.lanes then 1 else 2

/-- The comparison of a reach settled: when every path-1 result is in, or at D + 2 route bounds (R134). -/
def settleReach (force : Bool) (k : RKey) (i : RInfo) (s : State) : State :=
  match reachAt s k with
  | none => s
  | some r =>
    let fs := if k.scale then [] else sampledFrames s k i
    if !r.closed || (r.path1 || s.red.settled.contains (k.coll, k.reach) && !k.scale) ||
        !(force || fs.all fun f => (path1Of s k f).isSome) then s
    else
      let cls := fs.map fun f => (f, compareFrame s k ((r.frames.find? fun a => a.f = f).getD { f := f }))
      let n := fun c => (cls.filter fun x => x.2 = c).length
      let bad := (cls.filter fun x => x.2 = 2).map fun x => x.1
      let res : ResultRec := {
        compared := n 1, mismatched := n 2, unverified := n 0, retryList := bad.take 8,
        verdict := if 8 < bad.length then 2 else if bad.isEmpty then 0 else 1, bitmap := r.bitmap }
      let s := { s with red.settled := if k.scale then s.red.settled else s.red.settled ++ [(k.coll, k.reach)] }
      let s := count Reg.redDualCmp (n 1) (count Reg.redDualMiss (n 2) (count Reg.redUnverified (n 0) s))
      sendResult k i (reachFault s k) res s

/-- The path-0 root closes a reach: every result frame, then the record once the comparison is settled (R124). -/
def rootClose (k : RKey) (i : RInfo) (r : Reach) (s : State) : State :=
  let s := r.frames.foldl (fun s a =>
    let fault := reachFault s k
    let pre := { keyPrefix k i a.count with down := true, fault := fault }
    let body := if k.scale then Payload.exps pre a.exps else Payload.lanes pre a.lanes
    let s := sendTree i.tree0 61 (a.f * 4096) body s
    takeResult k i a.f a.count fault a.lanes a.exps s) s
  settleReach false k i s

/-- The path-1 root's final sampled frames sent to the path-0 root (R133). -/
def path1Close (k : RKey) (i : RInfo) (r : Reach) (s : State) : State :=
  r.frames.foldl (fun s a =>
    sendPartial (i.rootChip s false) 62 (1572864 + slotOf r.q * 65536 + kthOf s k i a.f * 4096)
      (.lanes { keyPrefix k i a.count with fault := reachFault s k } a.lanes) s) s

/-- The retry's comparison at its path-0 root at Dr (R135): matching frames on tree 1 with a settled record, else DUAL_PATH_MISMATCH. -/
def retryClose (k : RKey) (i : RInfo) (s : State) : State :=
  let kids := retryFrames s k
  match reachAt s k, (resultOf s k).bind ReachResult.record with
  | some r, some old =>
    let whole := r.ownDone && ((kidsOf s k i).all fun c => r.records.contains (memberIn s i.box c))
    let ok := whole && kids.all fun f =>
      compareFrame s k ((r.frames.find? fun a => a.f = f).getD { f := f }) = 1
    let s := updReach k (fun r => { r with closed := true }) s
    if ok then
      let s := r.frames.foldl (fun s a =>
        let fault := reachFault s k
        let s := sendTree i.tree1 61 (a.f * 4096) (.lanes { keyPrefix k i a.count with down := true, fault := fault } a.lanes) s
        takeResult k i a.f a.count fault a.lanes [] s) s
      sendResult k i (reachFault s k) { old with verdict := 0 } s
    else sendResult k i (reachFault s k) { old with verdict := 2 } s
  | _, _ => s

/-! ### Progress of a reach (R121, R123) -/

/-- Whether a frame holds everything it waits for. -/
def frameReady (r : Reach) (kids : List Nat) (a : FrameAcc) : Bool :=
  r.ownDone && kids.all fun m => r.cut.contains m || a.kids.contains m

/-- Whether an earlier reach of the same turn and path still has frames to issue here (R118). -/
def earlierOpen (s : State) (r : Reach) : Bool :=
  s.red.reaches.any fun x => x.turn = r.turn && x.path1 = r.path1 && x.retry = r.retry && decide (x.q < r.q) && !x.closed &&
    (match infoOf s x.key with
      | some i => (parentFor s x.key i).isSome
      | none => false)

/-- The bitmap of a reach at its close: the records' union, with the own bit when all own frames are in (R123). -/
def closeBitmap (s : State) (i : RInfo) (r : Reach) : List Nat :=
  if r.ownIn then unionIdx r.bitmap [memberIn s i.box (here s)] else r.bitmap

/-- The frames of a reach that may go, in ascending order; all that are left when `force` (R118, R121). -/
def sendReady (force : Bool) (dst : Coord) (k : RKey) (i : RInfo) (kids : List Nat) : List FrameAcc → State → State
  | [], s => s
  | a :: rest, s =>
    match reachAt s k with
    | none => s
    | some r =>
      if a.sent then sendReady force dst k i kids rest s
      else if force || frameReady r kids a then
        let s := sendFrame dst k i r.q (reachFault s k) a s
        let s := updReach k (fun r => { r with frames := r.frames.map fun b => if b.f = a.f then { b with sent := true } else b }) s
        sendReady force dst k i kids rest s
      else s

/-- A reach taken as far as it can go: frames sent up, and, once every record and the own contribution are in (or `force`), its record,
and the reach closed (R121 to R124, R133). -/
def advanceReach (force : Bool) (k : RKey) (s : State) : State :=
  match infoOf s { k with retry := false }, reachAt s k with
  | some i, some r =>
    if r.closed then s
    else
      let kids := (kidsOf s k i).map (memberIn s i.box)
      let late := if force then kids.filter fun m => !(r.records.contains m || r.cut.contains m) else []
      let s := count Reg.redCuts late.length (updReach k (fun r => { r with cut := unionIdx r.cut late, ownDone := r.ownDone || force }) s)
      let full := force || (r.ownDone && kids.all fun m => r.records.contains m || r.cut.contains m)
      match parentFor s k i with
      | some dst =>
        if !force && earlierOpen s r then s
        else
          let s := sendReady force dst k i kids r.frames s
          match reachAt s k with
          | none => s
          | some r =>
            if full && r.frames.all (·.sent) then
              let pre := { keyPrefix k i 0 with record := true, fault := reachFault s k }
              let s := sendPartial dst 63 (slotOf r.q * 4096) (.upRecord pre (closeBitmap s i r)) s
              updReach k (fun r => { r with closed := true }) s
            else s
      | none =>
        if !full then s
        else if k.retry && !k.path1 then s
        else
          let r := (reachAt s k).getD r
          let r := { r with bitmap := closeBitmap s i r, closed := true }
          let s := updReach k (fun _ => r) s
          if k.path1 then path1Close k i r s else rootClose k i r s
  | _, _ => s

/-- The reaches open at this chip on a path, of every turn (R118). -/
def openOn (s : State) (path1 : Bool) : List Reach := s.red.reaches.filter fun r => r.path1 = path1 && !r.closed

/-- A reach opened for a key; one that still holds its slot, 24 reaches older, closes at once (R119). Where overlapping turns already hold
24 open reaches, the oldest of them closes in the same way (R118, R119, assumption 75). -/
def openFor (k : RKey) (i : RInfo) (s : State) : State :=
  if (reachAt s k).isSome then s
  else
    let q := reachNo s k
    let old := s.red.reaches.find? fun r =>
      r.turn = i.turn && r.path1 = k.path1 && r.retry = k.retry && !r.closed && decide (r.q + 24 ≤ q) && decide (slotOf r.q = slotOf q)
    let s := match old with
      | some r => advanceReach true r.key s
      | none =>
        match openOn s k.path1 with
        | r :: rest => if 24 ≤ rest.length + 1 then advanceReach true r.key s else s
        | [] => s
    newReach k i s

/-- Whether this chip's own contribution to a key is excluded (R91, R109, R234). -/
def ownExcluded (s : State) (k : RKey) (i : RInfo) : Bool :=
  s.red.out.contains i.turn || (!k.scale && (s.red.excluded.contains k.coll || !(s.red.exps.any fun e => e.1 = k.coll)))

/-- This chip's own contribution to a reach of one path added, or excluded (R109, R110). -/
def contribute (k : RKey) (s : State) : State :=
  match infoOf s { k with retry := false } with
  | none => s
  | some i =>
    let s := openFor k i s
    if (reachAt s k).any fun r => r.closed then s
    else if ownExcluded s k i || decide (cutoffAt s k i < s.ht) then updReach k (fun r => { r with ownDone := true }) s
    else
      let s := (keyFrames s k i).foldl (fun s f =>
        if k.scale then addInto k f 1 none [] (ownExps s i f) s
        else
          let (ls, sat, poison) := ownLanes s k i f
          let s := if k.path1 then s else count Reg.redSat sat (count Reg.redPoison poison s)
          addInto k f 1 none ls [] s) s
      updReach k (fun r => { r with ownDone := true, ownIn := true }) s

/-- The keys of a turn's reaches in the order of q (R118). -/
def turnKeys (p : Plan) (t : TurnEntry) : List RKey :=
  if t.kind = Kind.scale then
    match collsOfTurn p t with
    | [] => []
    | (c, _) :: _ => (List.range (ceilDiv (scaleLanes p t) 2091008)).map fun r => { scale := true, coll := c, reach := r }
  else (collsOfTurn p t).flatMap fun c => (List.range (reachCount c.2)).map fun r => { scale := false, coll := c.1, reach := r }

/-- Own contributions of a turn begun while fewer than 24 of its reaches are open (R118). -/
def pumpTurn (i : Nat) : Nat → State → State
  | 0, s => s
  | n + 1, s =>
    match s.plans.active.bind fun p => (p.turns[i]?).map fun t => turnKeys p t with
    | none => s
    | some keys =>
      let q := getKey i 0 s.red.nextQ
      match keys[q]? with
      | none => s
      | some k =>
        let busy := (s.red.reaches.any fun r => r.turn = i && !r.closed && decide (r.q < q) && decide (slotOf r.q = slotOf q)) ||
          ((reachAt s k).isNone && decide (24 ≤ (openOn s false).length))
        if busy || s.red.aborted.contains k.coll then
          (if busy then s else pumpTurn i n { s with red.nextQ := putKey i (q + 1) s.red.nextQ })
        else
          let s := { s with red.nextQ := putKey i (q + 1) s.red.nextQ }
          let s := contribute k s
          let s := match infoOf s k with
            | some inf => if (sampledFrames s k inf).isEmpty then s else contribute { k with path1 := true } s
            | none => s
          let s := advanceReach false { k with path1 := true } (advanceReach false k s)
          pumpTurn i n s

/-! ### The retry (R135) -/

/-- The retry of one reach begun at this chip on both paths. -/
def retryReach (k : RKey) (i : RInfo) (counted : Bool) (s : State) : State :=
  let s := { s with red.retried := unionIdx s.red.retried [k.coll] }
  [false, true].foldl (fun s path =>
    let rk := { k with path1 := path, retry := true }
    let s := if counted then contribute rk s else updReach rk (fun r => { r with ownDone := true }) (openFor rk i s)
    advanceReach false rk s) s

/-- A key put in its place among keys in ascending order of q (R118). -/
def insertByNo (s : State) (k : RKey) : List RKey → List RKey
  | [] => [k]
  | x :: xs => if reachNo s k < reachNo s x then k :: x :: xs else x :: insertByNo s k xs

/-- The reaches marked "retry pending" whose retry has not begun here, in ascending order of q (R118, R135). -/
def pendingRetries (s : State) : List RKey :=
  (s.red.results.filterMap fun res =>
    let k : RKey := { scale := res.scale, coll := res.coll, reach := res.reach }
    let begun := (reachAt s { k with retry := true }).any fun r => r.ownDone
    if res.scale || begun || s.red.aborted.contains res.coll || !(res.record.any fun rec => rec.verdict = 1) then none else some k).foldl
    (fun acc k => insertByNo s k acc) []

/-- The retries of the reaches marked so begin while the retry GAP runs, each once its slot is free (R98, R118, R135). -/
def pumpRetry (s : State) : State :=
  if !(s.step.turns.any fun r => r.phase = 1 && r.kind = Kind.gap && bit 0 r.entry.flags && r.step = stepNum s) then s
  else
    (pendingRetries s).foldl (fun s k =>
      match infoOf s k, (resultOf s k).bind ReachResult.record with
      | some i, some rec =>
        let q := reachNo s k
        let busy := ((openOn s false).any fun r => r.retry && r.turn = i.turn && decide (r.q < q) && decide (slotOf r.q = slotOf q)) ||
          ((reachAt s { k with retry := true }).isNone && decide (24 ≤ (openOn s false).length))
        if busy then s else retryReach k i (rec.bitmap.contains (memberIn s i.box (here s))) s
      | _, _ => s) s

/-- Every reach of the step taken as far as it can go, own contributions and retries included. -/
def pumpReduction (s : State) : State :=
  let s := s.red.reaches.foldl (fun s r => advanceReach false r.key s) s
  pumpRetry (s.red.begun.foldl (fun s i => pumpTurn i (match s.plans.active.bind fun p => p.turns[i]? with
    | some t => 24 + (match s.plans.active with | some p => (turnKeys p t).length | none => 0)
    | none => 0) s) s)

/-! ### Aborts (R128) -/

/-- Every collective that an abort of a key concerns. -/
def abortedColls (s : State) (k : RKey) : List Nat :=
  if !k.scale then [k.coll]
  else
    match s.plans.active, infoOf s { k with path1 := false, retry := false } with
    | some p, some i => (collsOfTurn p i.entry).map fun c => c.1
    | _, _ => [k.coll]

/-- The collective discarded at this chip (R128). -/
def discardColl (k : RKey) (s : State) : State :=
  let cs := abortedColls s k
  { s with
    red.aborted := unionIdx s.red.aborted cs,
    red.reaches := s.red.reaches.map fun r => if r.scale = k.scale ∧ r.coll = k.coll then { r with closed := true } else r,
    red.results := s.red.results.filter fun r => !(r.scale = k.scale ∧ r.coll = k.coll) }

/-- An abort begun or passed on: to the parent, each time, or to both roots where there is none; the path-0 root multicasts it in place of
results it has not sent. A root passes it on once, or two roots would send it to each other without end (R128, assumption 76). -/
def abortUp (k : RKey) (s : State) : State :=
    match infoOf s { k with retry := false } with
    | none => s
    | some i =>
      let pre := { keyPrefix k i 0 with record := true, abort := true }
      let off := slotOf (reachNo s k) * 4096
      let s := match parentFor s k i with
        | some dst => sendPartial dst 63 off (.abortRecord pre) s
        | none =>
          if s.red.aborted.contains k.coll then s else
          let other := i.rootChip s (!k.path1)
          let s := if i.dual && other ≠ here s then sendPartial other 63 off (.abortRecord { pre with path := !k.path1 }) s else s
          if i.rootChip s false = here s then sendTree i.tree0 63 off (.abortRecord { pre with down := true, path := false }) s else s
      discardColl k s

/-! ### Arrival of packets (R122, R128, R129) -/

/-- The key of a prefix. -/
def keyOf (p : Prefix) : RKey := ⟨p.scale, p.coll, p.reach, p.path, p.retry⟩

/-- The frame that a packet's offset names: the k-th sampled frame of the reach on path 1, frame f on path 0, if the frames of its key
hold it (R116). -/
def frameNamed (s : State) (k : RKey) (i : RInfo) (offset : Nat) : Option Nat :=
  let f := if k.path1 then (sampledFrames s k i)[offset % 65536 / 4096]? else some (offset % 4194304 / 4096)
  f.bind fun f => if (keyFrames s k i).contains f then some f else none

/-- What becomes of an upward or downward packet before its effect: 0 discarded without a word, 1 foreign, 2 digest differs, 3 good
(R128, R129). -/
def judgePacket (s : State) (p : Prefix) (sender : Coord) (down : Bool) (offset : Nat) : Nat :=
  if s.red.checkStarted then 0
  else
    let k := keyOf p
    match infoOf s { k with path1 := false, retry := false } with
    | none => 1
    | some i =>
      if k.path1 && !i.dual then 1
      else if !p.record && (frameNamed s k i offset).isNone then 1
      else if down then (if sender ≠ i.rootChip s false then 1 else if p.digest ≠ i.digest then 2 else 3)
      else if !(kidsOf s k i).contains sender then 1
      else if p.digest ≠ i.digest then 2 else 3

/-- The effect of a packet once judged: counted, aborted, or what `go` does with a good one. -/
def withPacket (p : Prefix) (sender : Coord) (down : Bool) (offset : Nat) (go : RInfo → State → State) (s : State) : State :=
  let v := judgePacket s p sender down offset
  if v = 0 then s
  else if v = 1 then count Reg.redDigest 1 s
  else if v = 2 then abortUp (keyOf p) (count Reg.redDigest 1 s)
  else
    match infoOf s { keyOf p with path1 := false, retry := false } with
    | some i => if s.red.aborted.contains p.coll then s else go i s
    | none => s

/-- A list cut or filled to a length: the receiver derives the length of a frame itself (R115). -/
def fitTo {α : Type} (n : Nat) (x : α) (xs : List α) : List α := xs.take n ++ List.replicate (n - xs.length) x

/-- An upward frame of a child added, or discarded as late (R122); a frame that the child has sent already changes nothing (assumption 25). -/
def upFrame (p : Prefix) (sender : Coord) (offset : Nat) (lanes : List Lane) (exps : List Int) (s : State) : State :=
  withPacket p sender false offset (fun i s =>
    let k := keyOf p
    match frameNamed s k i offset with
    | none => s
    | some f =>
      let closed : Bool := (match reachAt s k with
        | some r => r.closed || r.cut.contains (memberIn s i.box sender)
        | none => false)
      let twice := (reachAt s k).any fun r => r.frames.any fun a => a.f = f && a.kids.contains (memberIn s i.box sender)
      if closed || decide (cutoffAt s k i < s.ht) then count Reg.redLate 1 s
      else if twice then s
      else
        let s := openFor k i s
        let s := addInto k f p.count (some (memberIn s i.box sender)) (if k.scale then [] else fitTo (i.frameLen f) ⟨0, 0⟩ lanes) (if k.scale then fitTo (i.frameLen f) 0 exps else []) s
        let s := if p.fault then updReach k (fun r => { r with fault := true }) s else s
        pumpReduction s) s

/-- An upward record of a child merged, or discarded as late (R122, R123). -/
def upRecord (p : Prefix) (sender : Coord) (bitmap : List Nat) (s : State) : State :=
  withPacket p sender false 0 (fun i s =>
    let k := keyOf p
    let m := memberIn s i.box sender
    let closed : Bool := (match reachAt s k with
      | some r => r.closed || r.cut.contains m
      | none => false)
    if closed || decide (cutoffAt s k i < s.ht) then count Reg.redLate 1 s
    else
      let s := openFor k i s
      let s := updReach k (fun r => { r with
        records := unionIdx r.records [m], bitmap := unionIdx r.bitmap (bitmap.filter (· < i.box.size)), fault := r.fault || p.fault }) s
      pumpReduction s) s

end Sys2Proof.Machine
end

