-- ==== Sys2Proof/Machine/Kazner.lean ====
section
/-! DEFINITION. Kazner plane coding: byte planes, the codes C0 to C7, frames and their decoding (R277 to R279). -/

namespace Sys2Proof.Machine

open Sys2Proof

/-! ### Coding a plane (R277) -/

/-- The values z of a plane's successive differences. -/
def planeZ : Byte → Bytes → List Nat
  | _, [] => []
  | prev, b :: bs =>
    let d := (b - prev).toNat
    (if d < 128 then 2 * d else 2 * (256 - d) - 1) :: planeZ b bs

/-- The `n` low bits of a number, least significant first. -/
def lowBits : Nat → Nat → List Bool
  | 0, _ => []
  | n + 1, v => decide (v % 2 = 1) :: lowBits n (v / 2)

/-- The bits of one value under C_r. -/
def riceBits (r z : Nat) : List Bool :=
  let q := z / 2 ^ r
  if 16 ≤ q then List.replicate 16 true ++ lowBits 8 z else List.replicate q true ++ false :: lowBits r z

/-- Bits packed into bytes from bit 0 of the first upward, the last byte padded with zeros; `n` bytes at most. -/
def packCode : Nat → List Bool → Bytes
  | 0, _ => []
  | n + 1, bs =>
    if bs.isEmpty then []
    else BitVec.ofNat 8 ((bs.take 8).foldr (fun b acc => b2n b + 2 * acc) 0) :: packCode n (bs.drop 8)

/-- The bytes of a plane under C_r. -/
def ricePlane (r : Nat) (zs : List Nat) : Bytes :=
  let bs := zs.flatMap (riceBits r)
  packCode (ceilDiv bs.length 8) bs

/-- The mode and the coded bytes of a plane: the smallest, the lowest mode on a tie (R277). -/
def codePlane (plane : Bytes) : Nat × Bytes :=
  if plane.all (· = plane.headD 0) then (1, [plane.headD 0])
  else
    let zs := planeZ 0 plane
    (List.range 8).foldl (fun best r =>
      let c := ricePlane r zs
      if c.length < best.2.length then (2 + r, c) else best) (0, plane)

/-! ### Frames (R278) -/

/-- Byte j of every value of `w` bytes. -/
def planeOf (w j : Nat) (chunk : Bytes) : Bytes := ((indexed 0 chunk).filter fun e => e.1 % w = j).map fun e => e.2

/-- The frame of a chunk. -/
def frameOf (w chunkNo : Nat) (chunk : Bytes) : Bytes :=
  let planes := (List.range w).map fun j => codePlane (planeOf w j chunk)
  let len := roundUp (8 + 4 * w + sumOf (planes.map fun p => p.2.length)) 8
  padTo 8 (le 4 len ++ le 1 w ++ le 1 0 ++ le 2 chunkNo ++ planes.flatMap (fun p => le 4 (p.2.length + p.1 * 2 ^ 24)) ++
    planes.flatMap fun p => p.2)

/-! ### Decoding (R279) -/

/-- The bits of bytes, from bit 0 of the first upward. -/
def unpackCode (bs : Bytes) : List Bool := bs.flatMap fun b => lowBits 8 b.toNat

/-- The number that bits spell, least significant first. -/
def bitsVal (bs : List Bool) : Nat := bs.foldr (fun b acc => b2n b + 2 * acc) 0

/-- The difference that a value z stands for. -/
def zDelta (z : Nat) : Byte := if z % 2 = 0 then BitVec.ofNat 8 (z / 2) else BitVec.ofNat 8 (256 - (z + 1) / 2)

/-- `n` bytes decoded from a bitstream under C_r; none when it ends too early. -/
def unrice (r : Nat) : Nat → Byte → List Bool → Option Bytes
  | 0, _, _ => some []
  | n + 1, prev, bs =>
    let q := (bs.takeWhile id).length
    let z : Option (Nat × List Bool) :=
      if 16 ≤ q then (if bs.length < 24 then none else some (bitsVal ((bs.drop 16).take 8), bs.drop 24))
      else if bs.length < q + 1 + r then none
      else some (q * 2 ^ r + bitsVal ((bs.drop (q + 1)).take r), bs.drop (q + 1 + r))
    match z with
    | none => none
    | some (z, rest) =>
      let b := prev + zDelta z
      (unrice r n b rest).map fun bs => b :: bs

/-- A plane of `n` bytes from its mode and coded bytes; none when malformed. -/
def decodePlane (n mode : Nat) (coded : Bytes) : Option Bytes :=
  if mode = 0 then (if coded.length < n then none else some (coded.take n))
  else if mode = 1 then coded.head?.map fun b => List.replicate n b
  else if mode < 10 then unrice (mode - 2) n 0 (unpackCode coded)
  else none

/-- The planes of a frame, from their headers and the coded bytes that follow. -/
def decodePlanes (n : Nat) : List Nat → Bytes → Option (List Bytes)
  | [], _ => some []
  | h :: hs, bs =>
    match decodePlane n (bits 27 24 h) (bs.take (bits 23 0 h)), decodePlanes n hs (bs.drop (bits 23 0 h)) with
    | some p, some ps => some (p :: ps)
    | _, _ => none

/-- Values put together again from their planes. -/
def interleave : Nat → List Bytes → Bytes
  | 0, _ => []
  | n + 1, ps => ps.map (·.headD 0) ++ interleave n (ps.map (·.drop 1))

/-- The chunk of a frame whose bytes begin a sequence; none when it is malformed (R279). -/
def decodeFrame (bs : Bytes) : Option Bytes :=
  let len := field 0 4 bs
  let w := field 4 1 bs
  if !(w = 1 ∨ w = 2 ∨ w = 4) then none
  else
    let hs := (List.range w).map fun j => field (8 + 4 * j) 4 bs
    let used := 8 + 4 * w + sumOf (hs.map (bits 23 0))
    if used ≤ len ∧ len ≤ used + 7 ∧ len ≤ bs.length then
      (decodePlanes (65536 / w) hs (bs.drop (8 + 4 * w))).map (interleave (65536 / w))
    else none

end Sys2Proof.Machine
end

