-- ==== Sys2Proof/Machine/Pond.lean ====
section
/-! DEFINITION. The pond copy and its record, shards, snapshot slots, drains, and what reads a slot back (R271 to R299, R302 to R305). -/

namespace Sys2Proof.Machine

open Sys2Proof

/-! ### The pond record (R272) -/

/-- Physical address of the pond record as a plan places it (R454). -/
def pondRecAddr (s : State) (p : Plan) : Nat := cisternBase s + pondRecArea s p

/-- The header of the pond record with a state code (R272). -/
def pondHeader (s : State) (p : Plan) (st : Nat) : Bytes :=
  slice 0 4096 (le 4 st ++ le 4 (committedWord s) ++ le 8 s.step.commitAt ++ le 4 (s.plans.lastCommitId.getD p.id) ++ le 2 (tagOf s) ++ le 2 0 ++
    le 4 p.geom ++ le 8 (plotChunks s * 65536) ++ le 4 (committedWord s + 1) ++ le 4 p.tensors.length ++ le 4 p.colls.length ++
    le 4 (b2n s.step.polarity) ++ le 8 (s.pond.copies + 1))

/-- The state field written, and the registers that show it (R273, R298). -/
def setPondState (st step : Nat) (s : State) : State := regPut Reg.pondStep step (regPut Reg.pondState st s)

/-- State 1 written: the copy that the pond held is lost (R273, R274). -/
def startCopy (p : Plan) (s : State) : State :=
  let s := mergeWrite 3 (pondRecAddr s p) (le 4 1) .escalation s
  setPondState 1 0xFFFFFFFF { s with pond.recAt := some (pondRecAddr s p) }

/-- Bytes of the exponents and of the health history that a record holds. -/
def expBytes (p : Plan) : Nat := 2 * p.colls.length
/-- Bytes of the health history of a plan (R165). -/
def healthSize (p : Plan) : Nat := 8 * p.tensors.length * 32

/-- The pond's record, its body before its header, and the state 2 in force with it. -/
def writePondRecord (p : Plan) (body : Bytes) (s : State) : State :=
  let a := pondRecAddr s p
  let body := padTo 4096 body
  let s := storePages 3 (body.length / 4096) (a + 4096) body s
  let s := storePage 3 a (pondHeader s p 1) s
  let s := storePage 3 a (pondHeader s p 2) s
  setPondState 2 (committedWord s) { s with pond.copies := s.pond.copies + 1, pond.epoch := s.pond.commitEpoch }

/-- The record's fields and copies, then state 2 (R273). Pages that could not be read are escalated, and the copy waits for them. -/
def finishCopy (p : Plan) (s : State) : Bool × State :=
  let e := readSpan 3 (cisternBase s + scalesBase p) (expBytes p) {} s
  let h := readSpan 3 (cisternBase e.2.2 + healthArea e.2.2 p) (healthSize p) {} e.2.2
  let bad := e.2.1 ++ h.2.1
  if !bad.isEmpty then (false, escalateAll 3 bad .pond h.2.2) else (true, writePondRecord p (slice 0 131072 e.1 ++ h.1) h.2.2)

/-- The plan under which a copy runs to its end: the one active when its turn began, the standby one for a SNAP_POND (R92, R273, R276). -/
def copyPlan (c : PondCopy) : Option Plan := c.plan

/-- Whether a repair that a pond copy waits for is in progress. -/
def pondWaits (s : State) : Bool := s.guard.attempts.any fun a => a.forWhom = .pond

/-- Whether the channel caps hold a copy's next chunk back: not that of a turn, which claims the HBM share (R44, R45). -/
def copyHeld (s : State) (c : PondCopy) : Bool :=
  c.turn.isNone && !(channelRoom s (plotBase s + c.next * 65536) && channelRoom s (pondBase s + c.next * 65536))

/-- One chunk of a copy read and written (R273). -/
def copyChunk (c : PondCopy) (s : State) : State :=
  let r := readChunk 0 c.next {} s
  if r.2.1.isEmpty then { storeChunk 2 c.next r.1 r.2.2 with pond.copy := some { c with next := c.next + 1 } }
  else escalateAll 0 r.2.1 .pond r.2.2

/-- Chunks copied in ascending order, `n` at most; how many were left of the `n` (R273). -/
def copyChunks : Nat → State → Nat × State
  | 0, s => (0, s)
  | n + 1, s =>
    match s.pond.copy with
    | none => (n + 1, s)
    | some c =>
      if c.failed || pondWaits s || plotChunks s ≤ c.next || copyHeld s c then (n + 1, s)
      else copyChunks n (charge (traffic s) (copyChunk c s))

/-! ### Slots (R283 to R286) -/

/-- Snapshot slots N. -/
def slotCount (s : State) : Nat := bits 3 0 (regNat s Reg.snapCfgF)
/-- Bytes of a slot. -/
def slotSize (s : State) : Nat := (s.fw.flashLen - 2 ^ 32) / max (slotCount s) 1 / 4096 * 4096
/-- Partition offset of a slot. -/
def slotBase (s : State) (i : Nat) : Nat := 2 ^ 32 + i * slotSize s
/-- The manifest unit of a slot. -/
def manifestOf (s : State) (i : Nat) : Bytes := flashRead s (slotBase s i) 4096
/-- Entries of a slot's shard table. -/
def tableCount (m : Bytes) : Nat := field 48 4 m
/-- A slot's shard table, padding excluded. -/
def slotTable (s : State) (i : Nat) : Bytes := flashRead s (slotBase s i + 4096) (32 * tableCount (manifestOf s i))
/-- Whether a slot is valid: its manifest and its table can be read and are whole (R63, R285). -/
def slotValid (s : State) (i : Nat) : Bool :=
  let m := manifestOf s i
  decide (i < slotCount s) && unitsGood s (slotBase s i) 4096 && unitsGood s (slotBase s i + 4096) (32 * tableCount m) && field 0 4 m == 0x54534E4D && field 4 2 m == 2 && field 4092 4 m == crc32c (m.take 4092) &&
    field 64 4 m == crc32c (slotTable s i)
/-- Sequence of a manifest. -/
def slotSeq (s : State) (i : Nat) : Nat := field 8 8 (manifestOf s i)
/-- Step of a manifest. -/
def slotStep (s : State) (i : Nat) : Nat := field 20 4 (manifestOf s i)
/-- The valid slots. -/
def validSlots (s : State) : List Nat := (List.range (slotCount s)).filter (slotValid s)
/-- The newest valid slot (R285). -/
def newestSlot (s : State) : Option Nat :=
  (validSlots s).foldl (fun acc i => match acc with
    | none => some i
    | some j => if slotSeq s j < slotSeq s i then some i else some j) none
/-- The valid slot of lowest sequence among some. -/
def lowestSeq (s : State) (cs : List Nat) : Option Nat :=
  cs.foldl (fun acc i => match acc with
    | none => some i
    | some j => if slotSeq s i < slotSeq s j then some i else some j) none
/-- The target slot of a drain (R286). -/
def targetSlot (s : State) : Option Nat :=
  let cs := (List.range (slotCount s)).filter fun i =>
    !bit i (regNat s Reg.snapPin) && !(busySlots s).contains i
  match cs.find? fun i => !slotValid s i with
  | some i => some i
  | none => if 2 ≤ (validSlots s).length then lowestSeq s cs else none

/-- Whether a drain is writing slot i. -/
def slotWritten (s : State) (i : Nat) : Bool :=
  match s.pond.drain with
  | some d => !d.waitNext && d.slot = i
  | none => false

/-- OSE_SNAP_SLOT_STATE, but for its busy bits, and OSE_SNAP_SEQ brought up to date (R285, R298). -/
def refreshSlots (s : State) : State :=
  let newest := newestSlot s
  let word := sumOf ((List.range (slotCount s)).map fun i =>
    16 ^ i * ((if slotWritten s i then 1 else if slotValid s i then 2 else 0) + 8 * b2n (newest == some i)))
  regPut Reg.snapSeq (u32 ((newest.map (slotSeq s)).getD 0)) (regPut Reg.snapSlotState word s)

/-- A shard table entry of a valid slot. -/
def tableEntry (s : State) (i q : Nat) : Option Bytes :=
  let t := slotTable s i
  ((List.range (t.length / 32)).map fun n => slice (32 * n) 32 t).find? fun e => field 0 4 e = q

/-- Offset, stored bytes, checksum and chunks of a table entry whose shard is written in its slot. -/
def writtenEntry (s : State) (i q : Nat) : Option (Nat × Nat × Nat × Nat) :=
  match tableEntry s i q with
  | some e => if field 5 1 e = 0 then some (field 8 8 e, field 16 8 e, field 24 4 e, field 28 4 e) else none
  | none => none

/-! ### Shards (R280 to R282, R304, R305) -/

/-- The runs of an array: chunk offset and chunks (R280). -/
def runsOf (bytes : Nat) : List (Nat × Nat) :=
  let n := ceilDiv bytes 65536
  (List.range (ceilDiv n 16384)).map fun r => (16384 * r, min 16384 (n - 16384 * r))

/-- The shards of an array, numbered later. -/
def arrayShards (kind x operand plane addr bytes width : Nat) : List Shard :=
  (runsOf bytes).map fun r =>
    { q := 0, kind := kind, tensor := x, operand := operand, plane := plane, addr := addr + r.1 * 65536, chunks := r.2,
      first := r.1 * 65536 / width, width := width }

/-- The shards of a tensor (R280). -/
def tensorShards (x : Nat) (t : TensorEntry) : List Shard :=
  (indexed 0 t.ops).flatMap (fun jo =>
    if jo.2.fmt = 4 then
      arrayShards 0 x jo.1 1 jo.2.addr t.elems 1 ++ arrayShards 0 x jo.1 2 (planeAddr t jo.2) (ceilDiv t.elems 32) 1
    else arrayShards 0 x jo.1 0 jo.2.addr (t.elems * fmtBytes jo.2.fmt) (fmtBytes jo.2.fmt)) ++
  (if t.touchMode = 0 then [] else arrayShards 1 x 0 0 t.lastTouch (4 * unitCount t) 4)

/-- The shards of a pond under a plan, numbered (R280). -/
def shardsOf (s : State) (p : Plan) : List Shard :=
  let all := (indexed 0 p.tensors).flatMap (fun xt => tensorShards xt.1 xt.2) ++
    [{ q := 0, kind := 2, tensor := 0, operand := 0, plane := 0, addr := pondRecAddr s p, chunks := 64, first := 0, width := 1 }]
  (indexed 0 all).map fun e => { e.2 with q := e.1 }

/-- Items of the array that a shard belongs to, in its index unit (R305). -/
def arrayItems (t : TensorEntry) (kind plane : Nat) : Nat :=
  if kind = 1 then unitCount t else if plane = 2 then ceilDiv t.elems 32 else t.elems
/-- Items a shard holds. -/
def Shard.items (p : Plan) (x : Shard) : Nat :=
  match p.tensors[x.tensor]? with
  | some t => if x.kind = 2 then 0 else min (x.chunks * 65536 / x.width) (arrayItems t x.kind x.plane - x.first)
  | none => 0

/-- Elements of one item of an index unit (R305). -/
def itemUnit (t : TensorEntry) (kind plane : Nat) : Nat := if kind = 1 then unitSize t else if plane = 2 then 32 else 1

/-- A logical table entry: tensor id, global first, global count (R302). -/
def logicalEntry (s : State) (p : Plan) (x : Nat) : Nat × Nat × Nat :=
  let b := peekSpan s 3 (cisternBase s + logicalArea s p + 32 * x) 32
  (field 0 4 b, field 4 8 b, field 12 8 b)

/-- Whether a logical entry passes R303 for its tensor. -/
def logicalOk (s : State) (p : Plan) (xt : Nat × TensorEntry) : Bool :=
  let (id, first, total) := logicalEntry s p xt.1
  let t := xt.2
  let stop := first + t.elems
  let aligned := fun (u : Nat) => decide (first % u = 0) && (decide (stop % u = 0) || stop == total)
  id == t.id && decide (stop ≤ total) && (!t.ops.any (fun o => o.fmt = 4) || aligned 32) &&
    (t.touchMode ≠ 1 || aligned 2048) && (t.touchMode ≠ 2 || aligned (max t.rowLen 1))

/-- Whether every logical entry passes (R303). -/
def logicalAll (s : State) (p : Plan) : Bool := (indexed 0 p.tensors).all (logicalOk s p)

/-- The collective of a tensor, if it has one. -/
def collOfTensor (p : Plan) (t : TensorEntry) : Option CollEntry := p.colls.find? fun c => c.tensorId = t.id

/-- The plan that the pond record names, where it is loaded (R280, R276). -/
def pondPlan (s : State) : Option Plan :=
  (s.plans.active.toList ++ s.plans.standby.toList).find? fun p =>
    field 0 4 (peekSpan s 3 (pondRecAddr s p) 4) = 2 ∧ field 16 4 (peekSpan s 3 (pondRecAddr s p) 20) = p.id

/-- The shard record of a shard (R304): `h` is the header page of the pond record; the mode epoch is that of the copy's commit. -/
def shardRecord (s : State) (p : Plan) (h : Bytes) (x : Shard) (stored : Nat) : Bytes :=
  let t := p.tensors[x.tensor]?
  let g := (t.bind (collOfTensor p)).map CollEntry.box
  let (_, first, total) := logicalEntry s p x.tensor
  let unit := (t.map fun t => itemUnit t x.kind x.plane).getD 1
  let isRec := x.kind = 2
  let body := le 4 0x44524853 ++ le 2 2 ++ le 1 x.kind ++ le 1 x.operand ++ le 4 x.q ++ slice 4 4 h ++ slice 8 8 h ++ slice 16 4 h ++
    le 4 s.pond.epoch ++ slice 20 2 h ++ le 2 (coordWord (here s)) ++ slice 24 4 h ++ le 4 (jobChips s) ++
    le 4 (extA s + 64 * extB s + 4096 * extC s) ++ le 4 ((g.map fun b => coordWord b.origin).getD 0) ++
    le 4 ((g.map fun b => b.ext.a + 64 * b.ext.b + 4096 * b.ext.c).getD 0) ++
    le 4 (if isRec then 0 else (t.map TensorEntry.id).getD 0) ++
    le 1 (if x.kind = 0 then ((t.bind fun t => t.ops[x.operand]?).map Operand.fmt).getD 0 else 0) ++ le 1 x.plane ++
    le 1 (if isRec then 0 else (t.map TensorEntry.touchMode).getD 0) ++ le 1 0 ++
    le 8 (if isRec then 0 else first / max unit 1 + x.first) ++ le 8 (x.items p) ++ le 8 (if isRec then 0 else total) ++
    le 4 (if x.plane = 0 then 0 else 32) ++
    le 4 (if isRec then 0 else (t.map fun t => if t.touchMode = 0 then 0 else unitSize t).getD 0) ++
    le 4 x.chunks ++ le 4 stored
  let b := slice 0 4092 body
  b ++ le 4 (crc32c b)

/-- Bytes of a shard's frame table, padded. -/
def frameTableSize (chunks : Nat) : Nat := roundUp (4 * chunks) 4096
/-- The largest size of a shard (R282). -/
def worstShard (chunks : Nat) : Nat := 4096 + frameTableSize chunks + roundUp (65560 * chunks) 4096

/-- The frames' byte offsets from the shard's start. -/
def frameOffsets : Nat → List Bytes → Bytes
  | _, [] => []
  | a, f :: fs => le 4 a ++ frameOffsets (a + f.length) fs

/-- The stored bytes of a shard (R282). -/
def shardBytes (s : State) (p : Plan) (h : Bytes) (x : Shard) (frames : List Bytes) : Bytes :=
  let tbl := frameTableSize x.chunks
  let body := padTo 4096 (frames.flatMap id)
  let stored := 4096 + tbl + body.length
  shardRecord s p h x stored ++ slice 0 tbl (frameOffsets (4096 + tbl) frames) ++ body

/-- The owner of a shard: this chip, or another member of its group under deduplication (R281). -/
def shardOwner (s : State) (p : Plan) (x : Shard) : Coord :=
  if x.kind = 2 || !bit 4 (regNat s Reg.snapCfgF) then here s
  else
    match (p.tensors[x.tensor]?).bind (collOfTensor p) with
    | some c => if 1 < c.box.size then chipAt s c.box (offsetsOf c.box (x.q % c.box.size)) else here s
    | none => here s

/-- A shard table entry (R284). -/
def entryBytes (q kind disp : Nat) (owner : Coord) (off stored sum chunks : Nat) : Bytes :=
  le 4 q ++ le 1 kind ++ le 1 disp ++ le 2 (coordWord owner) ++ le 8 off ++ le 8 stored ++ le 4 sum ++ le 4 chunks

/-! ### Drains (R286 to R292) -/

/-- Put a changed drain in place. -/
def putDrain (d : Drain) (s : State) : State := { s with pond.drain := some d }

/-- A write into a slot, counted (R298). -/
def slotWrite (off : Nat) (bs : Bytes) (s : State) : State := wideAdd Reg.snapOutLo bs.length (flashWrite off bs s)

/-- A barrier issued to the flash controller (R62). -/
def issueBarrier (b : Barrier) (s : State) : State := { s with pond.barriers := s.pond.barriers ++ [b] }

/-- A drain over: the hold released, its descriptor completed (R290). -/
def endDrain (d : Drain) (r : Result) (s : State) : State :=
  let s := { s with pond.drain := none, pond.held := false, pond.barriers := s.pond.barriers.filter (· ≠ .drain) }
  match runningAt s d.ring d.idx with
  | some x => complete d.ring x r s
  | none => s

/-- Output of a drain that waits for the flash port, in bytes (R292). -/
def Drain.queued (d : Drain) : Nat := sumOf (d.out.map fun x => x.2.length)

/-- A drain begun on the pond as it stands: refused, answered by a slot that already holds the step, or its target's manifest unit to be
zeroed behind a barrier (R287, R290, R303). The record's header and the logical table are read. -/
def beginDrain (d : Drain) (s : State) : State :=
  if regNat s Reg.pondState % 4 ≠ 2 then endDrain d (refusedWith 0xE4) s
  else
    match pondPlan s with
    | none => endDrain d (refusedWith 0xE4) s
    | some p =>
      let r := readSpan 3 (pondRecAddr s p) 4096 {} s
      let l := readSpan 3 (cisternBase s + logicalArea s p) (32 * p.tensors.length) {} r.2.2
      let s := escalateAll 3 (r.2.1 ++ l.2.1) .escalation l.2.2
      if !(r.2.1 ++ l.2.1).isEmpty then endDrain d (refusedWith 0xE4) s
      else if !logicalAll s p then endDrain d (refusedWith 0xE3) s
      else
        match newestSlot s with
        | some i =>
          if slotStep s i = field 4 4 r.1 then
            endDrain d { detail := i, word := field 4 4 r.1, quad := slotSeq s i } s
          else begin_ p r.1 s
        | none => begin_ p r.1 s
where
  /-- The target chosen and its manifest to be zeroed. -/
  begin_ (p : Plan) (h : Bytes) (s : State) : State :=
    match targetSlot s with
    | none => endDrain d (refusedWith 0xE4) s
    | some i =>
      let all := shardsOf s p
      let mine := all.filter fun x => shardOwner s p x = here s
      let table := roundUp (32 * all.length) 4096
      if slotSize s < 4096 + table + sumOf (mine.map fun x => worstShard x.chunks) then endDrain d (refusedWith 0xE3) s
      else
        let seq := ((newestSlot s).map (slotSeq s)).getD 0 + 1
        refreshSlots (putDrain { d with waitNext := false, plan := some p, header := h, stage := 0, slot := i, seq := seq, todo := all,
                                        offset := 4096 + table, out := [(slotBase s i, zeros 4096)] } { s with pond.held := true })

/-- The region and chunk of a shard's chunk n, as the drain reads it. -/
def shardChunk (s : State) (x : Shard) (n : Nat) : Nat × Nat :=
  if x.kind = 2 then (3, (x.addr - cisternBase s) / 65536 + n) else (2, (x.addr - plotBase s) / 65536 + n)

/-- A shard settled with an entry in the table, and the drain at its next. -/
def nextShard (d : Drain) (e : Bytes) : Drain := { d with todo := d.todo.drop 1, entries := d.entries ++ [e], frames := [], nextChunk := 0 }

/-- The output of a shard's last chunk: the padding, the frame table and the record, behind its frames (R282, R292). -/
def shardTail (base : Nat) (all : Bytes) (tbl framed : Nat) : List (Nat × Bytes) :=
  [(base + 4096 + tbl + framed, all.drop (4096 + tbl + framed)), (base + 4096, slice 4096 tbl all), (base, all.take 4096)]

/-- A frame of a shard queued for the flash port, with what closes the shard where it was its last (R282, R292). -/
def queueFrame (p : Plan) (d : Drain) (x : Shard) (f : Bytes) (s : State) : State :=
  let base := slotBase s d.slot + d.offset
  let tbl := frameTableSize x.chunks
  let at_ := base + 4096 + tbl + sumOf (d.frames.map List.length)
  let d := { d with frames := d.frames ++ [f], nextChunk := d.nextChunk + 1, out := d.out ++ [(at_, f)] }
  if d.nextChunk < x.chunks then putDrain d s
  else
    let all := shardBytes s p d.header x d.frames
    let d := { d with out := d.out ++ shardTail base all tbl (sumOf (d.frames.map List.length)) }
    let d' := nextShard d (entryBytes x.q x.kind 0 (here s) d.offset all.length (crc32c all) x.chunks)
    putDrain { d' with offset := d.offset + all.length, stored := d.stored + all.length, written := d.written + 1 } s

/-- One chunk of a drain: a shard owned elsewhere is recorded as covered, an unreadable one as absent (R281, R289). Whether a chunk was
read. -/
def drainChunk (p : Plan) (d : Drain) (x : Shard) (s : State) : Bool × State :=
  let owner := shardOwner s p x
  if owner ≠ here s then
    (false, putDrain { nextShard d (entryBytes x.q x.kind 1 owner 0 0 0 x.chunks) with covered := d.covered + 1 } s)
  else
    let rc := shardChunk s x d.nextChunk
    let r := readChunk rc.1 rc.2 {} s
    let s := wideAdd Reg.snapSrcLo 65536 r.2.2
    let d := { d with src := d.src + 65536 }
    if r.2.1.isEmpty then (true, queueFrame p d x (frameOf x.width d.nextChunk r.1) s)
    else
      let s := escalateAll rc.1 r.2.1 .escalation s
      (true, putDrain { nextShard d (entryBytes x.q x.kind 2 (here s) 0 0 0 x.chunks) with absent := d.absent + 1 } (count Reg.snapAbsent 1 s))

/-- Whether a drain may read its next chunk: less than 8 MiB of output waits, and the channel has room (R45, R292). -/
def drainMay (s : State) (d : Drain) (x : Shard) : Bool :=
  let rc := shardChunk s x d.nextChunk
  decide (d.queued < 8 * 2 ^ 20) && channelRoom s (regionBase s rc.1 + rc.2 * 65536)

/-- A drain taken `n` chunks further, in the shards stage, while less than 8 MiB of output waits; what is left of `n` (R292). The fuel
covers the shards owned elsewhere. -/
def drainChunks : Nat → Nat → State → Nat × State
  | 0, n, s => (n, s)
  | fuel + 1, n, s =>
    match s.pond.drain with
    | none => (n, s)
    | some d =>
      match d.plan, d.todo with
      | some p, x :: _ =>
        if d.waitNext || d.stage ≠ 1 || s.refill.frozen then (n, s)
        else if shardOwner s p x = here s && (n = 0 || !drainMay s d x) then (n, s)
        else
          let r := drainChunk p d x s
          drainChunks fuel (if r.1 then n - 1 else n) (charge (traffic s) r.2)
      | _, _ => (n, s)

/-- The manifest of a drain (R284). -/
def manifestBytes (s : State) (d : Drain) : Bytes :=
  let h := d.header
  let body := le 4 0x54534E4D ++ le 2 2 ++ le 2 d.slot ++ le 8 d.seq ++ slice 20 2 h ++ le 2 (coordWord (here s)) ++ slice 4 4 h ++
    slice 16 4 h ++ slice 8 8 h ++ slice 24 4 h ++ slice 28 8 h ++ le 4 d.entries.length ++ le 4 (slotCount s) ++ le 8 d.offset ++
    le 4 (crc32c (d.entries.flatMap id)) ++ le 4 (jobChips s) ++
    le 4 (b2n (decide (0 < d.absent)) + 2 * b2n (bit 4 (regNat s Reg.snapCfgF)))
  let b := slice 0 4092 body
  b ++ le 4 (crc32c b)

/-- Waiting output issued to the flash port, in order, up to a number of bytes; what still waits (R292). -/
def issueOut : List (Nat × Bytes) → Nat → State → List (Nat × Bytes) × State
  | [], _, s => ([], s)
  | x :: xs, room, s =>
    if room = 0 then (x :: xs, s)
    else if x.2.length ≤ room then issueOut xs (room - x.2.length) (slotWrite x.1 x.2 s)
    else ((x.1 + room, x.2.drop room) :: xs, slotWrite x.1 (x.2.take room) s)

/-- What a drain does once its output is out: a barrier behind the zeroed manifest, the table and the manifest; the shard table after the last
shard (R287). -/
def drainNext (s : State) : State :=
  match s.pond.drain with
  | none => s
  | some d =>
    if d.waitNext || !d.out.isEmpty || s.pond.barriers.contains .drain then s
    else if d.stage = 1 then
      (if d.todo.isEmpty then
        putDrain { d with stage := 2, out := [(slotBase s d.slot + 4096, padTo 4096 (d.entries.flatMap id))] } s
      else s)
    else issueBarrier .drain s

/-- What a drain completes with (R379). -/
def drainResult (d : Drain) (status : Nat) : Result where
  status := status
  detail := d.slot
  word := field 4 4 d.header
  quad := d.seq
  second := (d.absent, d.src, d.stored, d.written + 2 ^ 32 * d.covered)

/-- The next part of a drain after a barrier: the shards, the manifest, or the snapshot committed (R287, R289, R290). -/
def drainBarrier (s : State) : State :=
  match s.pond.drain with
  | none => s
  | some d =>
    if s.refill.frozen then putDrain { d with due := true } s
    else if d.stage = 0 then putDrain { d with stage := 1, due := false } s
    else if d.stage = 2 then putDrain { d with stage := 3, due := false, out := [(slotBase s d.slot, manifestBytes s d)] } s
    else
      refreshSlots (count Reg.snapCommits 1 (endDrain d (drainResult d (if 0 < d.absent then Code.okPartial else Code.ok)) s))

/-- A step of a drain that has waited for the release (R291). -/
def resumeDrain (s : State) : State :=
  match s.pond.drain with
  | some d => if d.due then drainBarrier s else s
  | none => s

/-- The flash port's share of a window: output issued up to the cap, or up to the port's rate where none is set (R292). -/
def drainFlash (s : State) : State :=
  if s.refill.frozen then s
  else
    let s := drainNext (resumeDrain s)
    match s.pond.drain with
    | none => s
    | some d =>
      let cap := regNat s Reg.snapFlashCap
      let r := issueOut d.out (if cap = 0 then 5600000 else cap * 100000) s
      drainNext (putDrain { d with out := r.1 } r.2)

/-- The target of a drain that ends without its manifest is invalid (R288). -/
def voidTarget (s : State) : State :=
  match s.pond.drain with
  | some d => if d.waitNext then s else flashWrite (slotBase s d.slot) (zeros 4096) s
  | none => s

/-- A drain stopped by a flash write failure (R288). -/
def drainFailed (s : State) : State :=
  match s.pond.drain with
  | some d =>
    if d.waitNext then s
    else
      let s := count Reg.snapIncomplete 1 (voidTarget s)
      refreshSlots (endDrain d (drainResult d Code.manifestIncomplete) s)
  | none => s

/-- A drain that waits for the next copy takes the hold as the copy becomes valid (R290). -/
def drainAfterCopy (s : State) : State :=
  match s.pond.drain with
  | some d => if d.waitNext then beginDrain d s else s
  | none => s

/-- The end of a SNAP_POND. -/
def stopCopy (c : PondCopy) (r : Result) (s : State) : State :=
  let s := { s with pond.copy := none }
  match runningAt s c.ring c.idx with
  | some d => complete c.ring d r s
  | none => s

/-- The end of a copy whose chunks are all there: its record, and its completion unless a turn asked for it. -/
def closeCopy (c : PondCopy) (done : Bool) (s : State) : State :=
  if !done then s
  else drainAfterCopy (if c.turn.isSome then { s with pond.copy := none } else stopCopy c { word := committedWord s } s)

/-- What a copy's state after its chunks leads to: its failure, a wait, or its end. -/
def endCopy (s : State) : State :=
  match s.pond.copy with
  | none => s
  | some c =>
    if c.failed then if c.turn.isSome then s else stopCopy c { status := Code.pageUnrecoverable } s
    else if pondWaits s || decide (c.next < plotChunks s) then s
    else
      match copyPlan c with
      | none => s
      | some p =>
        let r := finishCopy p s
        closeCopy c r.1 r.2

/-- A pond copy carried on: its chunks, its record, and its end (R273, R274, R276). A turn's end is reported with the turn. -/
def continueCopy (n : Nat) (s : State) : Nat × State :=
  let r := copyChunks n s
  (r.1, endCopy r.2)

/-- A copy carried on as far as it goes. -/
def copyAll (s : State) : State := (continueCopy (plotChunks s + 1) s).2

/-- A turn's copy carried on after a repair. -/
def pokeCopy (s : State) : State :=
  match s.pond.copy with
  | some c => if c.turn.isSome then copyAll s else s
  | none => s

/-! ### Streaming (R295, R296) -/

/-- A frame of a shard in a slot: read through the frame table and decoded; none where a unit is uncorrectable or the frame malformed. -/
def slotFrame (s : State) (base stored n : Nat) : Option Bytes :=
  let at_ := base + 4096 + 4 * n
  let off := field 0 4 (flashRead s at_ 4)
  let len := field 0 4 (flashRead s (base + off) 4)
  if unitsGood s at_ 4 && decide (off + len ≤ stored) && unitsGood s (base + off) len then decodeFrame (flashRead s (base + off) len)
  else none

/-- A stream taken off the list and its descriptor completed. -/
def endStream (x : Stream) (d : Desc) (r : Result) (s : State) : State :=
  refreshSlots (complete x.ring d r { s with pond.streams := s.pond.streams.filter fun y => !(y.ring = x.ring ∧ y.idx = x.idx) })

/-- A write of a word in HBM: through the page guard where it lies in a region (R253). -/
def putReady (a v : Nat) (s : State) : State :=
  match regionAt s a with
  | some r => mergeWrite r a (le 4 v) .escalation s
  | none => hbmPut a (le 4 v) s

/-- The end of a window: the ready value, and whether it was late (R296). -/
def streamDone (x : Stream) (d : Desc) (s : State) : State :=
  let s := putReady (d.f 40 8) (d.f 28 4) s
  let late := s.ht - d.f 48 8
  if late = 0 then endStream x d { word := d.f 24 4 } s
  else
    let s := count Reg.streamLate 1 (regPut Reg.streamLateMax (max (regNat s Reg.streamLateMax) (sat32 late)) s)
    endStream x d { status := Code.lowerTierLate, word := d.f 24 4, quad := late } s

/-- Chunks of the streams written in order, `n` at most; what is left of `n` (R296). -/
def streamChunks : Nat → State → Nat × State
  | 0, s => (0, s)
  | n + 1, s =>
    match s.pond.streams with
    | [] => (n + 1, s)
    | x :: _ =>
      match runningAt s x.ring x.idx with
      | none => streamChunks n { s with pond.streams := s.pond.streams.drop 1 }
      | some d =>
        match writtenEntry s (d.f 8 1) (d.f 16 4) with
        | none => streamChunks n (endStream x d { status := Code.pageUnrecoverable, word := x.next } s)
        | some (off, stored, _, _) =>
          match slotFrame s (slotBase s (d.f 8 1) + off) stored (d.f 20 4 + x.next) with
          | none => streamChunks n (endStream x d { status := Code.pageUnrecoverable, word := x.next } s)
          | some bs =>
            let a := d.f 32 8 + x.next * 65536
            if !channelRoom s a then (n + 1, s)
            else
            let s := charge (traffic s) (wideAdd (chanReg Reg.chWrLo a) 65536 (hbmPut a bs s))
            if x.next + 1 < d.f 24 4 then
              streamChunks n { s with pond.streams := s.pond.streams.map fun y =>
                if y.ring = x.ring ∧ y.idx = x.idx then { y with next := x.next + 1 } else y }
            else streamChunks n (streamDone x d s)

end Sys2Proof.Machine
end

