-- ==== Sys2Proof/Machine/Restore.lean ====
section
/-! DEFINITION. Restores: what a chip offers, the map and its coverage, pieces and their sources, moving the data, and the state a restore
leaves (R300 to R321). -/

namespace Sys2Proof.Machine

open Sys2Proof

/-! ### Source entries (R307) -/

/-- The bytes of a source entry. -/
def sourceBytes (x : Source) : Bytes :=
  le 2 (coordWord x.holder) ++ le 1 x.tier ++ le 1 x.slot ++ le 4 x.shard ++ le 4 x.step ++ le 4 x.planId ++ le 2 x.oldTag ++
    le 2 (coordWord x.oldCoord) ++ le 4 x.tensor ++ le 1 x.kind ++ le 1 x.operand ++ le 1 x.plane ++ le 1 x.fmt ++ le 8 x.first ++
    le 8 x.count ++ le 8 x.addr ++ le 8 x.stored ++ le 4 x.sum

/-- A source entry from its 64 bytes. -/
def sourceAt (b : Bytes) : Source :=
  { holder := coordOf (field 0 2 b), tier := field 2 1 b, slot := field 3 1 b, shard := field 4 4 b, step := field 8 4 b,
    planId := field 12 4 b, oldTag := field 16 2 b, oldCoord := coordOf (field 18 2 b), tensor := field 20 4 b, kind := field 24 1 b,
    operand := field 25 1 b, plane := field 26 1 b, fmt := field 27 1 b, first := field 28 8 b, count := field 36 8 b,
    addr := field 44 8 b, stored := field 52 8 b, sum := field 60 4 b }

/-- Whether 4,096 bytes are a good shard record (R304). -/
def recordGood (b : Bytes) : Bool := field 0 4 b == 0x44524853 && field 4 2 b == 2 && field 4092 4 b == crc32c (b.take 4092)

/-- The source that a shard record describes. -/
def sourceOfRecord (s : State) (b : Bytes) (tier slot addr sum : Nat) : Source :=
  { holder := here s, tier := tier, slot := slot, shard := field 8 4 b, step := field 12 4 b, planId := field 24 4 b, oldTag := field 32 2 b,
    oldCoord := coordOf (field 34 2 b), tensor := field 56 4 b, kind := field 6 1 b, operand := field 7 1 b, plane := field 61 1 b,
    fmt := field 60 1 b, first := field 64 8 b, count := field 72 8 b, addr := addr, stored := field 100 8 b, sum := sum }

/-- The source that an array run under a plan is, in the live plot or in the pond. -/
def sourceOfRun (s : State) (p : Plan) (tier step planId oldTag : Nat) (x : Shard) : Source :=
  let t := p.tensors[x.tensor]?
  let unit := (t.map fun t => itemUnit t x.kind x.plane).getD 1
  let isRec := decide (x.kind = 2)
  { holder := here s, tier := tier, slot := 0, shard := x.q, step := step, planId := planId, oldTag := oldTag, oldCoord := here s,
    tensor := if isRec then 0 else (t.map TensorEntry.id).getD 0, kind := x.kind, operand := x.operand, plane := x.plane,
    fmt := if x.kind = 0 then ((t.bind fun t => t.ops[x.operand]?).map Operand.fmt).getD 0 else 0,
    first := if isRec then 0 else (logicalEntry s p x.tensor).2.1 / max unit 1 + x.first, count := x.items p, addr := 0, stored := 0, sum := 0 }

/-- Plot chunks of a shard. -/
def runChunks (s : State) (x : Shard) : List Nat := upFrom ((x.addr - plotBase s) / 65536) x.chunks

/-- Live runs that the chip offers (R301). -/
def liveSources (s : State) : List Source :=
  match s.step.committed, commitPlan s with
  | some n, some p =>
    let runs := (shardsOf s p).filter fun x => x.kind ≠ 2
    let good := if s.restore.liveOffer then runs else if s.restore.spareLate then []
      else runs.filter fun x => (runChunks s x).all (s.restore.spareOffer.contains ·)
    good.map (sourceOfRun s p 0 n p.id (tagOf s))
  | _, _ => []

/-- The runs of a valid pond, and its record (R306). -/
def pondSources (s : State) : List Source :=
  match pondPlan s with
  | some p =>
    if regNat s Reg.pondState % 4 ≠ 2 then []
    else
      let h := peekSpan s 3 (pondRecAddr s p) 64
      (shardsOf s p).map (sourceOfRun s p 1 (field 4 4 h) (field 16 4 h) (field 20 2 h))
  | none => []

/-- The shards written in each valid slot, but for those whose record the flash controller cannot read (R63, R306). -/
def slotSources (s : State) : List Source :=
  (validSlots s).flatMap fun i =>
    let t := slotTable s i
    (List.range (t.length / 32)).filterMap fun n =>
      let e := slice (32 * n) 32 t
      if field 5 1 e ≠ 0 then none
      else
        let b := flashRead s (slotBase s i + field 8 8 e) 4096
        if recordGood b && unitsGood s (slotBase s i + field 8 8 e) 4096 then some (sourceOfRecord s b 2 i 0 (field 24 4 e)) else none

/-- A shard object in host memory: its source, or none when its record or its length is bad (R306). -/
def objectSource (s : State) (i addr len : Nat) : Option Source :=
  let b := hostRead s addr 4096
  if recordGood b ∧ field 100 8 b ≤ len then some (sourceOfRecord s b 3 i addr (crc32c (hostRead s addr (field 100 8 b)))) else none

/-- What this chip holds in its own tiers 0 to 2. -/
def ownSources (s : State) : List Source := liveSources s ++ pondSources s ++ slotSources s

/-! ### The map (R308, R309) -/

/-- An ownership entry from its 32 bytes (R308). -/
def ownerAt (b : Bytes) : Owner := { owner := coordOf (field 0 2 b), tensor := field 4 4 b, first := field 8 8 b, elems := field 16 8 b }

/-- The entries of a map: candidates, ownership, sources. -/
def mapOf (m : Bytes) : List Nat × List Owner × List Source :=
  let oc := field 20 4 m
  let sc := field 24 4 m
  ((List.range (field 6 2 m)).map fun i => field (128 + 4 * i) 4 m,
   (List.range oc).map fun i => ownerAt (slice (192 + 32 * i) 32 m),
   (List.range sc).map fun i => sourceAt (slice (192 + 32 * oc + 64 * i) 64 m))

/-- Header fields and checksum (R308, R309). -/
def mapHeaderOk (m : Bytes) (len : Nat) : Bool :=
  field 0 4 m == 0x50414D52 && field 4 2 m == 2 && decide (1 ≤ field 6 2 m ∧ field 6 2 m ≤ 16) && field 8 8 m == len &&
    decide (len = roundUp (192 + 32 * field 20 4 m + 64 * field 24 4 m) 64) && field 16 4 m == crc32c (putAt 16 (zeros 4) m)

/-- Whether a coordinate lies in the job's block. -/
def inJob (s : State) (c : Coord) : Bool := decide (c.a < extA s) && decide (c.b < extB s) && decide (c.c < extC s)

/-- This chip's ownership entries and its tensor and logical tables agree (R309). -/
def ownersMatch (s : State) (p : Plan) (os : List Owner) : Bool :=
  (os.filter fun o => o.owner = here s).all fun o =>
    (indexed 0 p.tensors).any fun xt => xt.2.id == o.tensor && xt.2.elems == o.elems && (logicalEntry s p xt.1).2.1 == o.first

/-- Whether every tensor of the plan has an ownership entry of this chip (R309). -/
def ownersCover (s : State) (p : Plan) (os : List Owner) : Bool :=
  p.tensors.all fun t => os.any fun o => o.owner = here s && o.tensor == t.id

/-- Whether a source entry of this chip still matches what it holds (R309). -/
def sourceStands (s : State) (own : List Source) (x : Source) : Bool :=
  if x.tier = 3 then
    match objectSource s x.slot x.addr x.stored with
    | some y => decide (y = x)
    | none => false
  else own.contains x

/-! ### Need, coverage and pieces (R310, R311, R313) -/

/-- An array of a destination's need: its format, the elements of an item, the bytes of an item, and its place in the plot. -/
structure NeedArray where
  kind : Nat
  operand : Nat
  plane : Nat
  fmt : Nat
  unit : Nat
  width : Nat
  at_ : Option Nat
  deriving DecidableEq, Repr

/-- The arrays of a tensor of this chip's plan (R310). -/
def arraysOf (s : State) (t : TensorEntry) : List NeedArray :=
  (indexed 0 t.ops).flatMap (fun jo =>
    if jo.2.fmt = 4 then
      [⟨0, jo.1, 1, 4, 1, 1, some (jo.2.addr - plotBase s)⟩, ⟨0, jo.1, 2, 4, 32, 1, some (planeAddr t jo.2 - plotBase s)⟩]
    else [⟨0, jo.1, 0, jo.2.fmt, 1, fmtBytes jo.2.fmt, some (jo.2.addr - plotBase s)⟩]) ++
  (if t.touchMode = 0 then [] else [⟨1, 0, 0, 0, max (unitSize t) 1, 4, some (t.lastTouch - plotBase s)⟩])

/-- The arrays of a tensor that this chip's plan does not hold, as the sources name them (assumption 41). -/
def foreignArrays (srcs : List Source) (id : Nat) : List NeedArray :=
  (srcs.filter fun x => x.tensor = id ∧ x.kind = 0).foldl (fun acc x =>
    let a : NeedArray := ⟨0, x.operand, x.plane, x.fmt, if x.plane = 2 then 32 else 1, if x.plane = 0 then fmtBytes x.fmt else 1, none⟩
    if acc.contains a then acc else acc ++ [a]) []

/-- The arrays of an ownership entry's tensor. -/
def needArrays (s : State) (p : Plan) (srcs : List Source) (o : Owner) : List NeedArray :=
  match p.tensors.find? fun t => t.id = o.tensor with
  | some t => arraysOf s t
  | none => foreignArrays srcs o.tensor

/-- Whether a source serves an array of a tensor at a step (R310). -/
def serves (step id : Nat) (a : NeedArray) (x : Source) : Bool :=
  x.step == step && x.tensor == id && x.kind == a.kind && x.operand == a.operand && x.plane == a.plane && x.fmt == a.fmt

/-- A number inserted in ascending order, once. -/
def insertPoint (n : Nat) : List Nat → List Nat
  | [] => [n]
  | m :: ms => if n < m then n :: m :: ms else if n = m then m :: ms else m :: insertPoint n ms

/-- An interval split at the ends of the sources that overlap it: first item and count of each part (R313). -/
def splitNeed (first count : Nat) (xs : List Source) : List (Nat × Nat) :=
  let stop := first + count
  let pts := (xs.flatMap fun x => [x.first, x.first + x.count]).foldl (fun acc n => if first < n ∧ n < stop then insertPoint n acc else acc) []
  ((first :: pts).zip (pts ++ [stop])).map fun ab => (ab.1, ab.2 - ab.1)

/-- Whether a source holds every item of an interval. -/
def holdsItems (x : Source) (first count : Nat) : Bool := decide (x.first ≤ first ∧ first + count ≤ x.first + x.count)

/-- The first and the count of the items that an owner needs of an array. -/
def needItems (o : Owner) (a : NeedArray) : Nat × Nat := (o.first / max a.unit 1, ceilDiv o.elems (max a.unit 1))

/-- Whether an owner's array is covered at a step (R310). -/
def arrayCovered (srcs : List Source) (step : Nat) (o : Owner) (a : NeedArray) : Bool :=
  let xs := srcs.filter (serves step o.tensor a)
  let (f, n) := needItems o a
  (splitNeed f n xs).all fun fc => fc.2 = 0 || xs.any fun x => holdsItems x fc.1 fc.2

/-- Whether every owner's need is covered at a step (R310). -/
def stepCovered (s : State) (p : Plan) (os : List Owner) (srcs : List Source) (step : Nat) : Bool :=
  os.all (fun o => (needArrays s p srcs o).all (arrayCovered srcs step o)) && srcs.any fun x => x.kind = 2 && x.step == step

/-- The candidate vector of this chip (R312). -/
def candidateVector (s : State) (p : Plan) (cands : List Nat) (os : List Owner) (srcs : List Source) : Nat :=
  sumOf ((indexed 0 cands).map fun ic => if ic.2 ≠ 0xFFFFFFFF ∧ stepCovered s p os srcs ic.2 then 2 ^ ic.1 else 0)

/-- The rank of a source for a destination: its class, its tier, its holder's job index, its slot (R313). -/
def sourceRank (s : State) (dest : Coord) (x : Source) : Nat × Nat × Nat × Nat :=
  if x.holder = dest then (0, x.tier, 0, x.slot)
  else if x.tier < 3 then (1, x.tier, jobIndex s x.holder, x.slot)
  else (2, 3, jobIndex s x.holder, x.slot)

/-- Whether one rank comes before another. -/
def rankBefore (x y : Nat × Nat × Nat × Nat) : Bool :=
  decide (x.1 < y.1 ∨ (x.1 = y.1 ∧ (x.2.1 < y.2.1 ∨ (x.2.1 = y.2.1 ∧ (x.2.2.1 < y.2.2.1 ∨ (x.2.2.1 = y.2.2.1 ∧ x.2.2.2 < y.2.2.2))))))

/-- The best of some sources, each with its index in the map, after a given one in the order (R313, R316). -/
def bestSource (s : State) (dest : Coord) (after : Option (Nat × Source)) (xs : List (Nat × Source)) : Option (Nat × Source) :=
  let later := fun (x : Nat × Source) => match after with
    | none => true
    | some y => rankBefore (sourceRank s dest y.2) (sourceRank s dest x.2) ||
        (sourceRank s dest y.2 == sourceRank s dest x.2 && decide (y.1 < x.1))
  (xs.filter later).foldl (fun acc x => match acc with
    | none => some x
    | some y => if rankBefore (sourceRank s dest x.2) (sourceRank s dest y.2) then some x else some y) none

/-- The pieces of an owner's array at a step (R313). -/
def arrayPieces (s : State) (srcs : List Source) (step : Nat) (o : Owner) (a : NeedArray) : List Piece :=
  let xs := (indexed 0 srcs).filter fun x => serves step o.tensor a x.2
  let (f, n) := needItems o a
  (splitNeed f n (xs.map fun x => x.2)).filterMap fun fc =>
    match bestSource s o.owner none (xs.filter fun x => holdsItems x.2 fc.1 fc.2) with
    | none => none
    | some x =>
      let lo := a.at_.getD 0 + (fc.1 - f) * a.width
      if fc.2 = 0 then none
      else some { dest := o.owner, tensor := o.tensor, kind := a.kind, operand := a.operand, plane := a.plane, first := fc.1, count := fc.2,
                  at_ := lo, bytes := fc.2 * a.width, source := x.1, next := lo / 65536 }

/-- Chips named as owners, once each. -/
def destinations (os : List Owner) : List Coord := os.foldl (fun acc o => if acc.contains o.owner then acc else acc ++ [o.owner]) []

/-- An ownership entry inserted by tensor and first index. -/
def insertOwner (o : Owner) : List Owner → List Owner
  | [] => [o]
  | x :: xs => if o.tensor < x.tensor ∨ (o.tensor = x.tensor ∧ o.first < x.first) then o :: x :: xs else x :: insertOwner o xs

/-- The pieces of a destination's tensors, in ascending tensor and index order (R317). -/
def destPieces (s : State) (p : Plan) (os : List Owner) (srcs : List Source) (step : Nat) (d : Coord) : List Piece :=
  ((os.filter fun o => o.owner = d).foldl (fun acc o => insertOwner o acc) []).flatMap fun o => (needArrays s p srcs o).flatMap (arrayPieces s srcs step o)

/-- The kind 2 source of a destination (R317): that of the holder of its first piece, else of the lowest-index holder that has one. -/
def recordSource (s : State) (srcs : List Source) (step : Nat) (ps : List Piece) (d : Coord) : Option (Nat × Source) :=
  let recs := (indexed 0 srcs).filter fun x => x.2.kind = 2 ∧ x.2.step = step
  let holder := (ps.head?.bind fun p => srcs[p.source]?).map Source.holder
  match bestSource s d none (recs.filter fun x => some x.2.holder = holder) with
  | some x => some x
  | none =>
    match minOf (recs.map fun x => jobIndex s x.2.holder) with
    | some n => bestSource s d none (recs.filter fun x => jobIndex s x.2.holder = n)
    | none => none

/-- Every piece of the map at a step, each destination's pond record included as the chunks past its plot (assumption 40). -/
def allPieces (s : State) (p : Plan) (os : List Owner) (srcs : List Source) (step : Nat) : List Piece :=
  (destinations os).flatMap fun d =>
    let ps := destPieces s p os srcs step d
    ps ++ (match recordSource s srcs step ps d with
      | some x => [{ dest := d, tensor := 0, kind := 2, operand := 0, plane := 0, first := 0, count := 4 * 2 ^ 20, at_ := p.plotBytes,
                     bytes := 4 * 2 ^ 20, source := x.1, next := p.plotBytes / 65536 }]
      | none => [])

/-! ### Reading a source (R316) -/

/-- The frames of a shard's chunks, from `base` in a memory read by `rd`; none when one is malformed. -/
def frameChunks (rd : Nat → Nat → Bytes) (stored : Nat) : Nat → Nat → Option Bytes
  | 0, _ => some []
  | n + 1, c =>
    let off := field 0 4 (rd (4096 + 4 * c) 4)
    let len := field 0 4 (rd off 4)
    if off + len ≤ stored then
      match decodeFrame (rd off len), frameChunks rd stored n (c + 1) with
      | some a, some b => some (a ++ b)
      | _, _ => none
    else none

/-- Bytes of a stored shard: its record, its checksum and its frames verified (R316). -/
def storedBytes (rd : Nat → Nat → Bytes) (x : Source) (lo n : Nat) : Option Bytes :=
  let rec_ := rd 0 4096
  if recordGood rec_ ∧ field 12 4 rec_ = x.step ∧ field 8 4 rec_ = x.shard ∧ crc32c (rd 0 x.stored) = x.sum then
    let c := lo / 65536
    (frameChunks rd x.stored ((lo + n - 1) / 65536 + 1 - c) c).map (slice (lo - c * 65536) n)
  else none

/-- The width in bytes of a source's items (R277). -/
def sourceWidth (x : Source) : Nat := if x.kind = 2 then 1 else if x.kind = 1 then 4 else if x.plane = 0 then fmtBytes x.fmt else 1

/-- `n` bytes of a source from byte `lo` of its run; none when they cannot be read (R316). -/
def readSource (x : Source) (lo n : Nat) (s : State) : Option Bytes × State :=
  if n = 0 then (some [], s)
  else if x.tier = 0 ∨ x.tier = 1 then
    match (if x.tier = 0 then commitPlan s else pondPlan s) with
    | none => (none, s)
    | some p =>
      match (shardsOf s p).find? fun y => y.q = x.shard with
      | none => (none, s)
      | some y =>
        let region := if y.kind = 2 then 3 else if x.tier = 0 then 0 else 2
        let a := if region = 2 then pondBase s + (y.addr - plotBase s) + lo else y.addr + lo
        let chunk := (a - regionBase s region) / 65536
        let gone := (x.tier = 0 && (s.step.committed ≠ some x.step || s.restore.spoiled.any fun c => decide (chunk ≤ c ∧ c ≤ (a + n - 1 - plotBase s) / 65536))) ||
          (x.tier = 1 && field 4 4 (peekSpan s 3 (pondRecAddr s p) 8) ≠ x.step)
        if gone then (none, s)
        else
          let (bs, badPages, s) := readSpan region a n {} s
          if badPages.isEmpty then (some bs, s) else (none, escalateAll region badPages .escalation s)
  else if x.tier = 2 then
    match writtenEntry s x.slot x.shard with
    | some (off, stored, sum, _) =>
      let base := slotBase s x.slot + off
      if slotValid s x.slot ∧ sum = x.sum ∧ stored = x.stored ∧ unitsGood s base x.stored then
        (storedBytes (fun o k => flashRead s (base + o) k) x lo n, s)
      else (none, s)
    | none => (none, s)
  else (storedBytes (fun o k => hostRead s (x.addr + o) k) x lo n, s)

/-! ### Records of a restore -/

/-- A control record to one chip (R315). -/
def sendRestore (dst : Coord) (r : RestoreRec) (s : State) : State := sendStore dst 49 0 (.restore r) s
/-- The multicast tree of the agreement (R202). -/
def agreeTreeNo (s : State) : Nat := bits 15 0 (regNat s Reg.agreeTreeF)
/-- A verdict multicast (R312, R318). -/
def sendVerdictRec (r : RestoreRec) (s : State) : State := send (.tree (agreeTreeNo s)) 7 49 0 0 (.restore r) s
/-- This chip's parent in the agreement tree (R202). -/
def agreeParent (s : State) : Option Coord := parentOf false (here s) (agreeRoot s)
/-- This chip's children in the agreement tree. -/
def agreeKids (s : State) : List Coord := childrenOf (jobBox s) false (here s) (agreeRoot s)
/-- The height of this chip in the agreement tree. -/
def agreeHeight (s : State) : Nat := heightOf (here s) (agreeRoot s)
/-- Members of a child's subtree (R204). -/
def agreeSubtree (s : State) (c : Coord) : List Coord := subtree (jobBox s) false (agreeRoot s) (treeDepth (jobBox s)) c
/-- The route bound of the standby plan, under which a restore runs. -/
def restoreBound (s : State) : Nat := (s.plans.standby.map Plan.routeBound).getD 0
/-- The pieces of which this chip is the destination. -/
def myPieces (s : State) : List Piece := s.restore.pieces.filter fun p => p.dest = here s
/-- The source entry of an index in the map. -/
def mapSource (s : State) (i : Nat) : Option Source := s.restore.sources[i]?
/-- Whether this chip holds the source of a piece of another destination. -/
def owes (s : State) (p : Piece) : Bool := p.dest ≠ here s && (mapSource s p.source).map Source.holder == some (here s)

/-! ### The end of a restore (R317 to R319) -/

/-- Bytes of HBM and their check data that nothing defines any more (R318, assumption 6). -/
def scramble (a n : Nat) (s : State) : State :=
  let (f, s) := takeFree s
  let (g, s) := takeFree s
  let s := { s with hbm := writeBytes a ((List.range n).map fun i => Config.undefinedByte f (a + i)) s.hbm }
  (List.range (n / 4096)).foldl (fun s i =>
    let k := checkKey (a + 4096 * i)
    { s with check := writeBytes k ((List.range 256).map fun j => Config.undefinedByte g (k + j)) s.check }) s

/-- The pond record's bytes as received. -/
def recordSlice (s : State) (p : Plan) (off n : Nat) : Bytes :=
  let c0 := p.plotBytes / 65536
  let all := (List.range ((off % 65536 + n - 1) / 65536 + 1)).flatMap fun i => getKey (c0 + off / 65536 + i) (zeros 65536) s.restore.recs
  slice (off % 65536) n all

/-- The health entries of a tensor in the copied history: copied by tensor id when the slices are equal (R317). -/
def restoredHealth (s : State) (p : Plan) (step : Nat) (xt : Nat × TensorEntry) (z : Nat) (slices : List (Nat × Nat × Nat)) : Bytes :=
  let count := field 0 4 (recordSlice s p 40 4)
  let mine := (xt.2.id, (logicalEntry s p xt.1).2.1, xt.2.elems)
  let found := (List.range count).find? fun y => field 4 4 (recordSlice s p (135168 + 32 * (z * count + y)) 8) % 2 ^ 24 = xt.2.id
  let latest := step - (step + 8 - z) % 8
  match found with
  | some y => if slices.contains mine then recordSlice s p (135168 + 32 * (z * count + y)) 32 else le 4 latest ++ zeros 28
  | none => le 4 latest ++ zeros 28

/-- Whether two chips of the job that made the copies share the collective group of a tensor, as the standby plan has the groups
(R281, assumption 78). -/
def sameGroup (s : State) (p : Plan) (id : Nat) (c d : Coord) : Bool :=
  decide (c = d) || p.colls.any fun x => x.tensorId = id && inBox s x.box c && inBox s x.box d

/-- The runs of a tensor's first whole or mantissa operand that the chip that made a record held: its own, and, where its group shares the
writing, those of its group for the shards it has none of (R281, R317). -/
def slotRuns (s : State) (p : Plan) (srcs : List Source) (r : Source) (id : Nat) : List Source :=
  let runs := srcs.filter fun x => x.step = r.step ∧ x.oldTag = r.oldTag ∧ x.planId = r.planId ∧ x.tensor = id ∧ x.kind = 0 ∧ x.operand = 0 ∧
    x.plane ≠ 2 ∧ sameGroup s p id r.oldCoord x.oldCoord
  runs.foldl (fun acc x =>
    if x.oldCoord = r.oldCoord then acc.filter (fun y => y.shard ≠ x.shard) ++ [x]
    else if acc.any fun y => y.shard = x.shard then acc else acc ++ [x]) []

/-- The slices that the chip that made a record held, of the tensors of this chip's plan: tensor, first, elements (R317). -/
def slicesOf (s : State) (p : Plan) (srcs : List Source) (r : Source) : List (Nat × Nat × Nat) :=
  p.tensors.filterMap fun t =>
    let runs := slotRuns s p srcs r t.id
    let n := sumOf (runs.map Source.count)
    match minOf (runs.map Source.first) with
    | some lo => if maxOf (runs.map fun x => x.first + x.count) = lo + n then some (t.id, lo, n) else none
    | none => none

/-- The state that a restore sets with the tensors (R317, R319). `rebuild` under RESTORE_RESLICE: the bank shares are rebuilt at once. -/
def applyRestored (p : Plan) (step : Nat) (slices : List (Nat × Nat × Nat)) (rebuild : Bool) (s : State) : State :=
  let samePlan := decide (field 0 4 (recordSlice s p 16 4) = p.id)
  let exps := if samePlan then recordSlice s p 4096 (expBytes p) else (List.range p.colls.length).flatMap fun _ => le 2 0x8000
  let health := (List.range 8).flatMap fun z => (indexed 0 p.tensors).flatMap fun xt => restoredHealth s p step xt z slices
  let s := mergeWrite 3 (cisternBase s + scalesBase p) exps .escalation s
  let s := mergeWrite 3 (cisternBase s + healthArea s p) health .escalation s
  let commitAt := field 0 8 (recordSlice s p 8 8)
  let odd := decide ((step + 1) % 2 = 1)
  let s := { s with
    step := { num := step + 1, committed := some step, commitAt := commitAt, polarity := odd, nextAt := s.step.nextAt },
    red := {}, upd := {}, grads := {}, agree := { lastStep := s.agree.lastStep, lastAt := s.agree.lastAt },
    basin := { (Basin.nextStep s.basin) with undo := [] },
    plans.active := none, plans.armed := none, plans.retireAt := none, plans.dropStandbyAt := none }
  let s := (List.range (bankSlots s)).foldl (fun s n => makeAbsent n (setWhole n false s)) s
  let s := { s with
    restore.lastStep := some step, restore.armStep := some (step + 1), refill.rebuilding := rebuild && codedMode s,
    refill.rebuildStep := step, refill.rebuilt := 0 }
  if codedMode s then basinEvent Code.basinDegraded 0 s else s

/-- A restore over: its descriptor completed, its windows closed (R314, R318). `undef`: the plot is undefined, and no step is committed. -/
def endRestore (status stage : Nat) (undef : Bool) (s : State) : State :=
  let r := s.restore
  let s := if undef then
    let s := scramble (plotBase s) (regionSize s 0) s
    { s with step.committed := none, restore.liveOffer := false, restore.spareOffer := [] } else s
  let quad := r.writtenBytes
  let res : Result := { status := status, detail := if status = Code.refusedPlan then 0xE4 else stage,
                        word := r.step.getD 0xFFFFFFFF, quad := quad }
  let s := { s with
    restore := { s.restore with
      running := false, state := if status = Code.ok then 4 else 5, status := status, pieces := [], chunks := [], kids := [], sources := [],
      owners := [], candidates := [], recs := [], credits := [], written := [], spoiled := [], ownSent := false, verdictSent := false },
    guard.scrubSuspended := false }
  let s := refreshSlots s
  match runningAt s r.ring r.idx with
  | some d => complete r.ring d res s
  | none => s

/-! ### Moving the data (R314 to R316) -/

/-- Chunks that a piece touches. -/
def pieceChunks (p : Piece) : List Nat := upFrom (p.at_ / 65536) ((p.at_ + p.bytes - 1) / 65536 + 1 - p.at_ / 65536)
/-- Chunks of this chip's need, ascending. -/
def needChunks (s : State) : List Nat := ((myPieces s).flatMap pieceChunks).foldl (fun acc c => insertPoint c acc) []
/-- The lowest chunk of the need that is not written (R314). -/
def lowestIncomplete (s : State) : Option Nat := (needChunks s).find? fun c => !s.restore.written.contains c
/-- The part of a piece that lies in a chunk, as byte offsets within the chunk. -/
def partIn (p : Piece) (c : Nat) : Nat × Nat := (max p.at_ (c * 65536) - c * 65536, min (p.at_ + p.bytes) ((c + 1) * 65536) - c * 65536)

/-- Whether an interval is covered by a list of intervals. -/
def spanGot (got : List (Nat × Nat)) : Nat → Nat → Nat → Bool
  | 0, lo, hi => decide (hi ≤ lo)
  | n + 1, lo, hi =>
    if hi ≤ lo then true
    else
      match got.find? fun g => g.1 ≤ lo ∧ lo < g.2 with
      | some g => spanGot got n g.2 hi
      | none => false

/-- Bytes received for a chunk, clipped to the parts expected of a holder. -/
def takeBytes (c lo : Nat) (bs : Bytes) (from_ : Coord) (s : State) : State :=
  let parts := (myPieces s).filterMap fun p =>
    if (pieceChunks p).contains c && (mapSource s p.source).map Source.holder == some from_ then
      let (a, b) := partIn p c
      let a := max a lo
      let b := min b (lo + bs.length)
      if a < b then some (a, b) else none
    else none
  if parts.isEmpty || s.restore.written.contains c then s
  else
    let old := (s.restore.chunks.find? fun e => e.1 = c).getD (c, [], zeros 65536)
    let data := parts.foldl (fun acc ab => putAt ab.1 (slice (ab.1 - lo) (ab.2 - ab.1) bs) acc) old.2.2
    { s with restore.chunks := (s.restore.chunks.filter fun e => e.1 ≠ c) ++ [(c, old.2.1 ++ parts, data)] }

/-- A chunk written whole once every byte expected of it is there (R315). -/
def finishChunk (c : Nat) (s : State) : State :=
  match s.restore.chunks.find? fun e => e.1 = c with
  | none => s
  | some (_, got, data) =>
    let want := ((myPieces s).filter fun p => (pieceChunks p).contains c).map fun p => partIn p c
    if !want.all (fun w => spanGot got (got.length + 1) w.1 w.2) then s
    else
      let s := { s with restore.chunks := s.restore.chunks.filter fun e => e.1 ≠ c, restore.written := s.restore.written ++ [c] }
      if plotChunks s ≤ c then { s with restore.recs := s.restore.recs ++ [(c, data)] }
      else
        let same := decide (readBytes s.hbm (plotBase s + c * 65536) 65536 = data)
        let s := writePlotChunk c data s
        { s with
          restore.spoiled := if same then s.restore.spoiled else s.restore.spoiled ++ [c],
          restore.writtenBytes := s.restore.writtenBytes + 65536, restore.totalWritten := s.restore.totalWritten + 65536 }

/-- Holders of this chip's pieces, other than itself. -/
def myHolders (s : State) : List Coord :=
  ((myPieces s).filterMap fun p => (mapSource s p.source).map Source.holder).foldl
    (fun acc c => if acc.contains c || decide (c = here s) then acc else acc ++ [c]) []

/-- Credit sent to every holder: at the verdict, and whenever the lowest incomplete chunk has advanced by 32 (R314). -/
def sendCredits (s : State) : State :=
  match lowestIncomplete s with
  | none => s
  | some l =>
    if s.restore.credited = 0 ∨ s.restore.credited + 31 ≤ l then
      let r : RestoreRec := { digest := s.restore.mapSum, kind := 2, position := l + 128, step := s.restore.step.getD 0 }
      let s := (myHolders s).foldl (fun s c => sendRestore c r s) s
      { s with restore.credited := l + 1 }
    else s

/-- A span pushed to a destination's chunk slot, whole 16-byte units (R49, R314). -/
def pushSpan (dst : Coord) (c lo : Nat) (bs : Bytes) (s : State) : State :=
  let start := lo / 16 * 16
  let data := padTo 16 (zeros (lo - start) ++ bs)
  let s := pushBytes dst 48 (data.length / 4096 + 2) (c % 128 * 65536 + start) data s
  { s with restore.totalPushed := s.restore.totalPushed + bs.length }

/-- Replace a piece. -/
def putPiece (p q : Piece) (s : State) : State :=
  { s with restore.pieces := s.restore.pieces.map fun x => if x = p then q else x }

/-- The byte of a source's run at which a piece begins. -/
def pieceOffset (x : Source) (p : Piece) : Nat := (p.first - x.first) * sourceWidth x

/-- A piece that cannot be read: its destination is told (R316). -/
def withdraw (p : Piece) (s : State) : State :=
  let r : RestoreRec := { digest := s.restore.mapSum, kind := 3, position := p.at_ / 65536, source := p.source, step := s.restore.step.getD 0 }
  sendRestore p.dest r (putPiece p { p with done := true } s)

/-- A piece that this chip owes pushed chunk by chunk, below the destination's limit (R314). -/
def pushPiece : Nat → Piece → State → State
  | 0, _, s => s
  | n + 1, p, s =>
    if p.done || s.refill.frozen then s
    else
      match mapSource s p.source with
      | none => s
      | some x =>
        let c := p.next
        if p.at_ + p.bytes ≤ c * 65536 then putPiece p { p with done := true } s
        else if getKey p.dest 0 s.restore.credits ≤ c then s
        else
          let (a, b) := partIn p c
          let (bs, s) := readSource x (pieceOffset x p + (c * 65536 + a - p.at_)) (b - a) s
          match bs with
          | none => withdraw p s
          | some bs =>
            let q := { p with next := c + 1 }
            pushPiece n q (putPiece p q (pushSpan p.dest c a bs s))

/-- A piece inserted by its first byte. -/
def insertPiece (p : Piece) : List Piece → List Piece
  | [] => [p]
  | q :: qs => if p.at_ < q.at_ then p :: q :: qs else q :: insertPiece p qs

/-- Every piece owed pushed as far as it may go, in ascending chunk order (R314). -/
def pushAll (s : State) : State :=
  ((s.restore.pieces.filter (owes s)).foldl (fun acc p => insertPiece p acc) []).foldl (fun s p => pushPiece ((pieceChunks p).length + 1) p s) s

/-- The next source of a piece after one that failed: moved here, requested from its holder, or none left (R316). -/
def fallBack (fuel : Nat) (p : Piece) (s : State) : State :=
  match fuel with
  | 0 => s
  | n + 1 =>
    let serving := (indexed 0 s.restore.sources).filter fun x =>
      x.2.step = s.restore.step.getD 0 ∧ x.2.kind = p.kind ∧ (p.kind = 2 || (x.2.tensor == p.tensor && x.2.operand == p.operand && x.2.plane == p.plane &&
        (mapSource s p.source).map Source.fmt == some x.2.fmt && holdsItems x.2 p.first p.count))
    match bestSource s p.dest ((mapSource s p.source).map fun x => (p.source, x)) serving with
    | none => putPiece p { p with done := true } { s with restore.missing := true }
    | some (i, x) =>
      let q := { p with source := i, next := p.at_ / 65536, done := false }
      let s := count Reg.rsFallbacks 1 (putPiece p q s)
      if x.holder = here s then
        let (bs, s) := readSource x (pieceOffset x q) q.bytes s
        match bs with
        | none => fallBack n q s
        | some bs => (pieceChunks q).foldl (fun s c =>
            let (a, b) := partIn q c
            finishChunk c (takeBytes c a (slice (c * 65536 + a - q.at_) (b - a) bs) (here s) s)) s
      else
        let s := if s.restore.credited = 0 then s else
          sendRestore x.holder { digest := s.restore.mapSum, kind := 2, position := s.restore.credited + 127, step := s.restore.step.getD 0 } s
        sendRestore x.holder { digest := s.restore.mapSum, kind := 4, position := q.at_ / 65536, source := i, step := s.restore.step.getD 0 } s

/-- A piece that lies here moved into its chunks (R314). -/
def moveLocal (p : Piece) (s : State) : State :=
  match mapSource s p.source with
  | none => s
  | some x =>
    let (bs, s) := readSource x (pieceOffset x p) p.bytes s
    match bs with
    | none => fallBack (s.restore.sources.length + 1) p s
    | some bs => (pieceChunks p).foldl (fun s c =>
        let (a, b) := partIn p c
        takeBytes c a (slice (c * 65536 + a - p.at_) (b - a) bs) (here s) s) s

/-! ### The agreements of a restore (R312, R318) -/

/-- Whether this chip's part of the move is over: every chunk written or a piece missing, and everything owed pushed (R318). -/
def moveDone (s : State) : Bool :=
  (s.restore.missing || (lowestIncomplete s).isNone) && (s.restore.pieces.filter (owes s)).all (·.done)

/-- This chip's record with what its children reported; at a cut-off, children that have not reported count for their subtrees (R204). -/
def restoreUp (s : State) (own : Bool) : RestoreRec :=
  let r := s.restore
  let kids := agreeKids s
  let late := kids.filter fun c => !r.kids.any fun k => k.1 = c
  let recs := r.kids.map fun k => k.2
  let foreign := recs.any fun k => k.digest ≠ r.mapSum
  { digest := r.mapSum, kind := if r.state = 2 then 0 else 5, stale := r.stale || foreign || recs.any (·.stale),
    missing := r.missing || recs.any (·.missing), vector := recs.foldl (fun v k => v &&& k.vector) r.vector, step := r.step.getD 0,
    complete := b2n own + sumOf (recs.map RestoreRec.complete),
    covered := 1 + sumOf (recs.map RestoreRec.covered) + sumOf (late.map fun c => (agreeSubtree s c).length) }

/-- The verdict of the root for the choice (R312). -/
def choiceVerdict (s : State) : RestoreRec :=
  let u := restoreUp s true
  let best := maxOf ((indexed 0 s.restore.candidates).filterMap fun ic => if bit ic.1 u.vector then some ic.2 else none)
  let status := if s.refill.frozen then Code.commitIncomplete else if u.stale then Code.refusedPlan else if u.complete < jobChips s then Code.commitIncomplete
    else if u.vector = 0 then Code.mixedStep else Code.ok
  { digest := u.digest, kind := 1, vector := u.vector, step := if status = Code.ok then best else 0, complete := u.complete, covered := u.covered,
    status := status }

/-- The verdict of the root for the move (R318). -/
def doneVerdict (s : State) : RestoreRec :=
  let u := restoreUp s (moveDone s)
  { digest := u.digest, kind := 6, step := s.restore.step.getD 0, complete := u.complete, covered := u.covered,
    status := if s.refill.frozen then Code.commitIncomplete else if u.missing then Code.mixedStep else if u.complete < jobChips s then Code.commitIncomplete else Code.ok }

/-- The verdict on the move applied (R317, R318). -/
def applyDone (status : Nat) (s : State) : State :=
  if !s.restore.running then s
  else if status = Code.ok then
    match s.plans.standby, s.restore.step with
    | some p, some n =>
      let recSrc := ((myPieces s).find? fun q => q.kind = 2).bind fun q => mapSource s q.source
      let slices := (recSrc.map (slicesOf s p s.restore.sources)).getD []
      let s := if (myPieces s).isEmpty then s else applyRestored p n slices true s
      endRestore status 4 false s
    | _, _ => endRestore Code.commitIncomplete 4 true s
  else endRestore status 4 true s

/-- This chip's done record sent when it is due, by the root the verdict (R318). -/
def pumpDone (force : Bool) (s : State) : State :=
  if s.restore.state ≠ 3 || s.restore.ownSent || !s.restore.running then s
  else
    let own := moveDone s
    let u := restoreUp s own
    let ready := own && (agreeKids s).all (fun c => s.restore.kids.any fun k => k.1 = c && k.2.complete == k.2.covered)
    if !(force || ready) then s
    else
      match agreeParent s with
      | some dst => sendRestore dst u { s with restore.ownSent := true }
      | none =>
        let v := doneVerdict s
        if force || v.complete = jobChips s then
          applyDone v.status (sendVerdictRec v { s with restore.ownSent := true, restore.verdictSent := true })
        else s

/-- After any change of a move: chunks finished, credits, pushes, the done record. -/
def pumpMove (s : State) : State :=
  if s.restore.state ≠ 3 ∨ !s.restore.running then s else pumpDone false (pushAll (sendCredits s))

/-- The verdict on the choice applied: the move begins, or the restore ends with nothing written (R311, R312). -/
def applyChoice (v : RestoreRec) (s : State) : State :=
  let s := { s with restore.verdictVector := v.vector, restore.status := v.status }
  if v.status ≠ Code.ok then endRestore v.status 2 false s
  else
    match s.plans.standby with
    | none => endRestore Code.commitIncomplete 2 false s
    | some p =>
      let ps := allPieces s p s.restore.owners s.restore.sources v.step
      let s := { s with restore := { s.restore with
        state := 3, step := some v.step, lastStep := some v.step, pieces := ps, kids := [], ownSent := false, verdictSent := false, missing := false,
        credited := 0 } }
      -- what this chip reads of itself is read before any chunk is written
      let mine := (myPieces s).filter fun q => (mapSource s q.source).map Source.holder == some (here s)
      let s := mine.foldl (fun s q => moveLocal q s) s
      let s := (needChunks s).foldl (fun s c => finishChunk c s) s
      pumpMove s

/-- This chip's choice record sent when it is due, by the root the verdict (R312). -/
def pumpChoice (force : Bool) (s : State) : State :=
  if s.restore.state ≠ 2 || s.restore.ownSent || !s.restore.running then s
  else
    let ready := (agreeKids s).all (fun c => s.restore.kids.any fun k => k.1 = c && k.2.complete == k.2.covered)
    if !(force || ready) then s
    else
      match agreeParent s with
      | some dst => sendRestore dst (restoreUp s true) { s with restore.ownSent := true }
      | none =>
        let v := choiceVerdict s
        if force || v.complete = jobChips s then
          applyChoice v (sendVerdictRec v { s with restore.ownSent := true, restore.verdictSent := true })
        else s

end Sys2Proof.Machine
end

