-- ==== Sys2Proof/Machine/Shadow.lean ====
section
/-! DEFINITION. Shadow configuration: staging, the pending commit, validation, application, teardown of a job, re-audit of plans
(R13, R22, R24, R85, R248, R299, R324 to R327, R389 to R396). -/

namespace Sys2Proof.Machine

open Sys2Proof

/-! ### The staged set (R389, R390) -/

/-- The in-force copy of a staged offset (R389). -/
def inForce (off : Nat) : Nat := off + 0x800

/-- OSE_CFG_STAGED kept with the staged set (R390). -/
def putStaged (l : List Nat) (s : State) : State :=
  regPut Reg.cfgStaged (sumOf (l.map fun i => 2 ^ i)) { s with staged := l }

/-- OSE_CFG_STATUS with its pending and last-writer bits brought up to date. -/
def refreshCfg (s : State) : State :=
  regPut Reg.cfgStatus (regNat s Reg.cfgStatus / 2 % 4 * 2 + regNat s Reg.cfgStatus / 256 * 256 + b2n s.pendingCommit + 8 * b2n s.lastWriter) s

/-- A write of a shadow register noted in the staged set (R390). -/
def markStaged (off : Nat) (byMap : Bool) (s : State) : State :=
  refreshCfg (putStaged (unionIdx s.staged [shadowRegs.findIdx (· = off)]) { s with lastWriter := byMap })

/-- One value put in the staged set. -/
def stageOne (off : Nat) (v : Word) (byMap : Bool) (s : State) : State :=
  markStaged off byMap (regSet off (BitVec.ofNat 32 (v.toNat &&& fieldMask off)) s)

/-- A value staged in a shadow register, by the host or by BASIN_MAP (R390). A write of the seed's low half sets its bit alone and is held until
the high half is written, which stages the pair (R10, R174, R390). DEDUCED (assumption 84): where no low half is held, the high half is staged
alone, and a set with one half only fails check 0x0D (R393). -/
def stage (off : Nat) (v : Word) (byMap : Bool) (s : State) : State :=
  if off = Reg.jobSeedLo then markStaged off byMap { s with loHold := putKey off v s.loHold }
  else if off = Reg.jobSeedHi then
    match s.loHold.find? fun e => e.1 = Reg.jobSeedLo with
    | some lo => stageOne off v byMap (stageOne Reg.jobSeedLo lo.2 byMap { s with loHold := s.loHold.filter fun e => e.1 ≠ Reg.jobSeedLo })
    | none => stageOne off v byMap s
  else stageOne off v byMap s

/-- Every staged value returned to its value in force, and the set emptied (R396). -/
def discardStaged (s : State) : State :=
  let s := { s with loHold := s.loHold.filter fun e => e.1 ≠ Reg.jobSeedLo }
  putStaged [] (shadowRegs.foldl (fun s off => regSet off (regGet s (inForce off)) s) s)

/-! ### Validation (R393) -/

/-- A check that failed: its cause and the shadow registers it reads. -/
abbrev Failure := Nat × List Nat

/-- The first failure of a list of checks, each with whether it failed. -/
def firstFailure : List (Bool × Failure) → Option Failure
  | [] => none
  | (bad, f) :: rest => if bad then some f else firstFailure rest

/-- Whether a staged value differs from its value in force. -/
def changes (s : State) (off : Nat) : Bool := regNat s off ≠ regNat s (inForce off)

/-- The checks on the identity registers (R324, R325). -/
def identityChecks (s : State) : List (Bool × Failure) :=
  let on := s.staged.any (6 ≤ ·)
  let tag := regNat s Reg.jobTag
  let ext := regNat s Reg.jobExtent
  let co := coordOf (regNat s Reg.jobCoord)
  let (ea, eb, ec) := (bits 5 0 ext, bits 11 6 ext, bits 16 12 ext)
  let retired := bits 15 0 (regNat s Reg.jobRetired)
  let newTag := changes s Reg.jobTag
  [(on && decide (tag ≠ 0 ∧ tag / 16 = 0), (0x01, [6])),
   (on && !(decide (1 ≤ ea ∧ ea ≤ 32 ∧ 1 ≤ eb ∧ eb ≤ 32 ∧ 1 ≤ ec ∧ ec ≤ 16) && decide (ea * eb * ec ≤ 16384)), (0x02, [7])),
   (on && !(decide (co.a < ea ∧ co.b < eb ∧ co.c < ec)), (0x03, [7, 8])),
   (on && newTag && planActive s && !s.refill.frozen, (0x04, [6])),
   (on && !newTag && isLive s && (changes s Reg.jobExtent || changes s Reg.jobCoord), (0x05, [6, 7, 8])),
   (on && newTag && decide (retired ≠ 0 ∧ tag / 16 = retired / 16) &&
      (decide (s.ht < wideGet s Reg.jobRetiredAtLo + 10000000) || decide (tag % 16 ≠ (retired % 16 + 1) % 16)), (0x06, [6]))]

/-- Whether a geometry word breaks R22 against the staged extents and the declared bank shares. -/
def geometryBad (s : State) : Bool :=
  let g := bits 15 0 (regNat s Reg.basinGeom)
  let (k, n, mode) := (bits 7 0 g, bits 11 8 g, bits 15 12 g)
  let ext := regNat s Reg.jobExtent
  g ≠ 0 &&
    (decide (2 < mode) || (decide (mode = 0) && ((!([4, 8, 12, 16].contains k)) || decide (2 < n))) ||
     (decide (mode = 1) && decide (k ≠ 1 ∨ n ≠ 0)) || (decide (mode = 2) && decide (k ≠ 0 ∨ n ≠ 0)) ||
     (decide (mode < 2) && decide (bits 5 0 ext % max k 1 ≠ 0)) || decide (bits 11 6 ext < 2) ||
     (decide (mode = 2) && decide (regionSize s 1 ≠ 0)))

/-- Chunks of bank shares that the staged geometry needs (R24). -/
def staggedNeed (s : State) : Nat :=
  let g := bits 15 0 (regNat s Reg.basinGeom)
  let (k, n, mode) := (bits 7 0 g, bits 11 8 g, bits 15 12 g)
  if g = 0 then 0 else if mode = 0 then ceilDiv (plotChunks s * (k / 4 + n)) (max k 1) else if mode = 1 then plotChunks s else 0

/-- The other checks (R22, R24, R174, R248, R299). -/
def otherChecks (s : State) : List (Bool × Failure) :=
  let st := regNat s Reg.pgStrength
  let code := fun (v r : Nat) => bits (4 * r + 2) (4 * r) v
  let cfg := regNat s Reg.snapCfg
  let slotsChange := decide (bits 3 0 cfg ≠ slotCount s)
  [(geometryBad s, (0x07, [2, 7])),
   (decide (regionChunks s 1 < staggedNeed s), (0x08, [2])),
   ((List.range 5).any fun r => decide (5 ≤ code st r), (0x09, [4])),
   ((List.range 5).any fun r => decide (code st r ≠ code (regNat s Reg.pgStrengthF) r ∧ 0 < regionSize s r), (0x0A, [4])),
   (decide (bits 3 0 cfg < 2 ∨ 8 < bits 3 0 cfg), (0x0B, [5])),
   (slotsChange && !(validSlots s).isEmpty && !bit 5 cfg, (0x0C, [5])),
   (s.staged.contains 0 != s.staged.contains 1, (0x0D, [0, 1]))]

/-- The validation of the configuration that would be in force (R393). -/
def validate (s : State) : Option Failure := firstFailure (identityChecks s ++ otherChecks s)

/-! ### Plans out of service (R83, R85) -/

/-- The number of the next step start: the first step without a plan that is taken out of service now. -/
def nextStepNo (s : State) : Nat := if s.step.startAt.isSome then stepNum s + 1 else stepNum s

/-- A plan taken out of service from the next step start, with its ring event (R85, R246). -/
def dropPlan (standby : Bool) (cause : Nat) (p : Plan) (s : State) : State :=
  let n := nextStepNo s
  let s := if standby then { s with plans.dropStandbyAt := some n } else { s with plans.retireAt := some n }
  planLostEvent p.reportRing cause p.id n s

/-- Checks 0x0E and 0x0F repeated on both plans (R85). -/
def reauditPlans (s : State) : State :=
  let s := match s.plans.active with
    | some p => if reaudit s p = 0 then s else dropPlan false (reaudit s p) p s
    | none => s
  match s.plans.standby with
  | some p => if reaudit s p = 0 then s else dropPlan true (reaudit s p) p s
  | none => s

/-! ### Teardown (R327) -/

/-- Every bank-share slot of the region absent (R239). -/
def allAbsent (s : State) : State := { s with basin.absent := List.range (regionChunks s 1) }

/-- Repair attempts given up, what waits on them told that they failed (R327). -/
def endRepairs (s : State) : State :=
  let s := s.guard.attempts.foldl (fun s a => noteRange a.forWhom (fun r => { r with failed := r.failed + 1 }) s) s
  finishRanges { s with guard.attempts := [], guard.holds := [], guard.overlays := [], guard.buffer := [] }

/-- Taken descriptors of a ring that a freeze made wait, completed as refused (R327). -/
def refuseWaiting (q : Fin 16) (s : State) : State :=
  let keep := fun (d : Desc) => [Op.healthRead, Op.counterRead, Op.fence].contains d.op
  let out := (ringOf s q).taken.filter fun d => !keep d
  let s := setRing q { ringOf s q with taken := (ringOf s q).taken.filter keep, running := (ringOf s q).running ++ out } s
  out.foldl (fun s d => complete q d (refusedFor d 0xE4) s) s

/-- What a SNAP_POND copy or a drain that waits for the next copy loses with the plans (R327). -/
def dropPondWork (s : State) : State :=
  let s := match s.pond.copy with
    | none => s
    | some c =>
      let s := { s with pond.copy := none }
      if c.turn.isSome then s
      else
        match runningAt s c.ring c.idx with
        | some d => complete c.ring d (refusedWith 0xE4) s
        | none => s
  match s.pond.drain with
  | some d => if d.waitNext then endDrain d (refusedWith 0xE4) s else s
  | none => s

/-- The job of a tag torn down at this chip (R327). -/
def teardown (oldTag : Nat) (s : State) : State :=
  let wasFrozen := s.refill.frozen
  let s := widePut Reg.jobRetiredAtLo s.ht (regPut Reg.jobRetired oldTag s)
  let s := dropPondWork s
  let s := if s.restore.running then endRestore Code.commitIncomplete s.restore.state (s.restore.state = 3) s else s
  let s := endRepairs s
  let s := if wasFrozen then (List.finRange 16).foldl (fun s q => refuseWaiting q s) s else s
  let old := s.step
  allAbsent { s with
    job := { s.job with
      live := false, held := false, isRoot := false, staged := none, conflicted := none, epoch := 0, mode := 0, pendingMode := none },
    refill := { frozenAt := s.refill.frozenAt, bytes := s.refill.bytes, mapPlanId := s.refill.mapPlanId }, plans := { lastCommitId := s.plans.lastCommitId },
    step := { num := old.num, committed := old.committed, commitAt := old.commitAt, polarity := old.polarity, nextAt := old.nextAt },
    red := {}, upd := {}, grads := {}, agree := {}, basin := {},
    power.leaseHold := false, power.claim := false }

/-! ### Application (R299, R391, R394, R395, R426) -/

/-- The partition header for a slot count (R426). -/
def partitionHeader (n : Nat) : Bytes :=
  let b := slice 0 4092 (le 4 0x54524150 ++ le 2 2 ++ le 1 n)
  b ++ le 4 (crc32c b)

/-- Every manifest unit of the slots in force set to zero. -/
def zeroManifests (s : State) : State := (List.range (slotCount s)).foldl (fun s i => flashWrite (slotBase s i) (zeros 4096) s) s

/-- A new slot count put in force: with discard, the manifests and the header behind one barrier (R299, R426). -/
def applySnap (s : State) : State :=
  let cfg := regNat s Reg.snapCfg
  let n := bits 3 0 cfg
  let clean := fun (s : State) => regPut (inForce Reg.snapCfg) (bits 4 0 cfg) (regPut Reg.snapCfg (bits 4 0 cfg) s)
  if n ≠ slotCount s ∧ bit 5 cfg then
    issueBarrier .other (flashWrite 0 (partitionHeader n) (zeroManifests (clean (zeroManifests s))))
  else clean s

/-- The record of a failed commit (R394). -/
def commitFailed (f : Failure) (byMode : Bool) (s : State) : State :=
  let s := regPut Reg.cfgFail (sumOf (f.2.map fun i => 2 ^ i)) s
  let s := refreshCfg (regPut Reg.cfgStatus (2 + 4 * b2n byMode + Code.configDisagree * 256 + f.1 * 65536) s)
  event 0x12 Code.configDisagree 0 (le 1 f.1) (flagEvent 5 (count Reg.cfgDisagrees 1 s))

/-- The staged set applied: validated, then in force at one instant, or nothing of it (R13, R391 to R395). Whether it passed. -/
def applyCommit (byMode : Bool) (s : State) : Bool × State :=
  let s := { s with pendingCommit := false }
  match validate s with
  | some f => (false, commitFailed f byMode s)
  | none =>
    let oldTag := tagOf s
    let oldGeom := regNat s Reg.basinGeomF
    let tagStaged := s.staged.contains 6
    let s := (shadowRegs.filter (· ≠ Reg.snapCfg)).foldl (fun s off => regSet (inForce off) (regGet s off) s) s
    let s := applySnap { s with cfgDone := unionIdx s.cfgDone s.staged }
    let s := widePut Reg.cfgAppliedAtLo s.ht (putStaged [] s)
    let s := refreshCfg (regPut Reg.cfgStatus (2 + 4 * b2n byMode) (count Reg.cfgCommits 1 s))
    let s := match tagStaged, s.job.axisStaged with
      | true, some a => { s with job.axis := a, job.axisStaged := none }
      | _, _ => s
    let s := if oldTag ≠ 0 ∧ tagOf s ≠ oldTag then teardown oldTag s else s
    (true, if oldGeom ≠ regNat s Reg.basinGeomF ∨ oldTag ≠ tagOf s then refreshSlots (reauditPlans s) else refreshSlots s)

/-- A pending commit applied, where one is pending (R391). -/
def applyPending (s : State) : State := if s.pendingCommit && !s.dry then (applyCommit false s).2 else s

/-- The commit field written with no commit pending: the set is pending, and applied at once when the engine is frozen or no plan is
active (R326, R391). No commit applies in dry mode (R436). -/
def requestCommit (s : State) : State :=
  let s := refreshCfg { s with pendingCommit := true }
  if s.refill.frozen || !planActive s then applyPending s else s

end Sys2Proof.Machine
end

