-- ==== Sys2Proof/Machine/Closure.lean ====
section
/-! DEFINITION. Lost chips, gradient peers and the closures of a lost plot; copies of torn closures; the end of a refill and the bank-share
rebuild that follows it (R216, R217, R228, R231, R238, R240). -/

namespace Sys2Proof.Machine

open Sys2Proof

/-! ### Lost chips (R209, R216) -/

/-- Coordinates that the refill in force lists. -/
def lostList (s : State) : List Coord := (s.refill.msg.map RefillMsg.lost).getD []

/-- Whether a coordinate is listed. -/
def isLost (s : State) (c : Coord) : Bool := (lostList s).contains c

/-- The gradient peer of a collective with lost members, if one survives (R216). -/
def peerOf (s : State) (c : CollEntry) : Option Coord :=
  let g := c.box
  if (lostList s).any (inBox s g) then lowestOther s g (lostList s) else none

/-- Collectives of a tensor, with their indices. -/
def collsOf (p : Plan) (t : TensorEntry) : List (Nat × CollEntry) := (indexed 0 p.colls).filter fun c => c.2.tensorId = t.id

/-- Tensors with bytes in a plot chunk. -/
def tensorsIn (s : State) (p : Plan) (c : Nat) : List TensorEntry :=
  let a := plotBase s + c * 65536
  p.tensors.filter fun t => (tensorArrays t).any fun r => decide (r.1 < a + 65536) && decide (a < r.1 + r.2)

/-! ### Closures (R228) -/

/-- Chunk sets after joining every set that meets `e`; the union stands where the first of them stood, in position order. -/
def joinSets (s : State) (e : List Nat) (sets : List (List Nat)) : List (List Nat) :=
  let meets := fun (x : List Nat) => x.any e.contains
  let all := (sets.filter meets).flatten
  let union := (orderOf s).filter all.contains
  (sets.foldl (fun acc x =>
    if !meets x then (acc.1 ++ [x], acc.2) else if acc.2 then acc else (acc.1 ++ [union], true)) (([] : List (List Nat)), false)).1

/-- The closures of the plot, in ascending position (R228). -/
def closures (s : State) (p : Plan) : List (List Nat) :=
  let start := (orderOf s).map fun c => [c]
  let ts := (updateTensors p).filter fun x => decide (x.2.origin ≤ stepNum s)
  ts.foldl (fun sets x =>
    (List.range x.2.elems).foldl (fun sets i =>
      let e := distinct (elemChunks (plotBase s) x.2 i)
      if e.length ≤ 1 then sets else joinSets s e sets) sets) start

/-- Closures that are neither wholly at the step in flight nor wholly at the step before (R228). -/
def tornClosures (s : State) (p : Plan) : List (List Nat) :=
  (closures s p).filter fun cs => !(cs.all fun c => (classOf s c).cls = 0) && !(cs.all fun c => (classOf s c).cls = 1)

/-- The peer that copies a closure: that of the first collective of its first tensor that has one (R229, R238). -/
def closurePeer (s : State) (p : Plan) (cs : List Nat) : Option Coord :=
  let ts := cs.flatMap (tensorsIn s p)
  let colls := if ts.isEmpty then indexed 0 p.colls else ts.flatMap (collsOf p)
  colls.findSome? fun c => peerOf s c.2

/-! ### Chain records (R224) -/

/-- A chain record of this chip with nothing in its chain fields. -/
def chainRec (s : State) (kind equation stripe position : Nat) : ChainRec :=
  { refillId := s.refill.lastId, kind := kind, equation := equation, stripe := stripe, position := position, arrival := 0, hop := 0,
    pending := [0, 0, 0, 0], holderStep := 0 }

/-- A chain record sent to window 55. -/
def sendChainRec (dst : Coord) (r : ChainRec) (s : State) : State := sendStore dst 55 0 (.chain r) s

/-! ### Copies of torn closures (R231, R238) -/

/-- The closure requests of a spare at the start of its recovery UPDATE turn; in replicated mode the peer pushes unasked (R231). -/
def requestClosures (s : State) : State :=
  match s.plans.active with
  | none => s
  | some p =>
    if !spareRecovery s || s.step.updBegun then s
    else
      let torn := tornClosures s p
      let s := { s with upd.torn := torn }
      if !codedMode s then s
      else torn.foldl (fun s cs =>
        match cs.head?, cs.getLast?, closurePeer s p cs with
        | some a, some b, some dst => sendChainRec dst (chainRec s 6 0 (posOf s b) (posOf s a)) s
        | _, _, _ => s) s

/-- A chunk of this plot pushed to a spare's plot; where a page cannot be read, nothing is pushed and its repair begins (R257). -/
def pushChunk (dst : Coord) (c : Nat) (s : State) : State :=
  match readChunk 0 c {} s with
  | (bs, [], s) => sendPages dst 52 (c * 65536) ((List.range 16).map fun n => (n, slice (n * 4096) 4096 bs)) s
  | (_, a :: as, s) => escalateAll 0 (a :: as) .escalation s

/-- The closure requests whose chunks this peer has written at the step in flight are served (R238). -/
def serveClosures (s : State) : State :=
  if s.refill.frozen || !s.step.updBegun || s.step.recoveryAt.isNone then s
  else
    let done := fun (r : Coord × Nat × Nat) => decide (r.2.2 < nextPos s)
    let go := s.refill.closureReqs.filter done
    let s := { s with refill.closureReqs := s.refill.closureReqs.filter fun r => !done r }
    go.foldl (fun s r => (chunksBetween s r.2.1 (r.2.2 + 1)).foldl (fun s c => pushChunk r.1 c s) s) s

/-! ### Bank-share rebuild after the next commit (R217, R240) -/

/-- The member that starts the rebuild chain of a parity: the first member of its group, or member 0 (R240). -/
def firstLink (s : State) (j : Nat) : Nat := if !mirrorMode s && isLocal s j then 4 * j else 0

/-- The members that the rebuild chain of a parity passes: its group, or all of them; the one member of a mirror pair (R240). -/
def linkMembers (s : State) (j : Nat) : List Nat :=
  if mirrorMode s then [0] else if isLocal s j then (List.range 4).map fun r => 4 * j + r else List.range (kOf s)

/-- The parities (stripe, number) of the slots of bank positions in a list, in ascending slot order (R240). -/
def paritiesAt (s : State) (positions : List Nat) : List (Nat × Nat) :=
  if !codedMode s then []
  else (List.range (ceilDiv (plotChunks s * nParity s) (kOf s))).flatMap fun n => positions.filterMap fun h =>
    let t := n * kOf s + h
    let i := t / max (nParity s) 1
    if i < plotChunks s then some (i, t % max (nParity s) 1) else none

/-- The parities whose rebuild chains this chip starts, for the slots of bank positions in a list, in ascending slot order (R240). -/
def rebuildList (s : State) (positions : List Nat) : List (Nat × Nat) :=
  (paritiesAt s positions).filter fun x => firstLink s x.2 = memberOf s (here s)

/-- Those whose rebuild chains pass this chip (R240). -/
def linkList (s : State) (positions : List Nat) : List (Nat × Nat) :=
  (paritiesAt s positions).filter fun x => (linkMembers s x.2).contains (memberOf s (here s))

/-- This chip a link of the rebuild of the slots at some bank positions, its part of it to be done (R217, R240). -/
def joinRebuild (positions : List Nat) (s : State) : State :=
  { s with refill.linkRebuild := true, refill.rebuildTodo := rebuildList s positions, refill.linkTodo := linkList s positions }

/-- Slots whose result came too late asked for again, and those that became absent at a chip that was no spare: each link of the chain is
told, so that its windows are open, the first of them last (R217, R240, assumption 44). -/
def askLate (s : State) : State :=
  s.refill.lateSlots.foldl (fun s slot =>
    let (i, j) := unplace s slot
    (linkMembers s j).reverse.foldl (fun s m =>
      sendChainRec (if mirrorMode s then partneredBy s else ownerChip s m) (chainRec s 8 j i (posOf s i)) s) s)
    { s with refill.lateSlots := [] }

/-- Pairs without repeats. -/
def distinctPairs (xs : List (Nat × Nat)) : List (Nat × Nat) := xs.foldl (fun acc x => if acc.contains x then acc else acc ++ [x]) []

/-- A rebuild chain given up here, to be begun again after the next commit (R240, assumption 44). -/
def giveUpChain (i j : Nat) (s : State) : State :=
  { s with refill.redo := if s.refill.redo.contains (i, j) then s.refill.redo else s.refill.redo ++ [(i, j)] }

/-- A rebuild chain to be started here, once. -/
def addRebuild (i j : Nat) (s : State) : State :=
  if s.refill.rebuildTodo.contains (i, j) then s
  else { s with refill.rebuildTodo := s.refill.rebuildTodo ++ [(i, j)], refill.rebuilding := true }

/-- The chains given up begun again: here, where this chip is their first link, else by the first link, which is asked (R240,
assumption 44). -/
def askRedo (s : State) : State :=
  s.refill.redo.foldl (fun s x =>
    if firstLink s x.2 = memberOf s (here s) then addRebuild x.1 x.2 s
    else sendChainRec (memberChip s (here s) (firstLink s x.2)) (chainRec s 8 x.2 x.1 (posOf s x.1)) s) { s with refill.redo := [] }

/-- What a commit with an announced start does to a refill: the refill ends with the first commit after release, and a rebuild that is due
begins (R217, R240). -/
def settleRefill (committed : Nat) (s : State) : State :=
  if s.refill.frozen then s
  else
    let f := s.refill
    let fresh := f.rebuildDue
    let absent := decide (0 < absentSlots s)
    let rebuilding := f.rebuilding || fresh
    let redo := distinctPairs (f.redo ++ (f.jobs.filter fun j => 3 ≤ j.record.kind).map fun j => (j.record.stripe, j.record.equation))
    let links := f.linkRebuild && (fresh || f.chainsSeen || !f.rebuildTodo.isEmpty || !f.linkTodo.isEmpty || !redo.isEmpty)
    let late := if fresh && !f.isSpare && absent then (List.range (bankSlots s)).filter (isAbsent s) else f.lateSlots
    askRedo (askLate { s with
      refill := { f with
        msg := none, state := 0, jobs := [], grants := [], chainBuf := [], equations := [], closureReqs := [], copies := [], bankGot := [],
        isSource := false, isPeer := false, isDecoder := false, isSpare := f.isSpare && absent, release := none,
        rebuilding := rebuilding, rebuildDue := false, rebuildStep := committed, rebuilt := if fresh then 0 else f.rebuilt,
        lateSlots := late, linkRebuild := links, linkTodo := if links then f.linkTodo else [], redo := redo, chainsSeen := false,
        wins := (if links then [54, 55] else []) ++ (if rebuilding && absent then [56] else []) } })

end Sys2Proof.Machine
end

