-- ==== Sys2Proof/Machine/Agree.lean ====
section
/-! DEFINITION. The completeness agreement and the commit of a step (R35 to R37, R201 to R207). -/

namespace Sys2Proof.Machine

open Sys2Proof

/-! ### The phase of a step (R215) -/

/-- The phase of the step in flight: 1 reduction, 2 CHECK passed, 3 CHECK failed, 4 UPDATE begun, 5 UPDATE complete, 6 contribution sent. -/
def phaseOf (s : State) : Nat :=
  if s.step.updDone then (if s.step.contribSent then 6 else 5)
  else if s.step.updBegun then 4 else if s.step.check = 2 then 3 else if s.step.check = 1 then 2 else 1

/-- A STEP event (R451). -/
def stepEvent (status tensor first : Nat) (s : State) : State :=
  event 0x09 status 0 (le 4 (stepNum s) ++ le 1 (phaseOf s) ++ le 3 tensor ++ le 4 first) s

/-! ### Contributions (R203, R204) -/

/-- No job index. -/
abbrev noIndex : Nat := 0xFFFFFFFF

/-- The lowest job index of a child's subtree. -/
def lowestIn (s : State) (c : Coord) : Nat := (minOf ((agreeSubtree s c).map (jobIndex s))).getD noIndex

/-- What a child counts for: complete, covered, first incomplete (R82, R204). DEDUCED (assumption 82): a child whose step, plan ID or
committed step differs counts as covering what it reports, with nobody complete and the lower of its first incomplete index and its
subtree's lowest. -/
def kidCounts (s : State) (c : Coord) : Nat × Nat × Nat :=
  match s.agree.kids.find? fun k => k.1 = c with
  | none => (0, (agreeSubtree s c).length, lowestIn s c)
  | some (_, k) =>
    if k.step = stepNum s ∧ k.planId = activeId s ∧ k.committed = committedWord s then (k.complete, k.covered, k.firstInc)
    else (0, k.covered, min k.firstInc (lowestIn s c))

/-- This chip's contribution with the counts it holds (R203, R204). -/
def contributionNow (s : State) : Contribution :=
  let own := ownComplete s
  let kids := (agreeKids s).map (kidCounts s)
  { step := stepNum s, planId := activeId s, committed := committedWord s, complete := b2n own + sumOf (kids.map fun k => k.1),
    covered := 1 + sumOf (kids.map fun k => k.2.1),
    firstInc := (kids.map fun k => k.2.2).foldl min (if own then noIndex else jobIndex s (here s)) }

/-- Whether this chip's part is complete and every child has reported itself so (R204). -/
def contributionReady (s : State) : Bool :=
  ownComplete s && (agreeKids s).all fun c =>
    (s.agree.kids.any fun k => k.1 = c) && (let k := kidCounts s c; k.1 == k.2.1)

/-! ### The commit (R36) -/

/-- Steps 1 to 3 of R36 for the step in flight, and the next start where it is announced (R36, R80, R181, R207, R301). -/
def commitStep (commitAt : Nat) (announce : Bool) (s : State) : State :=
  let st := s.step
  let lead := (s.plans.active.map Plan.lead).getD 0
  let s := { s with
    step := {
      num := st.num + 1, committed := some st.num, commitAt := commitAt, polarity := !st.polarity,
      nextAt := if announce then commitAt + lead else st.nextAt, announced := announce,
      turns := st.turns, mirrorMissing := st.mirrorMissing, mirrorGot := st.mirrorGot.filter (· ≠ st.num), released := st.released && !announce },
    basin := { (Basin.nextStep s.basin) with undo := [] },
    red := {}, upd := {},
    agree := { s.agree with kids := [], ownSent := false, verdictSent := false, open_ := s.agree.open_ && !announce },
    plans.lastCommitId := some (activeId s), restore.liveOffer := true, restore.spareOffer := [], restore.spareLate := false }
  startDeferred (if announce then settleRefill st.num s else s)

/-- The agreement ended without every member (R37, R206). -/
def reportIncomplete (first : Nat) (s : State) : State :=
  let s := { s with step.turns := s.step.turns.map fun r => if r.kind = Kind.commit && r.step = stepNum s then { r with outcome := Code.commitIncomplete } else r }
  stepEvent Code.commitIncomplete 0xFFFFFF first (flagEvent 3 s)

/-! ### Verdicts (R205 to R207) -/

/-- A verdict taken by a member (R205, R207). DEDUCED (assumption 81): a member that has committed no step takes the catch-up for the step
it has in flight. -/
def takeVerdict (v : Verdict) (s : State) : State :=
  if v.verdict = 2 then
    (if v.step = stepNum s ∧ (s.step.committed = none ∨ committedWord s + 1 = v.step) then commitStep v.commitAt false s else s)
  else if v.step ≠ stepNum s then s
  else if v.verdict = 0 then commitStep v.commitAt true { s with agree.verdict := some v }
  else if s.agree.verdict.isSome then s
  else reportIncomplete v.firstInc { s with agree.verdict := some v }

/-- A verdict multicast by the root and taken by it (R203, R205). -/
def sendVerdict (v : Verdict) (s : State) : State := takeVerdict v (send (.tree (agreeTreeNo s)) 7 60 0 0 (.verdict v) s)

/-- The root's committed verdict: the commit instant is its HT reading (R205). -/
def sendCommitted (s : State) : State :=
  let n := stepNum s
  let v : Verdict := ⟨n, activeId s, s.ht, jobChips s, 0, noIndex⟩
  let s := sendVerdict v { s with agree.verdictSent := true, step.contribSent := true }
  { s with agree.lastStep := some n, agree.lastAt := s.ht }

/-- The root's incomplete verdict (R205). -/
def sendIncomplete (s : State) : State :=
  let c := contributionNow s
  sendVerdict ⟨stepNum s, activeId s, 0, c.complete, 1, c.firstInc⟩ { s with agree.verdictSent := true }

/-- The agreement taken as far as it goes: this chip's contribution once it is ready, or at its cut-off; the root's verdict once every member is
complete (R204, R205). -/
def pumpAgree (force : Bool) (s : State) : State :=
  if !s.agree.open_ || s.agree.ownSent || s.agree.verdictSent || s.agree.verdict.isSome || s.refill.frozen then s
  else
    match agreeParent s with
    | some dst =>
      if force || contributionReady s then
        let s' := { s with agree.ownSent := true, step.contribSent := true }
        sendStore dst 60 0 (.contribution (contributionNow s)) s'
      else s
    | none => if (contributionNow s).complete = jobChips s then sendCommitted s else s

/-- A contribution of a child taken; the root answers a member one step behind with a catch-up verdict (R204, R207). DEDUCED (assumption
81): a member that has committed no step, its committed field all ones, counts as one behind the first step that the root committed. -/
def takeContribution (sender : Coord) (k : Contribution) (s : State) : State :=
  if !(agreeKids s).contains sender || s.agree.ownSent then s
  else
    let behind := (agreeParent s).isNone && s.step.released && !s.agree.catchUpSent &&
      (match s.agree.lastStep with
        | some n => s.step.committed == some n && decide (k.step = n) && decide (k.committed + 1 = n ∨ k.committed = 0xFFFFFFFF)
        | none => false)
    let s := if behind then
      send (.tree (agreeTreeNo s)) 7 60 0 0 (.verdict ⟨s.agree.lastStep.getD 0, activeId s, s.agree.lastAt, 0, 2, noIndex⟩)
        { s with agree.catchUpSent := true }
      else s
    pumpAgree false { s with agree.kids := putKey sender k s.agree.kids }

/-- What follows any change that the update, the basin code or the agreement may have waited for. -/
def poke (s : State) : State := pumpAgree false (finishRanges (pokeCopy (serveClosures (pokeBasin s))))

/-- This chip's cut-off for its contribution: E − route bound − h × H (R204). -/
def agreeCutoff (s : State) : Nat :=
  s.agree.endAt - (hopOf s - 4000) - agreeHeight s * hopOf s

end Sys2Proof.Machine
end

