-- ==== Sys2Proof/Machine/Sluice.lean ====
section
/-! DEFINITION. The sluice: placing turns, admission, refusals, turn reports, the floor lease, and the work each kind of turn begins
(R26, R29, R77 to R100, R126, R135, R164, R237). -/

namespace Sys2Proof.Machine

open Sys2Proof

/-! ### Placing turns (R78, R79, R235, R236) -/

/-- A planned turn: its index, its entry, the step it belongs to, its start. -/
structure Planned where
  idx : Nat
  entry : TurnEntry
  step : Nat
  startAt : Nat
  deriving DecidableEq, Repr

/-- Whether a recovery run holds a start-anchored turn of a kind (R236). -/
def inRecovery (k : Nat) : Bool := k = Kind.update || k = Kind.delta || k = Kind.commit

/-- The turns of the step in flight, and the commit-anchored turns of the step just committed (R78, R79). -/
def plannedTurns (s : State) : List Planned :=
  match s.plans.active with
  | none => []
  | some p =>
    (indexed 0 p.turns).filterMap fun x =>
      let t := x.2
      if t.commitAnchored then
        match s.step.committed with
        | some c => if s.step.announced && runsIn t c then some ⟨x.1, t, c, s.step.commitAt + t.offset⟩ else none
        | none => none
      else if s.step.startAt.isNone && s.step.recoveryAt.isNone then none
      else if runsIn t (stepNum s) && decide (s.step.firstTurn ≤ x.1) && (s.step.recoveryAt.isNone || inRecovery t.kind) then
        some ⟨x.1, t, stepNum s, turnStart s t⟩
      else none

/-- The plan that governs the announced next step, as `switchPlans` will find it (R81, R83, R85). -/
def nextPlan (s : State) : Option Plan :=
  let arms := match s.plans.armed with
    | some (.atStep n) => decide (n = stepNum s)
    | _ => false
  if arms && s.plans.standby.isSome && s.plans.dropStandbyAt.isNone then s.plans.standby
  else if s.plans.retireAt.any (· ≤ stepNum s) then none
  else s.plans.active

/-- The start-anchored turns of a plan in a step that starts at an instant. -/
def turnsFrom (p : Plan) (n at_ : Nat) : List Planned :=
  (indexed 0 p.turns).filterMap fun x =>
    if !x.2.commitAnchored && runsIn x.2 n then some ⟨x.1, x.2, n, at_ + x.2.offset⟩ else none

/-- The start-anchored turns of the next step: of the announced one, or of the first step of a plan armed at an instant (R81, R93). -/
def nextTurns (s : State) : List Planned :=
  match s.plans.armed, s.plans.standby with
  | some (.atInstant n inst), some p => if planActive s || s.plans.dropStandbyAt.isSome then [] else turnsFrom p n inst
  | _, _ =>
    if !s.step.announced then []
    else
      match nextPlan s with
      | none => []
      | some p => turnsFrom p (stepNum s) s.step.nextAt

/-- The run of a turn, if the sluice has met it. -/
def runOf (s : State) (i n : Nat) : Option TurnRun := s.step.turns.find? fun r => r.idx = i ∧ r.step = n

/-- Replace the run of a turn. -/
def putRun (r : TurnRun) (s : State) : State :=
  { s with step.turns := s.step.turns.map fun x => if x.idx = r.idx ∧ x.step = r.step then r else x }

/-- Planned end of a turn. -/
def TurnRun.endAt (r : TurnRun) : Nat := r.startAt + r.duration

/-- Planned starts that lie ahead, of turns the sluice has not met (R93, R97). -/
def startsAhead (s : State) (ok : TurnEntry → Bool) : List Nat :=
  ((plannedTurns s ++ nextTurns s).filter fun q => decide (s.ht ≤ q.startAt) && (runOf s q.idx q.step).isNone && ok q.entry).map
    fun q => q.startAt

/-! ### Reports (R91, R94, R99) -/

/-- A turn report (R379). -/
def turnReportBytes (r : TurnRun) (status completed energy : Nat) : Bytes :=
  le 1 0 ++ le 1 2 ++ le 1 status ++ le 1 r.kind ++ le 4 r.step ++ le 2 r.idx ++ le 1 r.outcome ++ le 1 0 ++ le 4 (sat32 r.need) ++
    le 4 (sat32 completed) ++ le 4 (sat32 energy) ++ le 2 r.margin ++ le 2 r.lowest ++ le 4 r.planId

/-- The EVENT of a refused or overrun turn (R451). -/
def turnEvent (status : Nat) (r : TurnRun) (s : State) : State :=
  event 0x08 status 0 (le 2 r.idx ++ le 1 r.kind ++ le 4 r.step) s

/-! ### The floor lease and the share claim (R44, R93) -/

/-- The lease and the share claim dropped where nothing holds them (R44, R93, R214). -/
def dropLease (s : State) : State :=
  let idle := !s.step.turns.any fun r => r.phase = 1 || r.phase = 0
  let limit := s.ht + regNat s Reg.leaseLead + 1000000
  let near := !s.refill.frozen && (startsAhead s fun _ => true).any fun a => a ≤ limit
  let s := if s.power.leaseHold && idle && !near then { s with power.leaseHold := false, power.leaseGrant := false, power.breach := false } else s
  { s with power.claim := s.refill.state = 3 || (runningTurns s).any fun r => claimsHbm r.kind }

/-- The share claim asserted for a turn or a refill, counted at every channel (R44, R402). -/
def raiseClaim (s : State) : State :=
  (List.range 24).foldl (fun s n => count (Reg.chClaims + n * 0x1000) 1 s) { s with power.claim := true }

/-! ### CHECK (R29, R125, R126, R136, R139, R164) -/

/-- What CHECK finds of one collective. -/
structure CollFinding where
  status : Nat
  missing : Bool
  out : List Nat
  lacking : Nat
  mismatched : Nat
  unverified : Nat
  deriving DecidableEq, Repr

/-- Whether this chip holds the whole result of a reach, retried frames included (R126). -/
def reachWhole (s : State) (k : RKey) (i : RInfo) : Bool :=
  match resultOf s k with
  | none => false
  | some r => r.record.isSome && (List.range i.frames).all r.frames.contains &&
      (!r.retrySettled || s.red.dualFail.contains k.coll || (retryFrames s k).all r.retryGot.contains)

/-- Whether a reach is marked "retry pending" with no settled retry record (R136). -/
def retryOpen (s : State) (k : RKey) : Bool :=
  match resultOf s k with
  | some r => !r.retrySettled && (r.record.any fun x => x.verdict = 1)
  | none => false

/-- What CHECK finds of a collective of a REDUCE turn. -/
def collFinding (s : State) (i : Nat) (t : TurnEntry) (c : Nat × CollEntry) : CollFinding :=
  let keys : List RKey := (List.range (reachCount c.2)).map fun r => { scale := false, coll := c.1, reach := r }
  let infos := keys.filterMap fun k => (collInfo i t c.2 k.reach).map fun f => (k, f)
  let recs := infos.filterMap fun kf => ((resultOf s kf.1).bind ReachResult.record).map fun r => (kf, r)
  let members := List.range c.2.box.size
  let lack := fun (r : ResultRec) => members.filter fun m => !r.bitmap.contains m
  let own := recs.filter fun x => x.1.2.rootChip s false = here s
  let missing := s.red.aborted.contains c.1 || !infos.all fun kf => reachWhole s kf.1 kf.2
  let out := (recs.map fun x => lack x.2).foldl unionIdx []
  { missing := missing, out := out, lacking := (recs.filter fun x => !(lack x.2).isEmpty).length,
    mismatched := sumOf (own.map fun x => x.2.mismatched), unverified := sumOf (own.map fun x => x.2.unverified),
    status :=
      if s.red.aborted.contains c.1 then Code.collMismatch
      else if s.red.residue.contains c.1 then Code.residueFault
      else if s.red.dualFail.contains c.1 || infos.any fun kf => retryOpen s kf.1 then Code.dualPathMismatch
      else if missing || !out.isEmpty then Code.deadlineExcluded else Code.ok }

/-- The fields that a collective record and its EVENT share, from the step on (R379, R451). -/
def collFields (s : State) (c : Nat × CollEntry) (f : CollFinding) (pads : Bool) : Bytes :=
  le 4 (stepNum s) ++ le 2 c.1 ++ le 1 (b2n f.missing + 2 * b2n (s.red.retried.contains c.1)) ++ (if pads then le 1 0 else []) ++
    le 3 c.2.tensorId ++ (if pads then le 1 0 else []) ++ le 2 (min f.out.length 0xFFFF) ++ le 2 ((minOf f.out).getD 0xFFFF) ++
    le 2 (min f.lacking 0xFFFF) ++ le 2 (min f.mismatched 0xFFFF) ++ le 2 (min f.unverified 0xFFFF)

/-- The collective record of an outcome other than OK, with its EVENT and its counter (R125, R139). -/
def reportColl (p : Plan) (c : Nat × CollEntry) (f : CollFinding) (s : State) : State :=
  if f.status = Code.ok then s
  else
    let s := report (ringNo p.reportRing) [le 1 0 ++ le 1 3 ++ le 1 f.status ++ le 1 0 ++ collFields s c f true] false s
    if f.status = Code.deadlineExcluded then count Reg.redExcluded 1 s else event 0x0A f.status 0 (collFields s c f false) s

/-- The collectives of the step's REDUCE turns, each with its turn. -/
def stepColls (s : State) (p : Plan) : List (Nat × TurnEntry × (Nat × CollEntry)) :=
  ((indexed 0 p.turns).filter fun x => x.2.kind = Kind.reduce && runsIn x.2 (stepNum s) && decide (s.step.firstTurn ≤ x.1)).flatMap
    fun x => (collsOfTurn p x.2).map fun c => (x.1, x.2, c)

/-- The tensors that the step's UPDATE turn names, none where it has no UPDATE turn. -/
def stepTensors (s : State) (p : Plan) : List (Nat × TensorEntry) :=
  if p.turns.any fun t => t.kind = Kind.update && runsIn t (stepNum s) then updateTensors p else []

/-- The tensors under a policy whose non-finite gradient count is not zero (R164). -/
def policyHits (s : State) (p : Plan) (policy : Nat) : List (Nat × TensorEntry) :=
  (stepTensors s p).filter fun x =>
    x.2.policy = policy && decide (0 < (gradCounts s p x.2).2)

/-- The policies settled: their counters, and the health entries of a step failed under policy 2 (R164, R165). DEDUCED (assumption 91): a tensor
under policy 1 is counted at CHECK, also where the step fails for another reason. -/
def settlePolicies (p : Plan) (s : State) : State :=
  let skips := policyHits s p 1
  let fails := policyHits s p 2
  let s := count Reg.updTensorSkips skips.length s
  if fails.isEmpty then s
  else fails.foldl (fun s x => writeHealth p x.1 x.2 2 0 0 0 (gradCounts s p x.2) s) (count Reg.updPolicyFails 1 s)

/-- What CHECK's start finds of the step's collectives; no packet changes it from then on (R126, R129, R136). -/
def findings (s : State) (p : Plan) : List ((Nat × CollEntry) × CollFinding) :=
  (stepColls s p).map fun x => (x.2.2, collFinding s x.1 x.2.1 x.2.2)

/-- The collective records of a step, once, whatever becomes of its CHECK turn (R139). -/
def reportColls (p : Plan) (s : State) : State :=
  if s.red.reported then s
  else
    let found := findings { s with red.checkStarted := true, red.reported := true } p
    found.foldl (fun s cf => reportColl p cf.1 cf.2 s) { s with red.checkStarted := true, red.reported := true }

/-- Whether the sluice admits new turns: not frozen, not held, not in HOLD, the tag live (R214, R344, R347). -/
def mayAdmit (s : State) : Bool := !s.refill.frozen && !s.job.held && s.job.mode ≠ 1 && s.job.live

/-- The step is not checked: its CHECK refused, or not settled at its planned end; its collectives are reported all the same (R91, R94,
R139). DEDUCED (assumption 96): not where the sluice admits no turn, since the CHECK turn then neither runs nor reports. -/
def failCheck (s : State) : State :=
  let s := { s with step.check := 2, red.checkStarted := true }
  match s.plans.active with
  | some p => if mayAdmit s then reportColls p s else s
  | none => s

/-- CHECK settled: its outcome code, and the state after its reports (R29, R126, R136, R164, R379). -/
def settleCheck (s : State) : Nat × State :=
  match s.plans.active with
  | none => (Code.ok, s)
  | some p =>
    let found := findings { s with red.checkStarted := true } p
    let s := reportColls p s
    let failing := policyHits s p 2
    let s := settlePolicies p s
    let has := fun c => found.any fun cf => cf.2.status = c
    let out :=
      if has Code.residueFault then Code.residueFault else if has Code.dualPathMismatch then Code.dualPathMismatch
      else if found.any fun cf => cf.2.missing then Code.deadlineExcluded
      else if !failing.isEmpty then Code.policyFailed
      else if has Code.deadlineExcluded then Code.deadlineExcluded else Code.ok
    let failed := has Code.residueFault || has Code.dualPathMismatch || (found.any fun cf => cf.2.missing) || !failing.isEmpty
    if failed then (out, stepEvent out ((failing.head?.map fun x => x.2.id).getD 0xFFFFFF) noIndex { s with step.check := 2 })
    else (out, { s with step.check := 1 })

/-! ### Resynchronisation (R237) -/

/-- The sender of a contribution in a slot (R178, R179, R188). -/
def contributor (s : State) (slot c : Nat) : Coord :=
  let (i, j) := unplace s slot
  if mirrorMode s then partneredBy s
  else if isLocal s j then ownerChip s (4 * j + c) else memberChip s (here s) (place s i c).1

/-- Every acknowledgement that a holder may give (R237). -/
def resyncHolder (s : State) : State :=
  (List.range (bankSlots s)).foldl (fun s slot =>
    let i := (unplace s slot).1
    if plotChunks s ≤ i then s
    else (List.range (contributions s slot)).foldl (fun s c =>
      if mayAck s ((slot, c), contributor s slot c, i) then ackPending (contributor s slot c) i s else s) s) s

/-- An undo entry inserted in ascending position. -/
def insertByPos (s : State) (e : UndoEnt) : List UndoEnt → List UndoEnt
  | [] => [e]
  | x :: xs => if posOf s e.stripe ≤ posOf s x.stripe then e :: x :: xs else x :: insertByPos s e xs

/-- Every delta not acknowledged, the progress and the FINAL markers of a member sent again (R237). -/
def resyncMember (s : State) : State :=
  let es := (s.basin.undo.filter fun e => e.issued).foldl (fun acc e => insertByPos s e acc) []
  let s := count Reg.rfResent es.length s
  let s := es.foldl (fun s e =>
    let (h, slot) := if mirrorMode s then (0, e.stripe) else place s e.stripe (memberOf s (here s) / 4)
    let q : QueueEnt :=
      { dest := h, chunk := e.stripe, pos := posOf s e.stripe, undo := e.slot, mask := e.mask, slot := slot, extra := e.extra }
    (sendDelta h q s).2) s
  let s := (bankPositions s).foldl (fun s h =>
    let prog := progressTo s h
    sendMarker (bankChip s (here s) h) 1 0 0 0 prog { s with basin.progSent := putKey h (prog, s.ht) s.basin.progSent }) s
  s.basin.finalsSent.foldl (fun s h => sendMarker (bankChip s (here s) h) 2 0 0 0 0xFFFFFFFF s) s

/-- Every combined delta not acknowledged and the FINAL markers of a relay sent again (R237). -/
def resyncRelay (s : State) : State :=
  let s := s.basin.relays.foldl (fun s e =>
    if !e.sent then s
    else ((List.range (geoG s)).filter fun h =>
        let pos := (place s e.stripe (groupsOf s + h)).1
        e.sentTo.contains pos && !e.ackedBy.contains pos).foldl (fun s h => (sendCombined e h s).2) s) s
  if s.basin.relayFinalSent then
    ((bankPositions s).filter (· ≠ memberOf s (here s))).foldl (fun s m => sendMarker (memberChip s (here s) m) 2 1 0 0 0xFFFFFFFF s) s
  else s

/-- The packets at the start of a recovery UPDATE turn (R237). -/
def resync (s : State) : State :=
  let s := { s with basin.stopped := false }
  if !codedMode s then s
  else
    let s := resyncMember (resyncHolder s)
    if basinMode s then resyncRelay s else s

/-! ### The work that a turn begins -/

/-- MIRROR: the inputs into the own area, and to the partner (R26, R28). -/
def mirrorWork (inputs : Bytes) (s : State) : State :=
  match s.plans.active with
  | none => s
  | some p =>
    let h := p.inputHalf
    let half := stepNum s % 2 * h
    let bs := slice 0 h inputs
    let s := storePages 3 (h / 4096) (cisternBase s + half) bs s
    pushBytes (partnerOf s (here s)) 47 (h / 4096 + 1) half bs s

/-- The collectives of a REDUCE turn for which no SCALE result is held, at the turn's start (R28, R109). -/
def noScales (p : Plan) (t : TurnEntry) (s : State) : State :=
  let none_ := ((collsOfTurn p t).filter fun c => !s.red.exps.any fun e => e.1 = c.1).map fun c => c.1
  let s := { s with red.excluded := unionIdx s.red.excluded none_ }
  none_.foldl (fun s c => mergeWrite 3 (cisternBase s + scalesBase p + 2 * c) (le 2 0x8000) .escalation s) s

/-- SCALE and REDUCE: the chip takes part in the turn's reaches; `out` where it adds nothing of its own (R91, R108, R118, R234). -/
def reduceWork (i : Nat) (t : TurnEntry) (out : Bool) (s : State) : State :=
  match s.plans.active with
  | none => s
  | some p =>
    let drop := out || (s.refill.isSpare && s.refill.policy = 1 && s.refill.policyStep = stepNum s)
    let s := { s with red.begun := s.red.begun ++ [i], red.out := if drop then unionIdx s.red.out [i] else s.red.out }
    pumpTurn i (24 + (turnKeys p t).length) s

/-- UPDATE: the update unit begins or resumes, after the resynchronisation of a recovery run (R29, R36, R236, R237). -/
def updateWork (s : State) : State :=
  let s := if s.step.recoveryAt.isSome then requestClosures (resync s) else s
  let s := { s with restore.liveOffer := false }
  poke (if s.step.updDone then s else beginUpdate s)

/-- COMMIT: the agreement opens (R35, R204). A step with no UPDATE turn has its update complete. -/
def commitWork (r : TurnRun) (s : State) : State :=
  let none_ := match s.plans.active with
    | some p => !p.turns.any fun t => t.kind = Kind.update && runsIn t (stepNum s)
    | none => false
  let s := if none_ && s.step.check = 1 then { s with step.updDone := true } else s
  pumpAgree false { s with agree.open_ := true, agree.endAt := r.endAt }

/-- The copy that a pond turn of the plan asked for is under way. -/
def turnCopy (i : Nat) (p : Plan) (s : State) : State := { s with pond.copy := some { turn := some i, plan := some p } }

/-- POND: state 1, then the copy (R273). -/
def pondWork (i : Nat) (s : State) : State :=
  match s.plans.active with
  | none => s
  | some p =>
    copyAll (turnCopy i p (startCopy p s))

/-- What an accepted turn does at once (R77). -/
def turnWork (r : TurnRun) (s : State) : State :=
  let k := r.kind
  if k = Kind.mirror then mirrorWork r.inputs s
  else if k = Kind.scale ∨ k = Kind.reduce then reduceWork r.idx r.entry false s
  else if k = Kind.gap then pumpRetry s
  else if k = Kind.check then
    let (out, s) := settleCheck s
    putRun { r with outcome := out } s
  else if k = Kind.update then updateWork s
  else if k = Kind.commit then commitWork r s
  else if k = Kind.pond then pondWork r.idx s
  else s

/-! ### Admission (R65, R86 to R91, R95) -/

/-- Whether an overrunning turn conflicts with a turn (R88). -/
def conflicts (s : State) (t : TurnEntry) : Bool :=
  ((runningTurns s).filter fun r => r.endAt ≤ s.ht).any fun r =>
    let claim := claimsHbm r.kind || claimsHbm t.kind
    !mayOverlap r.kind t.kind || decide ((if claim then 32000 else 24 * lowestCap s) < r.entry.memRate + t.memRate) ||
      (List.range 6).any fun k => bit k r.entry.portMask && bit k t.portMask && decide (672 < r.entry.portRate + t.portRate)

/-- The power manager's share for a turn is added to the grant on acceptance (R95). -/
def sharedKind (k : Nat) : Bool := k = Kind.reduce || k = Kind.update || k = Kind.delta

/-- Whether the grant as if accepted covers the reservations of the running turns and of this one (R88, R95): exact fractions of µJ per
window. -/
def grantCovers (s : State) (t : TurnEntry) : Bool :=
  let run := (runningTurns s).map fun r => r.entry
  let sum := powerSum (if sharedKind t.kind then run else t :: run)
  decide (100000 * sum.1 ≤ s.power.grant * sum.2)

/-- Whether the time unit's lock bars a turn that starts at an instant: lock is away, or came back less than 1 ms before (R65). -/
def lockBars (s : State) (startAt : Nat) : Bool := !s.power.lock || s.power.lockBack.any fun b => startAt < b + 1000000

/-- Refusal that the lease does not bear on: lock, controllers, conflict, pond (R65, R88, R271, R275, R418). -/
def refusedTurn (s : State) (q : Planned) : Bool :=
  let k := q.entry.kind
  lockBars s q.startAt || !s.restarting.isEmpty ||
    (k ≠ Kind.check && k ≠ Kind.commit && conflicts s q.entry) ||
    (k = Kind.pond && (s.pond.held || decide (regionSize s 2 < regionSize s 0)))

/-- A refusal put on record with its report, its EVENT and what it means for the step (R91). DESIGN CHOICE (assumption 88): the report's margin and
lowest reading are 0 where they were not evaluated. -/
def refuseRun (r : TurnRun) (status : Nat) (s : State) : State :=
  let out := if r.kind = Kind.commit then Code.commitIncomplete else Code.ok
  let r := { r with phase := 3, reported := true, outcome := out, status := status, inputs := [] }
  let s := count Reg.turnRefusals 1 (putRun r s)
  let s := if s.job.mode = 1 then s else report (ringNo r.ring) [turnReportBytes r status 0xFFFFFFFF 0] false s
  let s := turnEvent status r s
  if r.kind = Kind.scale ∨ r.kind = Kind.reduce then reduceWork r.idx r.entry true s
  else if r.kind = Kind.check then failCheck s
  else if r.kind = Kind.commit then reportIncomplete noIndex s
  else s

/-- An acceptance: the power manager's share, the share claim, the work (R44, R95). -/
def acceptRun (r : TurnRun) (s : State) : State :=
  let s := putRun { r with phase := 1, inputs := [] } s
  let r := { r with phase := 1 }
  let s := if sharedKind r.kind then
    { s with power.grant := s.power.grant + ceilDiv (r.entry.energy * 100000) (max r.entry.duration 1) } else s
  turnWork r (if claimsHbm r.kind then raiseClaim s else s)

/-- The evaluation of a turn once the lease is granted or its time is over (R86, R88). -/
def judgeRun (r : TurnRun) (s : State) : State :=
  let low := lowestReplica s
  let m := min 0x1000 (low - regNat s Reg.marginGuard)
  let r := { r with margin := m, lowest := low }
  let s := { s with power.admMargin := m }
  if m = 0 ∨ m < regNat s Reg.marginFloor then refuseRun r Code.refusedFloor s
  else if !grantCovers s r.entry then refuseRun r Code.refusedFloor s
  else
    let need := s.plans.active.bind fun p => needOf p (lowestCap s) r.entry m
    let r := { r with need := need.getD 0xFFFFFFFF }
    if need.any (· ≤ r.endAt - s.ht) then acceptRun r s else refuseRun r Code.refusedFloor s

/-- Whether the sluice meets a turn at all: not frozen, not in hold, and not the UPDATE or DELTA of a step that is not checked (R29,
R214, R344, R347). -/
def meetsTurn (s : State) (q : Planned) : Bool :=
  mayAdmit s &&
    (!(q.entry.kind = Kind.update || q.entry.kind = Kind.delta) || s.step.check = 1 ||
      (s.refill.isSpare && s.step.recoveryAt.isSome && s.step.check ≠ 2))

/-- The record of a turn when the sluice meets it. -/
def newRun (s : State) (q : Planned) (inputs : Bytes) : TurnRun :=
  { inputs := inputs, idx := q.idx, step := q.step, kind := q.entry.kind, entry := q.entry, planId := activeId s,
    ring := (s.plans.active.map Plan.reportRing).getD 0, startAt := q.startAt, duration := q.entry.duration }

/-- What a REDUCE turn's start settles, be the turn admitted then, later or not at all: the collectives with no SCALE result (R109). -/
def turnCome (q : Planned) (s : State) : State :=
  match s.plans.active with
  | some p => if q.entry.kind = Kind.reduce then noScales p q.entry s else s
  | none => s

/-- A turn met by the sluice: refused, evaluated, or left waiting for the lease (R88). -/
def meetTurn (q : Planned) (inputs : Bytes) (s : State) : State :=
  if !meetsTurn s q || (runOf s q.idx q.step).isSome then s
  else
    let r := newRun s q inputs
    let s := turnCome q { s with step.turns := s.step.turns ++ [r] }
    if refusedTurn s q then refuseRun r Code.refusedTurn s
    else if s.power.leaseGrant then judgeRun r s
    else s

/-- The planned turn at an index whose start has come. -/
def plannedAt (s : State) (i : Nat) : Option Planned := (plannedTurns s).find? fun q => q.idx = i ∧ q.startAt ≤ s.ht

/-- The DELTA entry's index in the active plan. -/
def deltaIdx (s : State) : Option Nat :=
  s.plans.active.bind fun p => ((indexed 0 p.turns).find? fun x => x.2.kind = Kind.delta).map fun x => x.1

/-- An UPDATE turn met after its DELTA: refused with it, waiting while it waits, evaluated after it (R89). -/
def meetUpdate (q : Planned) (s : State) : State :=
  let s := match (deltaIdx s).bind (plannedAt s) with
    | some d => meetTurn d [] s
    | none => s
  match (s.step.turns.find? fun r => r.kind = Kind.delta ∧ r.step = q.step) with
  | none => meetTurn q [] s
  | some d =>
    if d.phase = 3 then
      if !meetsTurn s q || (runOf s q.idx q.step).isSome then s
      else
        let r := newRun s q []
        refuseRun r d.status { s with step.turns := s.step.turns ++ [r] }
    else meetTurn q [] s

end Sys2Proof.Machine
end

