-- ==== Sys2Proof/Machine/Env.lean ====
section
/-! DEFINITION. What every command brings with it: time, the neighbours' stores, disturbances of memory and of SRAM (R17, R46, R244 to
R246), controller traps (R418), waking from E1 and E2 (R408), and the intake checks of a packet (R331, R332). -/

namespace Sys2Proof.Machine

open Sys2Proof

/-! ### Controllers (R404, R418) -/

/-- Replace a controller's record. -/
def setCtl (c : Fin 4) (r : Controller) (s : State) : State := { s with ctl := s.ctl.set c.val r c.isLt }

/-- A controller's record. -/
def ctlOf (s : State) (c : Fin 4) : Controller := s.ctl[c.val]'c.isLt

/-- A register of controller block c (R404). -/
def ctlReg (c : Fin 4) (base : Nat) : Nat := base + c.val * 0x100

/-- A transition under way is abandoned (R408, R416). -/
def abandonMove (s : State) : State :=
  match s.power.moving with
  | some dst =>
    if dst = 0 then s
    else
      let s := { s with power.moving := if s.power.state = 0 then none else some 0, power.refused := true }
      regPut Reg.pwrCtrl 0 s
  | none => s

/-- The FIRMWARE event (R451): action, version, failing check. -/
def fwEvent (status action version check cause : Nat) (s : State) : State :=
  event 0x13 status cause (le 1 action ++ le 4 version ++ le 1 check) s

/-- A pending activation that lapses; the standby bank keeps its state (R443). -/
def lapseActivation (s : State) : State :=
  match s.fw.activation with
  | some (v, _) => fwEvent Code.refusedTurn 3 v 0 0 { s with fw.activation := none, fw.lastStatus := Code.refusedTurn }
  | none => s

/-- Controllers begin to restart: their images load, and each restart is counted (R404, R418); a pending activation ends (R443). -/
def beginRestart (cs : List (Fin 4)) (s : State) : State :=
  let s := lapseActivation (abandonMove s)
  cs.foldl (fun s c =>
    if s.restarting.contains c then s
    else
      let s := count (ctlReg c Reg.ctlRestarts) 1 (setCtl c { ctlOf s c with state := 1 } s)
      { s with restarting := s.restarting ++ [c] }) s

/-- Every controller. -/
def allControllers : List (Fin 4) := [0, 1, 2, 3]

/-- A trap or a watchdog expiry of a controller (R404, R418). -/
def trapController (c : Fin 4) (cause addr : Nat) (s : State) : State :=
  let s := flagEvent 8 (regPut (ctlReg c Reg.ctlTrapAt) addr (count (ctlReg c Reg.ctlTraps) 1 s))
  let s := setCtl c { ctlOf s c with state := 3, cause := cause } s
  { beginRestart (if c = 0 then allControllers else [c]) s with restartCause := cause }

/-! ### SRAM disturbances (R244 to R246, R270) -/

/-- The chain or repair buffer: the chain concerned fails, and with it its repair's attempt or its refill, with cause 0x03 (R246). -/
def bufferLost (which : Nat) (s : State) : State :=
  if which < 64 then
    (s.guard.attempts.filter fun a => a.tag % 64 = which && !a.deferred).foldl (fun s a => attemptFailed a s)
      { s with guard.buffer := s.guard.buffer.filter fun b => b.1 ≠ which }
  else
    { s with
      refill.chainBuf := s.refill.chainBuf.filter fun b => b.1.2 ≠ which - 64,
      refill.cause := if s.refill.cause = 0 then 3 else s.refill.cause }

/-- A plan slot: the active plan (0) or the standby is taken out of service with cause 0xE7 (R246). -/
def planLost (which : Nat) (s : State) : State :=
  match (if which = 0 then s.plans.active else s.plans.standby) with
  | some p => dropPlan (which ≠ 0) 0xE7 p s
  | none => s

/-- The reduction pool or the sample area: a RESIDUE_FAULT for the reach (R130, R246). -/
def reachLost (which : Nat) (s : State) : State :=
  match s.red.reaches[which]? with
  | some r => updReach r.key (fun x => { x with fault := true }) s
  | none => s

/-- An undo descriptor: handled as an uncorrectable undo page, page by page of its mask (R246). -/
def undoLost (which : Nat) (s : State) : State :=
  match s.basin.undo.find? fun e => e.slot = which with
  | some e => escalateAll 4 ((pagesOf e.mask).map fun n => undoAddr s e.slot n) .escalation s
  | none => s

/-- The staging of a chunk under update: the update stops and reports PAGE_UNRECOVERABLE with the in-update flag (R246). -/
def chunkLost (which : Nat) (s : State) : State :=
  if s.upd.started && !s.step.updDone then
    reportUnrecoverable 0 (plotBase s + which * 65536) { inUpdate := true }
      { s with upd := { s.upd with failed := true, todo := [], work := [], old := [] } }
  else s

/-- What becomes of an uncorrectable SRAM byte, by its reader (R246). -/
def sramLost (u : Upset) (s : State) : State :=
  if u.reader = 0 then trapController ⟨u.which % 4, Nat.mod_lt _ (by decide)⟩ 1 u.byte s
  else if u.reader = 1 then haltRing (ringNo u.which) 2 u.addr s
  else if u.reader = 2 then reachLost u.which s
  else if u.reader = 3 then bankLost u.which s
  else if u.reader = 4 then undoLost u.which s
  else if u.reader = 5 then planLost u.which s
  else if u.reader = 6 then bufferLost u.which s
  else if u.reader = 7 then chunkLost u.which s
  else s

/-- A disturbance met by a reader: good, corrected and counted, or uncorrectable (R245, R246). The code is linear, so the flipped bits
alone decide. -/
def applyUpset (u : Upset) (s : State) : State :=
  match sramDecode u.mask with
  | .good _ => s
  | .corrected _ _ => count Reg.sramCorrected 1 s
  | .uncorrectable =>
    let s := regPut Reg.sramLast (u.byte % 2 ^ 19 + u.bank % 2 ^ 9 * 2 ^ 19 + u.reader % 16 * 2 ^ 28) (count Reg.sramUncorr 1 s)
    sramLost u s

/-! ### What a power state asks for (R407) -/

/-- What refuses E1 (R407). -/
def blocksIdle (s : State) : Bool :=
  planActive s || s.refill.frozen || s.refill.state ≠ 0 || s.restore.running ||
    (s.rings.toList.flatMap Ring.running).any fun d => [Op.restoreLoad, Op.restoreReslice, Op.snapDrain, Op.streamWindow].contains d.op

/-- What refuses E2 (R407). -/
def blocksRetain (s : State) : Bool :=
  blocksIdle s || s.job.live || !s.restarting.isEmpty || s.rings.toList.any fun r => !r.taken.isEmpty || !r.running.isEmpty || r.resetting

/-- What refuses E3 (R407). -/
def blocksOff (s : State) : Bool :=
  blocksRetain s || (decide (regNat s Reg.jobRetired ≠ 0) && decide (s.ht < wideGet s Reg.jobRetiredAtLo + 10000000))

/-- Whether a transition between two power states is allowed now (R407). -/
def mayMove (cur dst : Nat) (s : State) : Bool :=
  if dst = 0 then true
  else if dst = 1 then decide (cur = 0) && !blocksIdle s
  else if dst = 2 then decide (cur < 2) && !blocksRetain s
  else decide (cur < 3) && !blocksOff s

/-- An entry into E2 or E3 whose conditions have failed since it began is abandoned (R407, R408). -/
def checkEntry (s : State) : State :=
  match s.power.moving with
  | some dst => if 2 ≤ dst && !mayMove s.power.state dst s then abandonMove s else s
  | none => s

/-! ### The neighbours' part of a command (assumption 2) -/

/-- Whether an address lies in a window that the memory partition holds (R17, R47). -/
def inWindow (s : State) (a : Nat) : Bool := s.windows.toList.any fun w => decide (w.1 ≤ a) && decide (a < w.1 + w.2)

/-- A compute write: each byte outside the partition's windows lands, each byte inside one is refused (R17, R47). -/
def computeStore (a : Nat) : Bytes → State → State
  | [], s => s
  | b :: bs, s => computeStore (a + 1) bs (if inWindow s a then s else hbmPut a [b] s)

/-- One disturbed byte of HBM or of the check space, whose keys begin at 2^41. -/
def flipByte (a : Nat) (b : Byte) (s : State) : State :=
  if a < checkBeatBase then { s with hbm := xorInto a [b] s.hbm } else { s with check := xorInto (a - checkBeatBase) [b] s.check }

/-- Time, stores, marks, disturbances and the point report that come with a command. -/
def applyEnv (e : Env) (s : State) : State :=
  let s := landFixes { s with ht := max s.ht e.ht, hostTime := e.hostTime, guard.lateFix := e.lateFix, selfFault := e.selfFault }
  let s := e.hostStores.foldl (fun s x => hostWrite x.1 x.2 s) s
  let s := e.computeStores.foldl (fun s x => computeStore x.1 x.2 s) s
  let s := { s with badBeats := unionIdx s.badBeats e.badBeats, badUnits := unionIdx s.badUnits e.badUnits }
  let s := e.flips.foldl (fun s x => flipByte x.1 x.2 s) s
  let s := if s.power.state = 3 then s else e.upsets.foldl (fun s u => applyUpset u s) s
  let s := match e.point with
    | some (c, v) => { s with power.pointClass := c % 4, power.supply := v % 65536 }
    | none => s
  checkEntry s

/-! ### Waking (R408) -/

/-- The engine leaves E1 or E2 for E0, or abandons the entry it is making, without a host request (R408). -/
def wake (s : State) : State :=
  if s.power.moving.any (· ≠ 0) then abandonMove s
  else if s.power.state = 1 ∨ s.power.state = 2 then regPut Reg.pwrCtrl 0 { s with power.moving := some 0 }
  else s

/-! ### Power requests (R406, R412) -/

/-- The request that OSE_PWR_CTRL holds acted on: once no transition is under way, and from E0 once no accepted turn runs (R406, R412). -/
def actOnRequest (s : State) : State :=
  let dst := regNat s Reg.pwrCtrl % 4
  let cur := s.power.state
  if s.power.moving.isSome || decide (dst = cur) || (cur = 0 && !(runningTurns s).isEmpty) then s
  else if mayMove cur dst s then { s with power.moving := some dst }
  else regPut Reg.pwrCtrl cur { s with power.refused := true }

/-! ### Intake (R331, R332) -/

/-- An intake drop counted and captured (R331). -/
def dropPacket (reg cause quad : Nat) (s : State) : State :=
  regPut Reg.dropLastCause cause (widePut Reg.dropLastLo quad (count reg 1 s))

/-- A class of drop after one more, and the EVENT it sends where none has gone for 100 ms (R332). -/
def dropEvent (get : Job → DropClass) (put : DropClass → Job → Job) (status quad : Nat) (s : State) : State :=
  let d := get s.job
  let head := if d.count = 0 then BitVec.ofNat 64 quad else d.header
  let n := d.count + 1
  if d.lastEvent.all fun t => t + 100000000 ≤ s.ht then
    event 0x0C status 0 (le 1 status ++ le 4 (sat32 n) ++ le 8 head.toNat) { s with job := put ⟨0, 0, some s.ht⟩ s.job }
  else { s with job := put ⟨n, head, d.lastEvent⟩ s.job }

/-- Whether a packet is malformed under R50. -/
def malformed (cls len offset : Nat) : Bool := cls = 0 || decide (7 < cls) || decide (4096 < len) || len % 16 ≠ 0 || offset % 16 ≠ 0

/-- The count of a window that is closed, for windows 48 to 56; such a drop is not captured (R331). -/
def dropClosed (w : Nat) (s : State) : State :=
  if w = 48 ∨ w = 49 then count Reg.rsDrops 1 s
  else if w = 50 ∨ w = 51 then count (if s.refill.frozen then Reg.rfFrozenDrops else Reg.dropUnmapped) 1 s
  else count Reg.rfClosedDrops 1 s

/-- The checks of R331 on a packet, in order: whether it is delivered. In E2 and E3, before a start has completed and in dry mode the fabric
port refuses it uncounted (R411, R417, R436). -/
def intake (h : PktHead) (cls window len : Nat) (s : State) : Bool × State :=
  let quad := headerQuad h cls len
  if !flumeRuns s then (false, s)
  else if malformed cls len h.offset then (false, dropPacket Reg.dropMalformed 1 quad s)
  else if tagOf s = 0 ∨ h.jobId ≠ jobIdOf s then
    (false, dropEvent Job.foreign (fun d j => { j with foreign := d }) Code.foreignJob quad (dropPacket Reg.dropForeign 2 quad s))
  else if h.gen ≠ genOf s then
    (false, dropEvent Job.staleGen (fun d j => { j with staleGen := d }) Code.staleGeneration quad (dropPacket Reg.dropStaleGen 3 quad s))
  else
    match intakeEntry s window with
    | none => (false, if 48 ≤ window ∧ window ≤ 56 then dropClosed window s else dropPacket Reg.dropUnmapped 4 quad s)
    | some e =>
      if !bit cls e.classes || decide (e.len < h.offset + len) then (false, dropPacket Reg.dropUnmapped 4 quad s)
      else if !inSenderRange s e h.sender then (false, dropPacket Reg.dropSender 5 quad s)
      else if e.live && !s.job.live then (false, dropPacket Reg.dropNotlive 6 quad s)
      else if s.job.live && window ≠ 46 && h.epoch ≠ s.job.epoch % 256 then
        (false, dropEvent Job.epochDrops (fun d j => { j with epochDrops := d }) Code.modeEpochMismatch quad (dropPacket Reg.dropEpoch 7 quad s))
      else (true, if s.power.state = 1 ∨ s.power.moving.any (· ≠ 0) then wake s else s)

/-- A packet that passes the intake checks is given to its function; while frozen, job packets of windows 47 and 57 to 63 are discarded
and counted (R214, R331). -/
def receive (h : PktHead) (cls window len : Nat) (go : State → State) (s : State) : State :=
  let (ok, s) := intake h cls window len s
  if !ok then s
  else if s.refill.frozen && (window = 47 || 57 ≤ window) then count Reg.rfFrozenDrops 1 s
  else go s

/-- The payload length of a packet, as it arrived (R49). -/
def wireLen (s : State) (p : Payload) : Nat := (payloadBytes (jobChips s) p).length

end Sys2Proof.Machine
end

