-- ==== Sys2Proof/Machine/Turns.lean ====
section
/-! DEFINITION. Commands of the step and its turns: step start, the turns, their work and ends, lease, lock and margin, waits that end with
COMMIT (R65, R66, R80 to R94, R99, R199). -/

namespace Sys2Proof.Machine

open Sys2Proof

/-- What every meaning answers with: the next state. -/
abbrev Answer := Host.Outcome State Fault Refusal

/-! ### The step's start (R36, R80, R81, R83, R181) -/

/-- The plans as they stand for a step that begins: an armed plan becomes active, a plan out of service leaves. A standby plan that failed
the repeated audit leaves at the next step start, whatever its number (R81, R83, R85). -/
def switchPlans (n : Nat) (s : State) : State :=
  let gone := s.plans.dropStandbyAt.isSome
  let s := if gone then { s with plans.standby := none, plans.armed := none, plans.dropStandbyAt := none } else s
  let arms := match s.plans.armed with
    | some (.atStep m) => decide (m = n)
    | some (.atInstant m _) => decide (m = n) && s.plans.active.isNone
    | none => false
  if arms && s.plans.standby.isSome then
    { s with plans := { s.plans with
        active := s.plans.standby, standby := none, armed := none, retireAt := none, activeTab := s.plans.standbyTab } }
  else if s.plans.retireAt.any (· ≤ n) then { s with plans.active := none, plans.retireAt := none }
  else s

/-- A step begun at an instant under the plan that governs it (R36, R78, R181). -/
def beginStep (n at_ firstTurn : Nat) (s : State) : State :=
  let before := s.plans.active.map Plan.id
  let s := switchPlans n s
  let st := s.step
  let s := { s with
    step := {
      num := n, startAt := if planActive s then some at_ else none, nextAt := at_, announced := false,
      turns := st.turns.filter fun r => r.phase ≤ 1, firstTurn := firstTurn, mirrorMissing := st.mirrorMissing, mirrorGot := st.mirrorGot,
      committed := st.committed, commitAt := st.commitAt, polarity := decide (n % 2 = 1) },
    red := {}, upd := {}, agree := { lastStep := s.agree.lastStep, lastAt := s.agree.lastAt } }
  let s := if s.plans.active.map Plan.id == before then s else { s with grads := { scan := true } }
  if planActive s then s else applyPending s

/-- The step start that has come: the announced one, or that of a plan armed at an instant. -/
def dueStart (s : State) : Option (Nat × Nat) :=
  if s.step.announced ∧ s.step.nextAt ≤ s.ht then some (stepNum s, s.step.nextAt)
  else
    match s.plans.armed with
    | some (.atInstant n inst) => if inst ≤ s.ht ∧ !planActive s then some (n, inst) else none
    | _ => none

/-- STEP_START (R80, R81). -/
def execStepStart (e : Env) (s : State) : Answer :=
  let s := applyEnv e s
  match dueStart s with
  | some (n, at_) => .next (if flumeRuns s && !s.refill.frozen then dropLease (beginStep n at_ 0 s) else s)
  | none => .next s

/-! ### The turns (R88) -/

/-- A turn of a kind whose planned start has come: a pending commit applies, then the sluice meets the turn. From CHECK's start on, whenever
it is admitted, no packet of the reduction counts (R88, R129, R391). -/
def startTurn (k i : Nat) (inputs : Bytes) (s : State) : State :=
  let due := fun (s : State) => (plannedAt s i).bind fun q => if q.entry.kind = k && (runOf s q.idx q.step).isNone then some q else none
  if !flumeRuns s || s.refill.frozen || (due s).isNone then s
  else
    let s := applyPending s
    match due s with
    | none => s
    | some q =>
      let s := if k = Kind.check then { s with red.checkStarted := true } else s
      dropLease (if k = Kind.update then meetUpdate q s else meetTurn q inputs s)

/-- MIRROR_TURN (R26). -/
def execMirrorTurn (e : Env) (i : Nat) (inputs : Bytes) (s : State) : Answer := .next (startTurn Kind.mirror i inputs (applyEnv e s))
/-- SCALE_TURN (R108). -/
def execScaleTurn (e : Env) (i : Nat) (s : State) : Answer := .next (startTurn Kind.scale i [] (applyEnv e s))
/-- REDUCE_TURN (R110). -/
def execReduceTurn (e : Env) (i : Nat) (s : State) : Answer := .next (startTurn Kind.reduce i [] (applyEnv e s))
/-- GAP_TURN (R98). -/
def execGapTurn (e : Env) (i : Nat) (s : State) : Answer := .next (startTurn Kind.gap i [] (applyEnv e s))
/-- CHECK_TURN (R29). -/
def execCheckTurn (e : Env) (i : Nat) (s : State) : Answer := .next (startTurn Kind.check i [] (applyEnv e s))
/-- UPDATE_TURN (R89, R169). -/
def execUpdateTurn (e : Env) (i : Nat) (s : State) : Answer := .next (startTurn Kind.update i [] (applyEnv e s))
/-- DELTA_TURN (R89, R190). -/
def execDeltaTurn (e : Env) (i : Nat) (s : State) : Answer := .next (startTurn Kind.delta i [] (applyEnv e s))
/-- COMMIT_TURN (R35). -/
def execCommitTurn (e : Env) (i : Nat) (s : State) : Answer := .next (startTurn Kind.commit i [] (applyEnv e s))
/-- POND_TURN (R273). -/
def execPondTurn (e : Env) (i : Nat) (s : State) : Answer := .next (startTurn Kind.pond i [] (applyEnv e s))

/-! ### Ends of turns (R94, R99) -/

/-- Whether the work of an accepted turn is complete. -/
def workDone (s : State) (r : TurnRun) : Bool :=
  let k := r.kind
  if r.step ≠ stepNum s && k ≠ Kind.pond then true
  else if k = Kind.scale ∨ k = Kind.reduce then
    let keys := ((s.plans.active.map fun p => turnKeys p r.entry).getD []).length
    s.red.checkStarted ||
      (decide (keys ≤ getKey r.idx 0 s.red.nextQ) && (s.red.reaches.all fun x => x.turn ≠ r.idx || x.retry || x.closed))
  else if k = Kind.gap then s.red.checkStarted || s.red.reaches.all fun x => !x.retry || x.closed
  else if k = Kind.update then s.step.updDone || !s.upd.started || s.upd.failed
  else if k = Kind.delta then
    !codedMode s || !s.step.updBegun || s.basin.stopped || s.upd.failed || (!s.upd.started && !s.step.updDone) ||
      (bankPositions s).all s.basin.finalsSent.contains
  else if k = Kind.commit then s.agree.verdict.isSome || r.outcome = Code.commitIncomplete
  else if k = Kind.pond then (match s.pond.copy with
    | some c => c.failed || c.turn ≠ some r.idx
    | none => true)
  else true

/-- The end of an accepted turn: its report, except in HOLD, TURN_OVERRUN when it is late (R94, R99, R274, R344). -/
def finishRun (r : TurnRun) (energy : Nat) (s : State) : State :=
  let late := decide (r.endAt < s.ht)
  let lost := r.kind = Kind.pond && s.pond.copy.any fun c => c.failed && c.turn = some r.idx
  let s := if lost then { s with pond.copy := none } else s
  let status := if lost then Code.pageUnrecoverable else if late then Code.turnOverrun else Code.ok
  let s := putRun { r with phase := 2, reported := true } { s with power.energy := s.power.energy + energy }
  let s := if late then turnEvent Code.turnOverrun r (flagEvent 6 (count Reg.turnOverruns 1 s)) else s
  let s := if s.job.mode = 1 then s else report (ringNo r.ring) [turnReportBytes r status (s.ht - r.startAt) energy] false s
  dropLease s

/-- TURN_WORK_COMPLETE (R99). -/
def execTurnWorkComplete (e : Env) (i energy : Nat) (s : State) : Answer :=
  let s := applyEnv e s
  match (runningTurns s).find? fun r => r.idx = i with
  | some r => .next (if controllersRun s && workDone s r then actOnRequest (finishRun r energy s) else s)
  | none => .next s

/-- A waiting turn evaluated, unless the chip holds (R65, R88, R344, R347). -/
def evalWaiting (r : TurnRun) (s : State) : State :=
  match runOf s r.idx r.step with
  | none => s
  | some r =>
    if r.phase ≠ 0 || !mayAdmit s then s
    else if lockBars s r.startAt then refuseRun r Code.refusedTurn s
    else judgeRun r s

/-- A waiting turn evaluated, its DELTA first where it is an UPDATE (R89). -/
def evalTurn (r : TurnRun) (s : State) : State :=
  if !mayAdmit s then s
  else if r.kind ≠ Kind.update then evalWaiting r s
  else
    match s.step.turns.find? fun d => d.kind = Kind.delta ∧ d.step = r.step with
    | none => evalWaiting r s
    | some d =>
      let s := evalWaiting d s
      match runOf s d.idx d.step, runOf s r.idx r.step with
      | some d, some r => if r.phase ≠ 0 then s else if d.phase = 3 then refuseRun r d.status s else evalWaiting r s
      | _, _ => s

/-- A turn that still waits at its planned end, since the chip holds, is over: it was never admitted and has no report (R344, R347). -/
def passTurn (q : Planned) (s : State) : State :=
  match runOf s q.idx q.step with
  | some r => if r.phase = 0 then putRun { r with phase := 3, status := Code.refusedTurn, inputs := [] } s else s
  | none => s

/-- Every waiting turn evaluated, each DELTA before its UPDATE (R66, R89). -/
def evalAll (s : State) : State := (s.step.turns.filter fun r => r.phase = 0).foldl (fun s r => evalTurn r s) s

/-- TURN_PLANNED_END: a waiting turn is refused, a missing mirror recorded, a CHECK not settled fails (R26, R88, R91, R94). DESIGN CHOICE
(assumption 74): a missing mirror stands in a list at the chip that should hold it. -/
def execTurnPlannedEnd (e : Env) (i : Nat) (s : State) : Answer :=
  let s := applyEnv e s
  if !flumeRuns s || s.refill.frozen then .next s
  else
    match (plannedTurns s).find? fun q => q.idx = i ∧ q.startAt + q.entry.duration ≤ s.ht with
    | none => .next s
    | some q =>
      let s := match runOf s q.idx q.step with
        | some r => if r.phase = 0 then passTurn q (evalTurn r s) else s
        | none => s
      let s := if q.entry.kind = Kind.mirror ∧ !s.step.mirrorGot.contains q.step then
        { s with step.mirrorMissing := unionIdx s.step.mirrorMissing [q.step] } else s
      let s := if q.entry.kind = Kind.check ∧ s.step.check = 0 then failCheck s else s
      .next (dropLease s)

/-- TURN_OVERRUN reported for a turn whose own work has ended, for what its queues still hold (R199). -/
def lateRun (r : TurnRun) (s : State) : State :=
  let s := turnEvent Code.turnOverrun r (flagEvent 6 (count Reg.turnOverruns 1 s))
  if s.job.mode = 1 then s else report (ringNo r.ring) [turnReportBytes r Code.turnOverrun (s.ht - r.startAt) 0] false s

/-- UPDATE_WAIT_TIMEOUT (R199): a wait on undo room or on a relay limit ends with the COMMIT turn; the update unit stops with everything it
holds. -/
def execUpdateWaitTimeout (e : Env) (energy : Nat) (s : State) : Answer :=
  let s := applyEnv e s
  let ended := (plannedTurns s).any fun q => q.entry.kind = Kind.commit && decide (q.startAt + q.entry.duration ≤ s.ht)
  let waits := (s.upd.started && !s.step.updDone && s.upd.waiting) || !s.basin.queue.isEmpty
  if !(flumeRuns s && !s.refill.frozen && ended && waits) || s.basin.stopped then .next s
  else
    let s := { s with upd.started := s.upd.started && s.step.updDone, basin.stopped := true }
    match s.step.turns.find? fun r => r.kind = Kind.update ∧ r.step = stepNum s ∧ (r.phase = 1 ∨ r.phase = 2) with
    | some r => .next (if r.phase = 1 then finishRun r energy s else lateRun r s)
    | none => .next s

/-! ### Lease, lock and margin -/

/-- LEASE_RAISE (R93): lease hold rises OSE_LEASE_LEAD before a turn. -/
def execLeaseRaise (e : Env) (i : Nat) (s : State) : Answer :=
  let s := applyEnv e s
  let lead := regNat s Reg.leaseLead
  let due := (plannedTurns s ++ nextTurns s).any fun q =>
    q.idx = i && decide (q.startAt ≤ s.ht + lead) && decide (s.ht ≤ q.startAt + q.entry.duration) && (runOf s q.idx q.step).isNone
  .next (if flumeRuns s && s.power.state = 0 && !s.refill.frozen && due then { s with power.leaseHold := true } else s)

/-- LEASE_GRANT (R66): the turns that wait for it are evaluated, each DELTA before its UPDATE (R89). -/
def execLeaseGrant (e : Env) (s : State) : Answer :=
  let s := applyEnv e s
  if !s.power.leaseHold then .next s
  else
    let s := { s with power.leaseGrant := true, power.breach := false }
    .next (dropLease (evalAll s))

/-- BREACH (R67, R94): signalled while the lease is held, it is counted; accepted turns go on. -/
def execBreach (e : Env) (s : State) : Answer :=
  let s := applyEnv e s
  .next (if s.power.leaseHold then flagEvent 10 (count Reg.breaches 1 { s with power.breach := true }) else s)

/-- LOCK_DROP (R65): counted while the engine has power, with an event where the culvert carries one. -/
def execLockDrop (e : Env) (s : State) : Answer :=
  let s := applyEnv e s
  if !s.power.lock then .next s
  else
    let s := { s with power.lock := false }
    if s.power.state = 3 then .next s
    else
      let s := flagEvent 9 (count Reg.htLockDrops 1 s)
      .next (if flumeRuns s then event 0x14 0 0 (le 1 0) s else s)

/-- LOCK_REGAIN (R65): admission resumes at turns that start 1 ms later. -/
def execLockRegain (e : Env) (s : State) : Answer :=
  let s := applyEnv e s
  if s.power.lock then .next s
  else
    let s := { s with power.lock := true, power.lockBack := some s.ht }
    .next (if flumeRuns s then event 0x14 0 0 (le 1 1) s else s)

/-- REPLICA_SAMPLE (R86): the ratio with the characterised delay, lowered by the chain's trim (R438); the lowest reading also counts for the turns that run (R99). -/
def execReplicaSample (e : Env) (chain : Fin 24) (reading : Nat) (s : State) : Answer :=
  let s := applyEnv e s
  if 2 ≤ s.power.state then .next s
  else
    let s := { s with power.replicas := (recentReplicas s).filter (fun r => r.1 ≠ chain.val) ++ 
      (recentReplicas s).filter (fun r => r.1 = chain.val) ++ [(chain.val, reading % 65536 * s.fw.trims.getD chain.val 0x1000 / 4096, s.ht)] }
    let low := lowestReplica s
    .next { s with step.turns := s.step.turns.map fun r => if r.phase = 1 then { r with lowest := min r.lowest low } else r }

end Sys2Proof.Machine
end

