-- ==== Sys2Proof/Machine/Registers.lean ====
section
/-! DEFINITION. Commands of the register window: plain writes and reads, shadow configuration and its commit, error injection (R9 to R13, R56,
R270, R326, R351, R383 to R399, R409). -/

namespace Sys2Proof.Machine

open Sys2Proof

/-- An access ignored and counted (R384, R399, R409). -/
def badAccess (off : Nat) (s : State) : State := regPut Reg.badAccessAt (off % 2 ^ 20) (count Reg.badAccess 1 s)

/-- What a write meets before its own effect: none in E3, counted and ignored in E2 (R398, R409). -/
def hostWriteTo (off : Nat) (go : State → State) (s : State) : State :=
  if s.power.state = 3 then s else if s.power.state = 2 then badAccess off s else go s

/-- A write of a register of a ring block: addresses and size only while the ring is disabled, an address at its high half (R10, R351). -/
def ringWrite (base n off : Nat) (v : Word) (s : State) : State :=
  let q := ringNo n
  if [Reg.ringSqBaseLo, Reg.ringCqBaseLo, Reg.ringDbLo].contains base then
    if (ringOf s q).enabled then s else { s with loHold := putKey off v s.loHold }
  else if [Reg.ringSqBaseHi, Reg.ringCqBaseHi, Reg.ringDbHi].contains base then
    if (ringOf s q).enabled then s
    else regSet off v (regSet (off - 4) (getKey (off - 4) (regGet s (off - 4)) s.loHold) { s with loHold := s.loHold.filter fun e => e.1 ≠ off - 4 })
  else if base = Reg.ringSize ∧ (ringOf s q).enabled then s
  else if inRange base (v.toNat &&& fieldMask base) then regPut off (v.toNat &&& fieldMask base) s
  else badAccess off s

/-- Registers whose writes are commands of their own. -/
def ownCommand (base : Nat) : Bool :=
  [Reg.pwrCtrl, Reg.ringCtrl, Reg.chPgInject].contains base || shadowRegs.contains base

/-- A write of OSE_CFG_COMMIT: ignored and counted while a commit is pending; discard goes before commit (R391, R392, R396). -/
def commitWrite (v : Word) (s : State) : State :=
  if s.pendingCommit then count Reg.cfgLate 1 s
  else if bit 1 v.toNat then refreshCfg (discardStaged s)
  else if bit 0 v.toNat then requestCommit s
  else s

/-- A write of a register without behaviour of its own, or of OSE_CFG_COMMIT with any value (R11, R383 to R385, R392, R396, R399). -/
def plainWrite (off : Nat) (v : Word) (s : State) : State :=
  match rowAt off with
  | none => s
  | some (r, n) =>
    if r.off = Reg.cfgCommit then commitWrite v s
    else if ownCommand r.off then s
    else if r.off = Reg.reset then
      let key := v.toNat / 65536
      let kind := v.toNat % 16
      if key = 0xC3A5 ∧ (kind = 1 ∨ kind = 2) then s else badAccess off s
    else
      match r.acc with
      | .ro => s
      | .wo => s
      | .rwc => s
      | .w1c => regSet off (regGet s off &&& ~~~v) s
      | .ctr => regPut off 0 s
      | .rw | .rs =>
        if Reg.ringCtrl ≤ r.off ∧ r.off ≤ Reg.ringHalts then ringWrite r.off n off v s
        else if inRange r.off (v.toNat &&& fieldMask r.off) then regPut off (v.toNat &&& fieldMask r.off) s
        else badAccess off s

/-- REGISTER_WRITE (R384). In E2 a write of OSE_RESET that is not valid wakes the engine all the same (R408, R409). -/
def execRegisterWrite (e : Env) (off : Nat) (v : Word) (s : State) : Answer :=
  let s := applyEnv e s
  .next (if s.power.state = 2 ∧ off = Reg.reset then wake (plainWrite off v s) else hostWriteTo off (plainWrite off v) s)

/-- SHADOW_REGISTER_WRITE (R390, R392). -/
def execShadowRegisterWrite (e : Env) (off : Nat) (v : Word) (s : State) : Answer :=
  let s := applyEnv e s
  if !shadowRegs.contains off then .next s
  else .next (hostWriteTo off (fun s => if s.pendingCommit then count Reg.cfgLate 1 s else stage off v false s) s)

/-- CONFIG_COMMIT (R326, R391, R392). -/
def execConfigCommit (e : Env) (s : State) : Answer :=
  .next (hostWriteTo Reg.cfgCommit (commitWrite 1) (applyEnv e s))

/-- CONFIG_DISCARD (R392, R396). -/
def execConfigDiscard (e : Env) (s : State) : Answer :=
  .next (hostWriteTo Reg.cfgCommit (commitWrite 2) (applyEnv e s))

/-- Whether one of the moments has come at which a pending commit applies; the instant of a mode change is that change's (R391, R346). -/
def commitMoment (s : State) : Bool :=
  s.refill.frozen || !planActive s || (plannedTurns s).any fun q => decide (q.startAt ≤ s.ht) && (runOf s q.idx q.step).isNone

/-- CONFIG_COMMIT_APPLY (R391, R393). -/
def execConfigCommitApply (e : Env) (s : State) : Answer :=
  let s := applyEnv e s
  .next (if s.power.state < 2 && commitMoment s then applyPending s else s)

/-- ERROR_INJECT (R270): arms the next whole page written on a channel. -/
def execErrorInject (e : Env) (n : Fin 24) (v : Word) (s : State) : Answer :=
  .next (hostWriteTo (Reg.chPgInject + n.val * 0x1000) (fun s =>
    let rest := s.guard.injections.filter fun i => i.1 ≠ n
    let k := bits 6 0 v.toNat
    { s with guard.injections := if k = 0 then rest else rest ++ [(n, k, bits 23 8 v.toNat)] }) (applyEnv e s))

/-- BAD_REGISTER_ACCESS (R56, R384, R409): all ones on a read; counted, but in E3 a write is not. -/
def execBadRegisterAccess (e : Env) (off : Nat) (isWrite : Bool) (s : State) : Answer :=
  let s := applyEnv e s
  let s := if isWrite then s else { s with lastRead := BitVec.allOnes 32 }
  .next (if s.power.state = 3 then s else badAccess off s)

/-- A read of one register that takes no new capture: the other seven of a captured intake entry in ascending order, the high half of a
captured pair, any other at its current value; in E3 nothing captured is left (R10, R387, R398). -/
def readPlain (off : Nat) (s : State) : State :=
  if s.power.state = 3 then { s with lastRead := readReg s off }
  else
    match s.intakeCap.find? fun c => off = Reg.intakeW + c.1 * 0x20 + c.2.2 * 4 ∧ c.2.2 < 8 with
    | some (w, ws, n) =>
      let rest := s.intakeCap.filter fun c => c.1 ≠ w
      { s with lastRead := ws.getD n 0, intakeCap := if n = 7 then rest else rest ++ [(w, ws, n + 1)] }
    | none =>
      match s.wideCap.find? fun c => c.1 = off with
      | some c => { s with lastRead := c.2, wideCap := s.wideCap.filter fun x => x.1 ≠ off }
      | none => { s with lastRead := readReg s off }

/-- WIDE_REGISTER_CAPTURE (R10): a read of a _LO half captures the pair; a read of another register takes what was captured for it. -/
def execWideRegisterCapture (e : Env) (off : Nat) (s : State) : Answer :=
  let s := applyEnv e s
  .next (if isReadPair off && s.power.state ≠ 3 then { s with lastRead := readReg s off, wideCap := putKey (off + 4) (readReg s (off + 4)) s.wideCap } else readPlain off s)

/-- INTAKE_ENTRY_CAPTURE (R387). -/
def execIntakeEntryCapture (e : Env) (w : Fin 64) (s : State) : Answer :=
  let s := applyEnv e s
  let ws := (List.range 8).map fun n => readReg s (Reg.intakeW + w.val * 0x20 + n * 4)
  .next { s with
    lastRead := ws.getD 0 0,
    intakeCap := if s.power.state = 3 then s.intakeCap else (s.intakeCap.filter fun c => c.1 ≠ w.val) ++ [(w.val, ws, 1)] }

end Sys2Proof.Machine
end

