-- ==== Sys2Proof/Machine/Rings.lean ====
section
/-! DEFINITION. The rings at work: polling, copying, taking and starting descriptors, enabling, disabling, resetting and halting a ring,
deferred messages (R351 to R369). -/

namespace Sys2Proof.Machine

open Sys2Proof

/-- Whether rings are polled: in E0 and E1, once a start is over, and while no controller restarts; in dry mode too (R353, R362, R418). -/
def ringsServed (s : State) : Bool := decide (s.power.state < 2) && (s.ready || s.dry) && s.restarting.isEmpty

/-! ### Polling (R353 to R357) -/

/-- The descriptor at a submission index as it lies in host memory. -/
def fetchDesc (s : State) (q : Fin 16) (j : Nat) : Desc :=
  let slot := fun (i : Nat) => hostRead s (sqBase s q + i % sqSlots s q * 64) 64
  let first := slot j
  { idx := j, fetchedAt := s.ht, bytes := if bit 0 (field 1 1 first) then first ++ slot (idxAdd j 1) else first }

/-- Slots copied up to the tail, at most `budget`; both halves of an extended descriptor or neither (R356). -/
def copySlots (q : Fin 16) : Nat → Nat → State → State
  | 0, _, s => s
  | fuel + 1, budget, s =>
    let r := ringOf s q
    let avail := min budget (idxSub r.sqTail r.sqHead)
    if avail = 0 then s
    else
      let d := fetchDesc s q r.sqHead
      if avail < d.span then s
      else copySlots q fuel (budget - d.span) (setRing q { r with copied := r.copied ++ [d], sqHead := idxAdd r.sqHead d.span } s)

/-- The submission head written to the doorbell block, where it has moved (R355). -/
def writeHead (q : Fin 16) (old : Nat) (s : State) : State :=
  let h := (ringOf s q).sqHead
  if h = old then s else hostWrite (doorbell s q + 32) (le 4 h) s

/-- Copied descriptors taken in order while the completion ring has room (R357), which wakes an idle engine (R408); in dry mode each is completed
at once (R362). -/
def takeReady (q : Fin 16) : Nat → State → State
  | 0, s => s
  | n + 1, s =>
    let r := ringOf s q
    match r.copied with
    | [] => s
    | d :: rest =>
      if !r.isOpen || !hasRoom s q d.slots then s
      else
        let s := if quietOps.contains d.op then s else wake s
        let d := { d with takeSeq := s.takeCount, noTag := decide (tagOf s = 0) }
        let s := { s with takeCount := s.takeCount + 1 }
        if s.dry then
          takeReady q n (complete q d { status := Code.dryMode } (setRing q { r with copied := rest, running := r.running ++ [d] } s))
        else
          takeReady q n (setRing q { r with copied := rest, taken := r.taken ++ [d] } s)

/-- One poll of a ring (R354 to R357, R365). -/
def pollRing (q : Fin 16) (s : State) : State :=
  if !(ringsServed s && (ringOf s q).isOpen) then s
  else
    let tail := field 0 4 (hostRead s (doorbell s q) 4)
    let head := field 0 4 (hostRead s (doorbell s q + 4) 4)
    let r := ringOf s q
    let s := setRing q { r with sqTail := tail, cqHead := head } s
    if sqSlots s q < idxSub tail r.sqHead ∨ cqSlots s q < idxSub r.cqTail head then haltRing q 3 0 s
    else
      let s := flushLost q s
      let s := takeReady q (ringOf s q).copied.length s
      let s := writeHead q r.sqHead (copySlots q 16 16 s)
      takeReady q (ringOf s q).copied.length s

/-- RING_POLL (R353 to R357). -/
def execRingPoll (e : Env) (q : Fin 16) (s : State) : Answer := .next (pollRing q (applyEnv e s))

/-! ### Starting (R358, R359, R171, R214, R276, R290, R321) -/

/-- DESCRIPTOR_START: the next taken descriptor of a ring starts, in ring order (R358). -/
def execDescriptorStart (e : Env) (q : Fin 16) (s : State) : Answer :=
  let s := applyEnv e s
  let r := ringOf s q
  match r.taken with
  | [] => .next s
  | d :: rest =>
    .next (if flumeRuns s && ringsServed s && mayStart s q d then
      let s := setRing q { r with taken := rest, running := r.running ++ [d] } s
      let s := if d.wellFormed then count Reg.rsvdFields d.reservedSet s else s
      if d.op = Op.snapExport ∨ d.op = Op.streamWindow then refreshSlots s else s
    else s)

/-- `n` bytes from an address that nothing defines any more, fresh ones at each use (assumption 6). -/
def undefinedBytes (a n : Nat) (s : State) : Bytes × State :=
  let r := takeFree s
  ((List.range n).map fun i => Config.undefinedByte r.1 (a + i), r.2)

/-- Undefined host memory from an address. -/
def scrambleHost (a n : Nat) (s : State) : State :=
  let r := undefinedBytes a n s
  hostWrite a r.1 r.2

/-- Undefined flash from an offset of the partition. -/
def scrambleFlash (a n : Nat) (s : State) : State :=
  let r := undefinedBytes a n s
  flashWrite a r.1 r.2

/-- Undefined content of a range of a region, where the region has it. -/
def scrambleRegion (r off n : Nat) (s : State) : State :=
  if off + n ≤ regionSize s r then scramble (regionBase s r + off) n s else s

/-- What a descriptor that ends with INTERNAL names as its result: the ranges and regions left undefined (R381, assumption 85). -/
def undefineNamed (d : Desc) (s : State) : State :=
  if d.op = Op.regionSet then ((List.range 5).filter fun r => bit r (d.f 8 1)).foldl (fun s r => scrambleRegion r 0 (regionSize s r) s) s
  else if d.op = Op.stateFill ∨ d.op = Op.scrubRange ∨ d.op = Op.repairRange then scrambleRegion (d.f 8 1) (d.f 16 8) (d.f 24 8) s
  else if d.op = Op.snapPond then setPondState 0 0xFFFFFFFF (scrambleRegion 2 0 (regionSize s 2) { s with pond.recAt := none })
  else if d.op = Op.restoreLoad ∨ d.op = Op.restoreReslice then scrambleRegion 0 0 (regionSize s 0) s
  else if d.op = Op.healthRead then scrambleHost (d.f 24 8) (8 * d.f 12 4 * 32) s
  else if d.op = Op.counterRead then scrambleHost (d.f 24 8) (4 * d.f 12 4) s
  else if d.op = Op.snapExport ∨ d.op = Op.snapManifest then scrambleHost (d.f 24 8) (d.f 32 8) s
  else if d.op = Op.restoreScan then scrambleHost (d.f 8 8) (d.f 16 8) s
  else if d.op = Op.streamWindow then scramble (d.f 32 8) (d.f 24 4 * 65536) s
  else if d.op = Op.fwStage then scrambleFlash (3 * 2 ^ 30 + d.f 24 4 * 2 ^ 26) (d.f 16 4) s
  else if d.op = Op.snapDrain then voidTarget s
  else s

/-- The work in hand of a descriptor given up: its copy, its drain, its window, its range, its restore (R381). -/
def dropWork (q : Fin 16) (d : Desc) (s : State) : State :=
  let mine := fun (r : Fin 16) (i : Nat) => decide (r = q) && decide (i = d.idx)
  let s := { s with
    guard.attempts := s.guard.attempts.filter fun (a : Attempt) => decide (a.forWhom ≠ RepairFor.descriptor q d.idx),
    guard.ranges := s.guard.ranges.filter fun (r : RangeWait) => !mine r.ring r.idx,
    regionWait := s.regionWait.filter fun w => !mine w.1 w.2.1,
    pond.copy := s.pond.copy.filter fun (c : PondCopy) => c.turn.isSome || !mine c.ring c.idx,
    pond.streams := s.pond.streams.filter fun (x : Stream) => !mine x.ring x.idx }
  let s := if s.pond.drain.any (fun (x : Drain) => mine x.ring x.idx) then { s with pond.drain := none, pond.held := false } else s
  if s.restore.running && mine s.restore.ring s.restore.idx then endRestore Code.internal s.restore.state true s else s

/-- A descriptor in whose work the engine detects a fault in itself ends with INTERNAL; what it names is undefined, the event carries the opcode,
every other region and ring is as before (R381, R400). -/
def internalFault (q : Fin 16) (d : Desc) (s : State) : State :=
  let s := event 0x16 Code.internal 0 (le 1 d.op) (flagEvent 7 (dropWork q d (undefineNamed d s)))
  match runningAt s q d.idx with
  | some d => refreshSlots (complete q d { status := Code.internal } s)
  | none => refreshSlots s

/-- What a running descriptor of an opcode does: refused where it was taken with no tag committed (R323, R362), ended with INTERNAL where the
engine finds a fault in itself (R381), else `go`. Its memory traffic counts against the channel caps (R361). -/
def withDesc (q : Fin 16) (j op : Nat) (go : Desc → State → State) (s : State) : State :=
  if !controllersRun s then s
  else
    match runningAt s q j with
    | some d =>
      if d.op = op ∧ d.wellFormed then
        (if d.noTag && !taglessOps.contains op then refreshSlots (complete q d (refusedFor d 0xE4) s)
        else if s.selfFault then internalFault q d s
        else charge (traffic s) (go d s))
      else s
    | none => s

/-! ### Control of a ring (R351, R367 to R369) -/

/-- A ring as a write of its control register leaves it: enabled anew, its indices at 0 and its phase at 1 (R351). -/
def enableRing (q : Fin 16) (reportIrq : Bool) (s : State) : State :=
  let r := ringOf s q
  if r.resetting then s
  else if r.enabled then setRing q { r with reportIrq := reportIrq } s
  else setRing q { r with
    enabled := true, closing := false, reportIrq := reportIrq, sqHead := 0, sqTail := 0, cqTail := 0, cqHead := 0, copied := [] } s

/-- RING_ENABLE (R351). -/
def execRingEnable (e : Env) (q : Fin 16) (reportIrq : Bool) (s : State) : Answer :=
  .next (hostWriteTo (ringReg q Reg.ringCtrl) (enableRing q reportIrq) (applyEnv e s))

/-- A ring disabled: what was taken and has not started is completed as refused (R367). -/
def disableRing (q : Fin 16) (reportIrq : Bool) (s : State) : State :=
  let r := ringOf s q
  if r.resetting then s
  else if !r.enabled then setRing q { r with reportIrq := reportIrq } s
  else
    let s := setRing q { r with
      enabled := false, closing := !r.running.isEmpty, reportIrq := reportIrq, copied := [], taken := [], running := r.running ++ r.taken } s
    r.taken.foldl (fun s d => complete q d (refusedFor d 0xE4) s) s

/-- RING_DISABLE (R367). -/
def execRingDisable (e : Env) (q : Fin 16) (reportIrq : Bool) (s : State) : Answer :=
  .next (hostWriteTo (ringReg q Reg.ringCtrl) (disableRing q reportIrq) (applyEnv e s))

/-- RING_DISABLE_DONE: nothing of a disabled ring runs any more, and its status shows it (R367). -/
def execRingDisableDone (e : Env) (q : Fin 16) (s : State) : Answer :=
  let s := applyEnv e s
  let r := ringOf s q
  .next (if r.closing ∧ r.running.isEmpty then setRing q { r with closing := false } s else s)

/-- A ring reset begun (R368). -/
def resetRing (q : Fin 16) (s : State) : State :=
  let r := ringOf s q
  if r.resetting then s else refreshSlots (setRing q { r.stopped with resetting := true, closing := false } s)

/-- RING_RESET (R368). -/
def execRingReset (e : Env) (q : Fin 16) (s : State) : Answer :=
  .next (hostWriteTo (ringReg q Reg.ringCtrl) (resetRing q) (applyEnv e s))

/-- RING_RESET_DONE: no descriptor of the ring is left, and no controller restarts; the control and status registers are at their reset values,
which do not survive it (R368, R382, R416, R421). -/
def execRingResetDone (e : Env) (q : Fin 16) (s : State) : Answer :=
  let s := applyEnv e s
  let r := ringOf s q
  .next (if r.resetting ∧ r.running.isEmpty ∧ s.restarting.isEmpty then
    setRing q { r with
      sqHead := 0, sqTail := 0, cqTail := 0, cqHead := 0, halted := false, enabled := false, resetting := false, muted := [], reportIrq := false, cause := 0 } s
  else s)

/-- MSI_X_HOLDOFF_EXPIRY: the message that waited is sent (R366). -/
def execMsixHoldoffExpiry (e : Env) (q : Fin 16) (s : State) : Answer :=
  let s := applyEnv e s
  .next (if (ringOf s q).msgDue then dueMsix q s else s)

/-- HOST_ACCESS_ERROR: the ring whose descriptor made the access halts; on a write of its own completion ring or doorbell block without an
event; a controller restart, in which records are still written, does not hide it (R59, R369, R418). -/
def execHostAccessError (e : Env) (q : Fin 16) (addr : Nat) (ownRing : Bool) (s : State) : Answer :=
  let s := applyEnv e s
  .next (if s.power.state < 2 && (s.ready || s.dry) then refreshSlots (haltRing q (if ownRing then 4 else 1) addr s) else s)

/-! ### FENCE and unknown opcodes (R360, R371) -/

/-- Whether every descriptor of a ring that was taken before a given one has completed. -/
def earlierDone (s : State) (r : Fin 16) (d : Desc) : Bool :=
  !((ringOf s r).taken ++ (ringOf s r).running).any fun x => decide (x.takeSeq < d.takeSeq)

/-- FENCE (R360). -/
def execFence (e : Env) (q : Fin 16) (j : Nat) (s : State) : Answer :=
  .next (withDesc q j Op.fence (fun d s =>
    if 1 < d.f 8 1 then complete q d (refusedWith 0xE3) s
    else if earlierDone s q d && (d.f 8 1 = 0 || (List.finRange 16).all fun r => earlierDone s r d) then complete q d {} s
    else s) (applyEnv e s))

/-- UNKNOWN_OPCODE: detail 0xE1, or 0xE2 where only the form is wrong (R371). -/
def execUnknownOpcode (e : Env) (q : Fin 16) (j : Nat) (s : State) : Answer :=
  let s := applyEnv e s
  if !controllersRun s then .next s
  else
    match runningAt s q j with
    | some d =>
      .next (if d.wellFormed then s else complete q d (refusedFor d (if opcodes.contains d.op then 0xE2 else 0xE1)) s)
    | none => .next s

end Sys2Proof.Machine
end

