-- ==== Sys2Proof/Machine/Descs.lean ====
section
/-! DEFINITION. Host descriptors on regions, plans, health, counters, scrub and repair (R47, R74, R81 to R85, R266, R372 to R377, R379). -/

namespace Sys2Proof.Machine

open Sys2Proof

/-! ### Regions (R4, R16, R47, R372) -/

/-- The largest size of each region, and of all together, in GiB (R3). -/
def regionLimits : List Nat := [512, 192, 512, 128, 8]

/-- One GiB. -/
def gib : Nat := 2 ^ 30

/-- The declarations that a REGION_SET would leave; a region of size 0 is removed. -/
def regionsAfter (s : State) (d : Desc) : List (Nat × Nat) :=
  (indexed 0 s.regions.toList).map fun x =>
    if bit x.1 (d.f 8 1) then (if d.f (24 + 16 * x.1) 8 = 0 then (0, 0) else (d.f (16 + 16 * x.1) 8, d.f (24 + 16 * x.1) 8)) else x.2

/-- Whether a REGION_SET keeps alignment, limits and the address map, and lets no two regions overlap (R4, R16, R372). -/
def regionsOk (s : State) (d : Desc) : Bool :=
  let new := regionsAfter s d
  (List.range 5).all (fun r => !bit r (d.f 8 1) || decide (d.f (16 + 16 * r) 8 % 65536 = 0 ∧ d.f (24 + 16 * r) 8 % 65536 = 0)) &&
    ((new.zip regionLimits).all fun x => decide (x.1.2 ≤ x.2 * gib)) && decide (sumOf (new.map fun x => x.2) ≤ 1280 * gib) &&
    (new.all fun x => decide (x.1 + x.2 ≤ 1536 * gib)) && disjointAll new

/-- What a changed region loses: the bank shares' slots are absent, the live offer is withdrawn, the pond's copy is gone with its record or its
image, undo entries with their window (R239, R252, R301, R372). -/
def regionChanged (r : Nat) (s : State) : State :=
  if r = 0 then { s with restore.liveOffer := false, restore.spareOffer := [] }
  else if r = 1 then allAbsent { s with basin.arrival := [], basin.pending := [] }
  else if r = 4 then { s with basin.undo := [] }
  else setPondState 0 0xFFFFFFFF { s with pond.recAt := none }

/-- The regions of a REGION_SET applied (R372). -/
def applyRegions (d : Desc) (s : State) : State :=
  let new := regionsAfter s d
  let changed := (List.range 5).filter fun r => new.getD r (0, 0) ≠ (regionBase s r, regionSize s r)
  let s := (indexed 0 new).foldl (fun s x => setRegion x.1 x.2.1 x.2.2 s) s
  changed.foldl (fun s r => regionChanged r s) s

/-- REGION_SET: the declarations apply at once; the partition's windows follow, and with its report the descriptor completes (R47, R372). -/
def execRegionSet (e : Env) (q : Fin 16) (j : Nat) (s : State) : Answer :=
  .next (withDesc q j Op.regionSet (fun d s =>
    if s.regionWait.any (fun w => w.1 = q ∧ w.2.1 = j) then s
    else if planActive s || s.refill.frozen || s.restore.running || restoreRuns s then complete q d (refusedWith 0xE4) s
    else if !regionsOk s d then complete q d (refusedWith 0xE3) s
    else
      let s := applyRegions d s
      { s with regionWait := s.regionWait ++ [(q, j, d.f 8 1 % 32, false)] }) (applyEnv e s))

/-- The REGION_SETs whose windows the partition has reported complete (R47). -/
def finishRegions (s : State) : State :=
  let sum := sumOf (s.regions.toList.map fun x => x.2)
  (s.regionWait.filter fun w => w.2.2.2).foldl (fun s w => match runningAt s w.1 w.2.1 with
    | some d => complete w.1 d { word := w.2.2.1, quad := sum } s
    | none => s) { s with regionWait := s.regionWait.filter fun w => !w.2.2.2 }

/-- PARTITION_WINDOWS_REPORT: the windows of the declarations are in force, and the descriptors that wait for them complete; in a controller restart
with its end (R47, R418). -/
def execPartitionWindowsReport (e : Env) (s : State) : Answer :=
  let s := applyEnv e s
  .next (if !flumeRuns s then s
    else
      let s := { s with windows := s.regions, regionWait := s.regionWait.map fun w => (w.1, w.2.1, w.2.2.1, true) }
      if controllersRun s then finishRegions s else s)

/-! ### STATE_FILL (R182, R373) -/

/-- The code a range of a region is refused with, if it is: 0xE6 where the region is not declared, 0xE3 (R371). -/
def rangeBad (s : State) (r off len unit : Nat) : Option Nat :=
  if 4 < r then some 0xE3
  else if regionSize s r = 0 then some 0xE6
  else if off % unit ≠ 0 ∨ len % unit ≠ 0 ∨ len = 0 ∨ regionSize s r < off + len then some 0xE3
  else none

/-- Bank-share slots that a write covers: their bits for the step the contents stand for; a slot written whole is present (R182). -/
def fillSlots (off len : Nat) (s : State) : State :=
  let odd := decide (s.step.committed.getD 0 % 2 = 1)
  (List.range (ceilDiv (off + len) 65536 - off / 65536)).foldl (fun s k =>
    let slot := off / 65536 + k
    let s := putArrival slot (fullByte (contributions s slot) odd) s
    if off ≤ slot * 65536 ∧ (slot + 1) * 65536 ≤ off + len then makePresent slot s else s) s

/-- The bytes of page n of a fill (R373). -/
def fillPage (s : State) (d : Desc) (n : Nat) : Bytes :=
  if d.f 9 1 = 0 then (List.replicate 512 (le 8 (d.f 32 8))).flatten else hostRead s (d.f 40 8 + n * 4096) 4096

/-- The state of the pond record where a fill may have written it (R298). -/
def refreshPond (s : State) : State :=
  match s.pond.recAt with
  | some a => if field 0 4 (peekSpan s 3 a 4) = regNat s Reg.pondState % 4 then s else setPondState 0 0xFFFFFFFF { s with pond.recAt := none }
  | none => s

/-- STATE_FILL (R373). -/
def execStateFill (e : Env) (q : Fin 16) (j : Nat) (s : State) : Answer :=
  .next (withDesc q j Op.stateFill (fun d s =>
    let (r, off, len) := (d.f 8 1, d.f 16 8, d.f 24 8)
    match (if 1 < d.f 9 1 then some 0xE3 else rangeBad s r off len 4096) with
    | some c => complete q d (refusedWith c) s
    | none =>
      if d.f 9 1 = 1 ∧ d.f 40 8 % 64 ≠ 0 then complete q d (refusedWith 0xE3) s
      else
        let src := s
        let s := (List.range (len / 4096)).foldl (fun s n => storePage r (regionBase s r + off + n * 4096) (fillPage src d n) s) s
        let s := if r = 0 then withdrawOffer (upFrom (off / 65536) (ceilDiv (off + len) 65536 - off / 65536)) s
          else if r = 1 then fillSlots off len s else if r = 3 then refreshPond { s with grads.scan := true } else s
        complete q d { quad := len } s) (applyEnv e s))

/-! ### Plans (R74, R81, R83, R84, R189, R319, R343, R374) -/

/-- A plan taken into the standby slot, with its chunk order table (R189). -/
def takePlan (p : Plan) (s : State) : State :=
  let tab := if planActive s then 1 - s.plans.activeTab else 0
  let s := { s with plans.standby := some p, plans.dropStandbyAt := none, plans.standbyTab := tab }
  mergeWrite 3 (cisternBase s + orderArea s p + tab * (8 * plotChunks s)) (orderTable (chunkOrder s p)) .escalation s

/-- PLAN_LOAD (R74, R84, R374). -/
def execPlanLoad (e : Env) (q : Fin 16) (j : Nat) (s : State) : Answer :=
  .next (withDesc q j Op.planLoad (fun d s =>
    let len := d.f 16 4
    if d.f 8 8 % 64 ≠ 0 ∨ len < 128 ∨ 2097152 < len then complete q d (refusedWith 0xE3) s
    else if s.plans.armed.isSome && s.plans.standby.isSome then complete q d (refusedWith 0x13) s
    else
      let img := hostRead s (d.f 8 8) len
      let code := audit s img len
      let s := count Reg.rsvdFields (planReserved img code) s
      if code ≠ 0 then complete q d (refusedWith code) { s with plans.standby := none, plans.dropStandbyAt := none }
      else complete q d { word := (planOf img).id, quad := len } (takePlan (planOf img) s)) (applyEnv e s))

/-- Whether a PLAN_ARM is allowed (R81, R319, R343, R374). -/
def armOk (s : State) (d : Desc) : Bool :=
  let n := d.f 16 4
  (s.plans.standby.any fun p => p.id = d.f 12 4) &&
  (if d.f 8 1 = 0 then planActive s && decide (stepNum s < n) && s.restore.armStep.isNone
   else !planActive s && decide (d.fetchedAt + 1000000 ≤ d.f 24 8) && s.job.live && decide (s.job.liveAt ≤ d.f 24 8) &&
     s.restore.armStep.all (· = n))

/-- PLAN_ARM (R81, R374). -/
def execPlanArm (e : Env) (q : Fin 16) (j : Nat) (s : State) : Answer :=
  .next (withDesc q j Op.planArm (fun d s =>
    let (n, at_) := (d.f 16 4, d.f 24 8)
    if 1 < d.f 8 1 then complete q d (refusedWith 0xE3) s
    else if !armOk s d then complete q d (refusedWith 0x14) s
    else if d.f 8 1 = 0 then complete q d { word := n } { s with plans.armed := some (.atStep n) }
    else complete q d { word := n, quad := at_ }
      { s with plans.armed := some (.atInstant n at_), step.nextAt := at_, restore.armStep := none }) (applyEnv e s))

/-- PLAN_RETIRE (R83, R374). -/
def execPlanRetire (e : Env) (q : Fin 16) (j : Nat) (s : State) : Answer :=
  .next (withDesc q j Op.planRetire (fun d s =>
    if s.plans.active.all fun p => p.id ≠ d.f 8 4 then complete q d (refusedWith 0xE4) s
    else complete q d { word := u32 (stepNum s + 1) } { s with plans.retireAt := some (stepNum s + 1) }) (applyEnv e s))

/-! ### Health and counters (R376, R377) -/

/-- The history of a range of tensors, one span for each of the eight steps it holds (R165, R376). -/
def healthSpans (base first n h : Nat) (s : State) : Bytes × List Nat × State :=
  (List.range 8).foldl (fun acc z =>
    let r := readSpan 3 (base + 32 * (z * h + first)) (32 * n) { descriptor := true } acc.2.2
    (acc.1 ++ r.1, acc.2.1 ++ r.2.1, r.2.2)) (([], [], s) : Bytes × List Nat × State)

/-- An unreadable page of the health history: lost and rewritten as zeros, whether or not a plan is active (R257). -/
def rewriteHealth (a : Nat) (s : State) : State :=
  if cisternArea s (a - cisternBase s) = 4 then escalate 3 a .escalation s
  else storePage 3 a (zeros 4096) (reportUnrecoverable 3 a {} s)

/-- The history read goes to the host and its bad pages to the escalation. -/
def healthAnswer (q : Fin 16) (d : Desc) (buf n : Nat) (out : Bytes) (bad : List Nat) (s : State) : State :=
  complete q d { status := if bad.isEmpty then Code.ok else Code.pageUnrecoverable, word := 8 * n, quad := 8 * n * 32 }
    (hostWrite buf out (bad.foldl (fun s a => rewriteHealth a s) s))

/-- HEALTH_READ (R376). -/
def execHealthRead (e : Env) (q : Fin 16) (j : Nat) (s : State) : Answer :=
  .next (withDesc q j Op.healthRead (fun d s =>
    let (first, n, h, buf) := (d.f 8 4, d.f 12 4, d.f 16 4, d.f 24 8)
    let area := roundUp (8 * h * 32) 65536
    if regionSize s 3 = 0 then complete q d (refusedWith 0xE6) s
    else if n = 0 ∨ 8192 < n ∨ h < first + n ∨ buf % 64 ≠ 0 ∨ regionSize s 3 < area then complete q d (refusedWith 0xE3) s
    else
      let r := healthSpans (cisternBase s + regionSize s 3 - area) first n h s
      healthAnswer q d buf n r.1 r.2.1 r.2.2)
    (applyEnv e s))

/-- Whether a register clears when written (R385). -/
def clearsOnWrite (off : Nat) : Bool :=
  match rowAt off with
  | some (r, _) => r.acc == .ctr
  | none => false

/-- COUNTER_READ (R377). -/
def execCounterRead (e : Env) (q : Fin 16) (j : Nat) (s : State) : Answer :=
  .next (withDesc q j Op.counterRead (fun d s =>
    let (first, n, buf) := (d.f 8 4, d.f 12 4, d.f 24 8)
    if first % 4 ≠ 0 ∨ n = 0 ∨ 4096 < n ∨ 2 ^ 20 < first + 4 * n ∨ buf % 64 ≠ 0 then complete q d (refusedWith 0xE3) s
    else
      let offs := (List.range n).map fun i => first + 4 * i
      let out := offs.flatMap fun o => le 4 (readReg s o).toNat
      let s := if bit 0 (d.f 16 1) then (offs.filter clearsOnWrite).foldl (fun s o => regPut o 0 s) s else s
      complete q d { word := n, quad := s.hostTime } (hostWrite buf out s)) (applyEnv e s))

/-! ### Scrub and repair of a range (R266) -/

/-- One page of a SCRUB_RANGE: read, corrected, or escalated (R255, R266). -/
def scrubPage (r a : Nat) (w : RepairFor) (s : State) : State :=
  let fixed := !s.guard.damaged.contains a && (match decodePage s r a with
    | .good _ n => decide (0 < n)
    | .uncorrectable => false)
  let (p, s) := readPage r a (finderOf w) s
  let s := if fixed then noteRange w (fun x => { x with corrected := x.corrected + 1 }) s else s
  if p.isSome then s else escalate r a w s

/-- Every page of a range visited, on behalf of a descriptor. -/
def visitRange (q : Fin 16) (j r off len : Nat) (go : Nat → RepairFor → State → State) (s : State) : State :=
  let s := { s with guard.ranges := s.guard.ranges ++ [{ ring := q, idx := j }] }
  finishRanges ((List.range (len / 4096)).foldl (fun s n => go (regionBase s r + off + n * 4096) (.descriptor q j) s) s)

/-- A SCRUB_RANGE or REPAIR_RANGE begun, its range checked (R371). -/
def rangeDesc (q : Fin 16) (j op : Nat) (go : Nat → Nat → RepairFor → State → State) (s : State) : State :=
  withDesc q j op (fun d s =>
    let (r, off, len) := (d.f 8 1, d.f 16 8, d.f 24 8)
    if s.guard.ranges.any (fun x => x.ring = q ∧ x.idx = j) then s
    else
      match rangeBad s r off len 65536 with
      | some c => complete q d (refusedWith c) s
      | none => visitRange q j r off len (go r) s) s

/-- SCRUB_RANGE (R266). -/
def execScrubRange (e : Env) (q : Fin 16) (j : Nat) (s : State) : Answer := .next (rangeDesc q j Op.scrubRange scrubPage (applyEnv e s))

/-- REPAIR_RANGE: the escalation of every page, whether or not it decodes (R266). -/
def execRepairRange (e : Env) (q : Fin 16) (j : Nat) (s : State) : Answer := .next (rangeDesc q j Op.repairRange escalate (applyEnv e s))

end Sys2Proof.Machine
end

