-- ==== Sys2Proof/Machine/Snaps.lean ====
section
/-! DEFINITION. Host descriptors of the pond, the spillway and streaming, and the flash controller's reports (R62, R271, R276, R286 to R296,
R374, R379). -/

namespace Sys2Proof.Machine

open Sys2Proof

/-- The code that SNAP_POND is refused with, if it is (R271, R276). -/
def snapPondBad (s : State) : Option Nat :=
  if regionSize s 2 = 0 then some 0xE6
  else if regionSize s 2 < regionSize s 0 then some 0xE3
  else if planActive s || s.refill.frozen || s.step.committed.isNone || s.plans.standby.all fun p => some p.id ≠ s.plans.lastCommitId then some 0xE4
  else none

/-- SNAP_POND: the copy begins; it goes on as background class 3 (R276). It waits while the pond is held or another copy runs. -/
def execSnapPond (e : Env) (q : Fin 16) (j : Nat) (s : State) : Answer :=
  .next (withDesc q j Op.snapPond (fun d s =>
    match snapPondBad s, s.plans.standby with
    | some c, _ => complete q d (refusedWith c) s
    | none, none => complete q d (refusedWith 0xE4) s
    | none, some p =>
      if s.pond.held || s.pond.copy.isSome then s
      else { startCopy p s with pond.copy := some { turn := none, plan := some p, ring := q, idx := j } }) (applyEnv e s))

/-- SNAP_DRAIN (R287, R290). -/
def execSnapDrain (e : Env) (q : Fin 16) (j : Nat) (s : State) : Answer :=
  .next (withDesc q j Op.snapDrain (fun d s =>
    if s.pond.drain.isSome then s
    else if 1 < d.f 8 1 then complete q d (refusedWith 0xE3) s
    else if d.f 8 1 = 1 then putDrain { ring := q, idx := j, waitNext := true } s
    else beginDrain { ring := q, idx := j, waitNext := false } s) (applyEnv e s))

/-- The units of a range of the partition up to the first uncorrectable one, in bytes. -/
def goodBytes (bad : List Nat) (a n : Nat) : Nat :=
  match minOf (bad.filter fun u => decide (u * 4096 < a + n ∧ a < (u + 1) * 4096)) with
  | some u => u * 4096 - a
  | none => n

/-- SNAP_EXPORT (R293). -/
def execSnapExport (e : Env) (q : Fin 16) (j : Nat) (s : State) : Answer :=
  .next (withDesc q j Op.snapExport (fun d s =>
    let (i, x, buf, len) := (d.f 8 1, d.f 16 4, d.f 24 8, d.f 32 8)
    let out := if 7 < i ∨ buf % 64 ≠ 0 ∨ len % 64 ≠ 0 then complete q d (refusedWith 0xE3) s
      else
        match (if slotValid s i then writtenEntry s i x else none) with
        | none => complete q d (refusedWith 0xE4) s
        | some (off, stored, sum, _) =>
          if len < stored then complete q d { refusedWith 0xE5 with word := x, quad := stored } s
          else
            let a := slotBase s i + off
            let bs := flashRead s a stored
            let good := unitsGood s a stored
            let s := hostWrite buf (bs.take (goodBytes s.badUnits a stored)) s
            complete q d { status := if good && crc32c bs = sum then Code.ok else Code.pageUnrecoverable, detail := i, word := x, quad := stored } s
    refreshSlots out) (applyEnv e s))

/-- SNAP_MANIFEST (R293, R374). -/
def execSnapManifest (e : Env) (q : Fin 16) (j : Nat) (s : State) : Answer :=
  .next (withDesc q j Op.snapManifest (fun d s =>
    let (i, buf, len) := (d.f 8 1, d.f 24 8, d.f 32 8)
    if 7 < i ∨ buf % 64 ≠ 0 ∨ len % 64 ≠ 0 then complete q d (refusedWith 0xE3) s
    else if !slotValid s i then complete q d { status := Code.manifestIncomplete, detail := i } s
    else
      let need := 4096 + roundUp (32 * tableCount (manifestOf s i)) 4096
      if len < need then complete q d { refusedWith 0xE5 with word := need, quad := slotSeq s i } s
      else
        complete q d { detail := i, word := need, quad := slotSeq s i } (hostWrite buf (flashRead s (slotBase s i) need) s)) (applyEnv e s))

/-- The code that STREAM_WINDOW is refused with, if it is (R295). -/
def streamBad (s : State) (d : Desc) : Option Nat :=
  let (i, first, n, dst, rdy) := (d.f 8 1, d.f 20 4, d.f 24 4, d.f 32 8, d.f 40 8)
  if 7 < i then some 0xE3
  else if !(slotValid s i && bit i s.pond.pins) then some 0xE4
  else
    match writtenEntry s i (d.f 16 4) with
    | none => some 0xE4
    | some (_, _, _, chunks) =>
      if n = 0 ∨ chunks < first + n ∨ dst % 65536 ≠ 0 ∨ rdy % 4 ≠ 0 ∨ 1536 * gib < dst + n * 65536 ∨ 1536 * gib < rdy + 4 then some 0xE3
      else if s.regions.toList.any fun r => rangesMeet r (dst, n * 65536) then some 0xE3
      else none

/-- STREAM_WINDOW: the window begins; it goes on as background class 6 (R295, R296). -/
def execStreamWindow (e : Env) (q : Fin 16) (j : Nat) (s : State) : Answer :=
  .next (withDesc q j Op.streamWindow (fun d s =>
    if s.pond.streams.any (fun x => x.ring = q ∧ x.idx = j) then s
    else
      match streamBad s d with
      | some c => refreshSlots (complete q d (refusedWith c) s)
      | none => { s with pond.streams := s.pond.streams ++ [{ ring := q, idx := j }] }) (applyEnv e s))

/-- FLASH_BARRIER_DONE: the oldest barrier has completed (R62, R287). -/
def execFlashBarrierDone (e : Env) (s : State) : Answer :=
  let s := applyEnv e s
  match s.pond.barriers with
  | [] => .next s
  | b :: rest =>
    let s := { s with pond.barriers := rest }
    .next (match b with
      | .drain => drainBarrier s
      | .other => s)

/-- FLASH_WRITE_FAILURE: a drain that is writing its slot stops (R288). -/
def execFlashWriteFailure (e : Env) (s : State) : Answer := .next (drainFailed (applyEnv e s))

end Sys2Proof.Machine
end

