-- ==== Sys2Proof/Machine/Coding.lean ====
section
/-! DEFINITION. Packets and timers of the basin code and of the completeness agreement; packets that reach no function (R26, R50, R183 to R196,
R204 to R207, R238, R261, R331). -/

namespace Sys2Proof.Machine

open Sys2Proof

/-! ### Packets that reach no function -/

/-- MALFORMED_PACKET (R50, R331). -/
def execMalformedPacket (e : Env) (p : RawPkt) (s : State) : Answer :=
  let s := applyEnv e s
  .next (if malformed p.cls p.len p.head.offset then (intake p.head p.cls p.window p.len s).2 else s)

/-- UNMAPPED_WINDOW_PACKET (R331): the checks of the intake, in their order; a packet that passes them all is another command's. -/
def execUnmappedWindowPacket (e : Env) (p : RawPkt) (s : State) : Answer :=
  let s := applyEnv e s
  let r := intake p.head p.cls p.window p.len s
  .next (if r.1 then s else r.2)

/-! ### Mirrored inputs (R26, R28) -/

/-- A write of bytes at an address of a region: whole pages as such, anything less merged (R251, R253). -/
def storeBytes (r a : Nat) (bs : Bytes) (s : State) : State :=
  if a % 4096 = 0 ∧ bs.length % 4096 = 0 then storePages r (bs.length / 4096) a bs s else mergeWrite r a bs .escalation s

/-- The partner's inputs written in the mirrored area; a half is complete when its last byte arrives. -/
def takeMirror (p : Plan) (off : Nat) (bs : Bytes) (s : State) : State :=
  let s := storeBytes 3 (cisternBase s + 2 * p.inputHalf + off) bs s
  let half := off / max p.inputHalf 1
  let step := if half % 2 = stepNum s % 2 then stepNum s else stepNum s - 1
  if off + bs.length = (half + 1) * p.inputHalf then { s with step.mirrorGot := unionIdx s.step.mirrorGot [step] } else s

/-- MIRRORED_INPUT_STORE (R26). -/
def execMirroredInputStore (e : Env) (h : PktHead) (bs : Bytes) (s : State) : Answer :=
  .next (receive h 1 47 bs.length (fun s =>
    match s.plans.active with
    | some p => takeMirror p h.offset bs s
    | none => s) (applyEnv e s))

/-! ### Delta and combined pages (R185, R188, R192, R221, R239, R261) -/

/-- A basin packet discarded (R188). -/
def misplaced (s : State) : State := count Reg.bcMisplaced 1 s

/-- A repeated page or marker discarded (R188, R221). -/
def repeated (s : State) : State := count Reg.bcDuplicate 1 s

/-- A page added into the overlay of its slot page, where one stands (R261). -/
def addOverlay (slot page : Nat) (bs : Bytes) (s : State) : State :=
  { s with guard.overlays := s.guard.overlays.map fun o => if o.1 = slot ∧ o.2.1 = page then (slot, page, xorBytes o.2.2 bs) else o }

/-- A page of a contribution applied: accumulated unless the slot is absent, noted, and combined by the relay (R192, R221, R239). -/
def applyDelta (slot c page : Nat) (sender : Coord) (bs : Bytes) (s : State) : State :=
  let (i, j) := unplace s slot
  let s := if isAbsent s slot then s else count Reg.bcAccumPages 1 (accumPage 1 (bankAddr s slot page) bs s)
  let s := notePending slot c page (addOverlay slot page bs s)
  if basinMode s && isLocal s j then combine j i (memberOf s sender) page bs s else s

/-- ACCUM_XOR (R185, R188). -/
def execAccumXor (e : Env) (h : PktHead) (bs : Bytes) (s : State) : Answer :=
  .next (receive h 2 57 bs.length (fun s =>
    let slot := h.offset / 65536
    let page := h.offset / 4096 % 16
    let bad := h.stepLow ≠ stepNum s % 256 ∨ bs.length ≠ 4096 ∨ h.offset % 4096 ≠ 0 ∨ plotChunks s ≤ (unplace s slot).1
    match (if bad then none else contribOf s slot h.sender) with
    | none => misplaced s
    | some c =>
      if arrived s slot c ∨ (pendingOf s slot c).toNat.testBit page then repeated s else applyDelta slot c page h.sender bs s) (applyEnv e s))

/-! ### Markers (R183, R186, R188, R194, R196, R238) -/

/-- The slot that this chip holds of a stripe and the contribution of a sender in it, where the role fits the parity (R188). -/
def markerSlot (s : State) (relay : Bool) (chunk : Nat) (sender : Coord) : Option (Nat × Nat) :=
  if plotChunks s ≤ chunk then none
  else
    match heldParity s chunk with
    | none => none
    | some (j, slot) =>
      if (basinMode s && !isLocal s j) == relay then (contribOf s slot sender).map fun c => (slot, c) else none

/-- CHUNK_MARKER (R183, R188, R194). -/
def execChunkMarker (e : Env) (h : PktHead) (step role : Nat) (mask : BitVec 16) (chunk position : Nat) (s : State) : Answer :=
  let m : Marker := ⟨step, 0, role, mask, chunk, position⟩
  .next (receive h 6 59 (markerBytes m).length (fun s =>
    match (if step ≠ stepNum s ∨ 1 < role then none else markerSlot s (role = 1) chunk h.sender) with
    | none => misplaced s
    | some (slot, c) =>
      if arrived s slot c ∨ mask ≠ pendingOf s slot c then repeated s
      else
        let s := setArrived slot c { s with basin.owed := s.basin.owed ++ [((slot, c), h.sender, chunk)] }
        poke (checkComplete chunk s)) (applyEnv e s))

/-- INVALIDATE_MARKER: the bit set, the slot absent, and by a local holder the global holders told (R238). -/
def execInvalidateMarker (e : Env) (h : PktHead) (step chunk : Nat) (mask : BitVec 16) (position : Nat) (s : State) : Answer :=
  let m : Marker := ⟨step, 0, 2, mask, chunk, position⟩
  .next (receive h 6 59 (markerBytes m).length (fun s =>
    match (if step ≠ stepNum s ∨ plotChunks s ≤ chunk then none else heldParity s chunk) with
    | none => misplaced s
    | some (j, slot) =>
      match contribOf s slot h.sender with
      | none => misplaced s
      | some c =>
        if arrived s slot c then repeated s
        else
          let s := makeAbsent slot (setArrived slot c s)
          let s := { s with basin.invalid := unionIdx s.basin.invalid [chunk], refill.rebuildDue := true }
          let s := if basinMode s && isLocal s j then
              (List.range (geoG s)).foldl (fun s g =>
                sendMarker (rowHolder s chunk (groupsOf s + g)) 0 2 0 chunk (posOf s chunk) s) s
            else s
          poke (checkComplete chunk s)) (applyEnv e s))

/-- Whether a sender's member markers are for this chip (R188). -/
def memberSender (s : State) (c : Coord) : Bool := if mirrorMode s then c = partneredBy s else isOurMember s c

/-- A member's progress taken as far as a position (R193, R196). DEDUCED (assumption 93): a FINAL's position counts as the number of plot chunks. -/
def takeProgress (sender : Coord) (hi : Nat) (s : State) : State :=
  let m := memberOf s sender
  let hi := min hi (plotChunks s)
  if hi ≤ progressOf s m then s
  else
    let s := sweepMember sender hi s
    { s with basin.progress := putKey m hi s.basin.progress }

/-- PROGRESS_MARKER (R193, R196). -/
def execProgressMarker (e : Env) (h : PktHead) (step role position : Nat) (s : State) : Answer :=
  let m : Marker := ⟨step, 1, role, 0, 0, position⟩
  .next (receive h 6 59 (markerBytes m).length (fun s =>
    if step ≠ stepNum s ∨ role ≠ 0 ∨ !memberSender s h.sender then misplaced s else poke (takeProgress h.sender position s)) (applyEnv e s))

/-- FINAL_MARKER (R194, R196). -/
def execFinalMarker (e : Env) (h : PktHead) (step role : Nat) (s : State) : Answer :=
  let m : Marker := ⟨step, 2, role, 0, 0, 0xFFFFFFFF⟩
  .next (receive h 6 59 (markerBytes m).length (fun s =>
    if step ≠ stepNum s then misplaced s
    else if role = 0 ∧ memberSender s h.sender then
      let s := takeProgress h.sender (plotChunks s) s
      poke { s with basin.finals := unionIdx s.basin.finals [memberOf s h.sender] }
    else if role = 1 ∧ basinMode s ∧ isRowMate s h.sender then
      let s := sweepRelay h.sender s
      poke { s with basin.relayFinals := unionIdx s.basin.relayFinals [memberOf s h.sender] }
    else misplaced s) (applyEnv e s))

/-! ### Acknowledgements (R187, R193, R195) -/

/-- The bank position of a chip of this chip's bank. -/
def bankPosition (s : State) (c : Coord) : Option Nat := (bankPositions s).find? fun h => bankChip s (here s) h = c

/-- An acknowledgement of a holder to a member: undo entries freed, the limit taken (R187, R193, R197). -/
def memberAck (h : Nat) (k : AckBody) (s : State) : State :=
  let mine := fun (u : UndoEnt) => u.issued && k.entries.contains u.stripe &&
    (mirrorMode s || (place s u.stripe (memberOf s (here s) / 4)).1 == h)
  { s with
    basin.undo := s.basin.undo.filter fun u => !mine u,
    basin.limits := if k.limit = 0xFFFFFFFF then s.basin.limits else putKey h k.limit s.basin.limits }

/-- An acknowledgement of a global holder to a relay (R195). -/
def relayAck (pos : Nat) (k : AckBody) (s : State) : State :=
  { s with basin.relays := s.basin.relays.map fun e =>
      if k.entries.contains e.stripe ∧ e.sentTo.contains pos then { e with ackedBy := unionIdx e.ackedBy [pos] } else e }

/-- ACK (R187, R188). -/
def execAck (e : Env) (h : PktHead) (k : AckBody) (s : State) : Answer :=
  .next (receive h 5 58 (ackBodyBytes k).length (fun s =>
    if k.step ≠ stepNum s then misplaced s
    else
      match bankPosition s h.sender with
      | some p => poke (memberAck p k s)
      | none => if isRowMate s h.sender then poke (relayAck (memberOf s h.sender) k s) else misplaced s) (applyEnv e s))

/-- ACK_FLUSH: 4 µs have passed since the oldest pending entry (R187). -/
def execAckFlush (e : Env) (dest : Coord) (s : State) : Answer :=
  let s := applyEnv e s
  let due := s.basin.acks.any fun a => a.dest = dest && ackDue s a
  .next (if flumeRuns s && !s.refill.frozen && due then flushAck dest s else s)

/-- PROGRESS_TIMER: 10 µs after the last PROGRESS marker, with any advance (R190). -/
def execProgressTimer (e : Env) (dest : Coord) (s : State) : Answer :=
  let s := applyEnv e s
  match bankPosition s dest with
  | some h =>
    .next (if flumeRuns s && !s.refill.frozen && codedMode s && s.step.updBegun && !s.basin.stopped then sendProgress h false s else s)
  | none => .next s

/-! ### The agreement (R204 to R207) -/

/-- AGREEMENT_CONTRIBUTION (R204, R207). -/
def execAgreementContribution (e : Env) (h : PktHead) (k : Contribution) (s : State) : Answer :=
  .next (receive h 1 60 (contributionBytes k).length (takeContribution h.sender k) (applyEnv e s))

/-- AGREE_VERDICT (R205, R207). -/
def execAgreeVerdict (e : Env) (h : PktHead) (v : Verdict) (s : State) : Answer :=
  .next (receive h 7 60 (verdictBytes v).length (fun s => dropLease (takeVerdict v s)) (applyEnv e s))

/-- COMMIT_CUTOFF (R204). -/
def execCommitCutoff (e : Env) (s : State) : Answer :=
  let s := applyEnv e s
  .next (if flumeRuns s && decide (agreeCutoff s ≤ s.ht) then pumpAgree true s else s)

/-- COMMIT_ROOT_TIMEOUT (R205). -/
def execCommitRootTimeout (e : Env) (s : State) : Answer :=
  let s := applyEnv e s
  .next (if flumeRuns s && s.agree.open_ && (agreeParent s).isNone && !s.agree.verdictSent && !s.refill.frozen &&
      decide (s.agree.endAt - (hopOf s - 4000) ≤ s.ht) then sendIncomplete s else s)

/-- NO_VERDICT (R206). -/
def execNoVerdict (e : Env) (s : State) : Answer :=
  let s := applyEnv e s
  .next (if flumeRuns s && s.agree.open_ && s.agree.verdict.isNone && !s.refill.frozen && decide (s.agree.endAt + (hopOf s - 4000) ≤ s.ht) then
    reportIncomplete noIndex { (count Reg.bcNoVerdict 1 s) with agree.open_ := false }
  else s)

end Sys2Proof.Machine
end

