-- ==== Sys2Proof/Machine/Reduce.lean ====
section
/-! DEFINITION. Packets and deadlines of the reduction (R116 to R136). -/

namespace Sys2Proof.Machine

open Sys2Proof

/-! ### Downward packets (R117, R124, R128, R135) -/

/-- A result frame of the root taken (R124, R135). -/
def downFrame (p : Prefix) (sender : Coord) (offset : Nat) (lanes : List Lane) (exps : List Int) (s : State) : State :=
  withPacket p sender true offset (fun i s =>
    let k := keyOf p
    match frameNamed s k i offset with
    | none => s
    | some f =>
      let n := i.frameLen f
      takeResult k i f p.count p.fault (if k.scale then [] else fitTo n ⟨0, 0⟩ lanes) (if k.scale then fitTo n 0 exps else []) s) s

/-- The prefix, the lanes and the exponents of a frame's payload. -/
def frameParts : Payload → Option (Prefix × List Lane × List Int)
  | .lanes p ls => some (p, ls, [])
  | .exps p es => some (p, [], es)
  | .data _ => none
  | .marker _ => none
  | .ack _ => none
  | .upRecord _ _ => none
  | .resultRecord _ _ => none
  | .abortRecord _ => none
  | .contribution _ => none
  | .verdict _ => none
  | .start _ _ => none
  | .chain _ => none
  | .repair _ => none
  | .restore _ => none

/-- The window of an upward or downward frame (R116). -/
def frameWindow (p : Prefix) : Nat := if p.path then 62 else 61

/-- PARTIAL_FRAME (R122). -/
def execPartialFrame (e : Env) (h : PktHead) (body : Payload) (s : State) : Answer :=
  let s := applyEnv e s
  match frameParts body with
  | some (p, ls, es) =>
    .next (if p.down || p.record || p.abort then s
      else receive h 4 (frameWindow p) (wireLen s body) (upFrame p h.sender h.offset ls es) s)
  | none => .next s

/-- RESULT_FRAME (R124). -/
def execResultFrame (e : Env) (h : PktHead) (body : Payload) (s : State) : Answer :=
  let s := applyEnv e s
  match frameParts body with
  | some (p, ls, es) =>
    .next (if !p.down || p.record || p.abort then s
      else receive h 4 61 (wireLen s body) (downFrame p h.sender h.offset ls es) s)
  | none => .next s

/-- RETRY_FRAME: combined on its way up, converted on its way down (R135). -/
def execRetryFrame (e : Env) (h : PktHead) (p : Prefix) (ls : List Lane) (s : State) : Answer :=
  let s := applyEnv e s
  .next (if !p.retry || p.record || p.abort then s
    else if p.down then receive h 4 61 (wireLen s (.lanes p ls)) (downFrame p h.sender h.offset ls []) s
    else receive h 4 (frameWindow p) (wireLen s (.lanes p ls)) (upFrame p h.sender h.offset ls []) s)

/-! ### Records (R117, R123, R128) -/

/-- PARTIAL_RECORD (R123). -/
def execPartialRecord (e : Env) (h : PktHead) (p : Prefix) (bitmap : List Nat) (s : State) : Answer :=
  let s := applyEnv e s
  .next (if p.down || p.abort || !p.record then s
    else receive h 4 63 (wireLen s (.upRecord p bitmap)) (upRecord p h.sender bitmap) s)

/-- RESULT_RECORD: a reach marked "retry pending" is retried while its GAP runs (R117, R135). -/
def execResultRecord (e : Env) (h : PktHead) (p : Prefix) (r : ResultRec) (s : State) : Answer :=
  let s := applyEnv e s
  .next (if !p.down || p.abort || !p.record then s
    else receive h 4 63 (wireLen s (.resultRecord p r))
      (withPacket p h.sender true 0 fun i s => pumpReduction (takeRecord (keyOf p) i r p.fault s)) s)

/-- Whether an upward abort comes from a chip that R128 lets send one here: a child, or the root of the other path. -/
def abortSender (s : State) (p : Prefix) (i : RInfo) (sender : Coord) : Bool :=
  (kidsOf s (keyOf p) i).contains sender || (i.dual && (parentFor s (keyOf p) i).isNone && sender == i.rootChip s (!p.path))

/-- An abort taken: forwarded upward, or the collective discarded (R128, R129). -/
def takeAbort (p : Prefix) (sender : Coord) (s : State) : State :=
  if s.red.checkStarted then s
  else
    let k := keyOf p
    match infoOf s { k with path1 := false, retry := false } with
    | none => count Reg.redDigest 1 s
    | some i =>
      if (k.path1 && !i.dual) || !(if p.down then sender == i.rootChip s false else abortSender s p i sender) then count Reg.redDigest 1 s
      else
        let s := if p.digest ≠ i.digest then count Reg.redDigest 1 s else s
        if p.down then discardColl k s else abortUp { k with retry := false } s

/-- ABORT_RECORD (R128). -/
def execAbortRecord (e : Env) (h : PktHead) (p : Prefix) (s : State) : Answer :=
  let s := applyEnv e s
  .next (if !p.abort || !p.record then s
    else receive h 4 63 (wireLen s (.abortRecord p)) (fun s => pumpReduction (takeAbort p h.sender s)) s)

/-! ### Path-1 results (R133, R134) -/

/-- A frame of the second path is kept beside the first path's, to be compared with it when the collective settles. -/
def keepFinal (p : Prefix) (k : RKey) (i : RInfo) (f : Nat) (ls : List Lane) (s : State) : State :=
  let x : Path1Frame :=
    { coll := k.coll, reach := k.reach, f := f, count := p.count, lanes := fitTo (i.frameLen f) ⟨0, 0⟩ ls, retry := k.retry }
  let s := { s with red.path1 := s.red.path1 ++ [x] }
  let s := if p.fault then updReach k (fun r => { r with fault := true }) s else s
  if k.retry then s else settleReach false k i s

/-- A path-1 root's final frame held for comparison at the path-0 root (R133); a frame that comes after the comparison is late (R122). -/
def takeFinal (p : Prefix) (sender : Coord) (offset : Nat) (ls : List Lane) (s : State) : State :=
  if s.red.checkStarted then s
  else
    let k := { keyOf p with path1 := false }
    match infoOf s { k with retry := false } with
    | none => count Reg.redDigest 1 s
    | some i =>
      if !i.dual || i.rootChip s false ≠ here s || sender ≠ i.rootChip s true then count Reg.redDigest 1 s
      else
        match frameNamed s { k with path1 := true } i offset with
        | none => count Reg.redDigest 1 s
        | some f =>
          if p.digest ≠ i.digest then abortUp { k with retry := false } (count Reg.redDigest 1 s)
          else if s.red.aborted.contains p.coll then s
          else if (if k.retry then (reachAt s k).any fun r => r.closed else s.red.settled.contains (k.coll, k.reach)) then
            count Reg.redLate 1 s
          else if (path1Of s k f).isSome then s
          else
            keepFinal p k i f ls s

/-- PATH1_FINAL_FRAME (R133). -/
def execPath1FinalFrame (e : Env) (h : PktHead) (p : Prefix) (ls : List Lane) (s : State) : Answer :=
  let s := applyEnv e s
  .next (if !p.path || p.down || p.record || p.abort || decide (h.offset < 1572864) then s
    else receive h 4 62 (wireLen s (.lanes p ls)) (fun s => pumpReduction (takeFinal p h.sender h.offset ls s)) s)

/-! ### Cut-offs and deadlines (R121, R124, R134, R135) -/

/-- Whether the reduction of the step in flight still runs at this chip. -/
def reduceRuns (s : State) : Bool := flumeRuns s && !s.refill.frozen && !s.red.checkStarted

/-- The keys of a turn's reaches that this chip takes part in on a path, in the order of q, from the turn's start on, be it waiting for the
lease; the retries for the retry GAP. -/
def keysAt (s : State) (i : Nat) (path1 : Bool) : List RKey :=
  match s.plans.active.bind fun p => (p.turns[i]?).map fun t => (p, t) with
  | none => []
  | some (p, t) =>
    if t.kind = Kind.gap then
      (s.red.reaches.filter fun r => r.retry && r.path1 == path1).map Reach.key
    else if t.kind ≠ Kind.scale ∧ t.kind ≠ Kind.reduce then []
    else if s.red.begun.contains i || (s.step.turns.any fun r => r.idx = i && r.step = stepNum s) then
      (turnKeys p t).filterMap fun k =>
        if !path1 then some k
        else
          match infoOf s k with
          | some inf => if (sampledFrames s k inf).isEmpty then none else some { k with path1 := true }
          | none => none
    else (s.red.reaches.filter fun r => r.turn = i && r.path1 == path1 && !r.retry).map Reach.key

/-- A reach whose cut-off has passed closed with the sums it holds, opened first where nothing of it has come (R121). -/
def cutReach (k : RKey) (i : RInfo) (s : State) : State :=
  if s.ht < cutoffAt s k i ∨ s.red.aborted.contains k.coll then s else advanceReach true k (openFor k i s)

/-- Every reach of a turn on a path whose root satisfies `at_`, cut where its cut-off has passed (R121). -/
def cutTurn (i : Nat) (path1 : Bool) (at_ : RInfo → Bool) (s : State) : State :=
  (keysAt s i path1).foldl (fun s k =>
    match infoOf s { k with path1 := false, retry := false } with
    | some inf => if at_ inf then cutReach k inf s else s
    | none => s) s

/-- REDUCE_CUTOFF: the reaches of turn i on a path whose path-0 root has member index `root` (R121). -/
def execReduceCutoff (e : Env) (i : Nat) (path1 : Bool) (root : Nat) (s : State) : Answer :=
  let s := applyEnv e s
  .next (if reduceRuns s then pumpReduction (cutTurn i path1 (fun inf => inf.root = root) s) else s)

/-- REDUCE_DEADLINE: the path-0 roots close at D (R124). -/
def execReduceDeadline (e : Env) (i : Nat) (s : State) : Answer :=
  let s := applyEnv e s
  .next (if reduceRuns s then pumpReduction (cutTurn i false (fun inf => inf.rootChip s false = here s) s) else s)

/-- DUAL_PATH_SETTLE (R134). -/
def execDualPathSettle (e : Env) (coll reach : Nat) (s : State) : Answer :=
  let s := applyEnv e s
  let k : RKey := { scale := false, coll := coll, reach := reach }
  match infoOf s k with
  | none => .next s
  | some i =>
    let rb := (s.plans.active.map Plan.routeBound).getD 0
    .next (if reduceRuns s && i.rootChip s false = here s && !s.red.aborted.contains coll then
        pumpReduction (settleReach (decide (deadlineAt s k i + 2 * rb ≤ s.ht)) k i s)
      else s)

/-- The retries of which this chip is the path-0 root and whose outcome is open. -/
def rootRetries (s : State) : List (RKey × RInfo) :=
  s.red.results.filterMap fun r =>
    let k : RKey := { scale := r.scale, coll := r.coll, reach := r.reach }
    match infoOf s k with
    | some i =>
      if !r.scale && !r.retrySettled && (r.record.any fun x => x.verdict = 1) && i.rootChip s false = here s && !s.red.aborted.contains r.coll then
        some ({ k with retry := true }, i)
      else none
    | none => none

/-- RETRY_DEADLINE (R135). -/
def execRetryDeadline (e : Env) (s : State) : Answer :=
  let s := applyEnv e s
  .next (if reduceRuns s then
      (rootRetries s).foldl (fun s ki =>
        if s.ht < deadlineAt s ki.1 ki.2 then s else retryClose ki.1 ki.2 (openFor ki.1 ki.2 s)) s
    else s)

end Sys2Proof.Machine
end

