-- ==== Sys2Proof/Machine/Refill.lean ====
section
/-! DEFINITION. The refill: roles, chains with their credits, the decoder, what the spare receives and how it judges its refill (R216 to R219,
R222 to R233, R456). -/

namespace Sys2Proof.Machine

open Sys2Proof

/-! ### Stripes with lost members (R177, R216, R223) -/

/-- Lost members of the basin of a chip. -/
def lostMembers (s : State) (c : Coord) : List Nat := (List.range (kOf s)).filter fun m => isLost s (memberChip s c m)

/-- The local group of a member; the one group of a mirror pair. -/
def localGroup (s : State) (m : Nat) : Nat := if mirrorMode s then 0 else m / 4

/-- Members of a local group. -/
def groupMembers (s : State) (g : Nat) : List Nat := if mirrorMode s then [0] else (List.range 4).map fun r => 4 * g + r

/-- Whether a parity number is served by local repair: a local one, or the mirror copy (R223, R231). -/
def localParity (s : State) (j : Nat) : Bool := mirrorMode s || isLocal s j

/-- Whether the chip that holds parity j of stripe i for the basin of a chip is lost. -/
def parityLost (s : State) (c : Coord) (i j : Nat) : Bool := isLost s (bankChip s c (place s i j).1)

/-- Groups with a lost member. -/
def lostGroups (s : State) (c : Coord) : List Nat := distinct ((lostMembers s c).map (localGroup s))

/-- Whether local repair serves every loss of a stripe: one lost member in each group concerned, its local parity surviving (R223). -/
def localServes (s : State) (c : Coord) (i : Nat) : Bool :=
  (lostGroups s c).all fun g =>
    decide (((lostMembers s c).filter fun m => localGroup s m = g).length = 1) && !parityLost s c i g

/-- Whether a stripe is decodable with the lost chips and the absent parities of a list (R177, R456). -/
def decodable (s : State) (c : Coord) (i : Nat) (absent : List Nat) : Bool :=
  let dead := fun j => parityLost s c i j || absent.contains j
  let globals := (List.range (nParity s)).filter fun j => !localParity s j && !dead j
  let need := sumOf ((lostGroups s c).map fun g => ((lostMembers s c).filter fun m => localGroup s m = g).length - (if dead g then 0 else 1))
  decide (need ≤ globals.length)

/-- The decoder of a chip's basin: the spare with the lowest job index among its lost members (R216). -/
def decoderOf (s : State) (c : Coord) : Option Coord :=
  let cs := (lostMembers s c).map (memberChip s c)
  (minOf (cs.map (jobIndex s))).bind fun n => cs.find? fun x => jobIndex s x = n

/-- The coefficient of member m in parity j; 1 for a mirror copy (R176). -/
def coefIn (s : State) (m j : Nat) : Byte := if mirrorMode s then 1 else weight s m j

/-- The contribution of member m to parity j: its bit and its pending mask (R180, R222). -/
def contribIdx (s : State) (m j : Nat) : Nat := if mirrorMode s then 0 else if isLocal s j then m % 4 else m / 4

/-! ### Chains (R223, R224, R226, R240) -/

/-- A list turned left by n. -/
def rotate {α : Type} (n : Nat) (xs : List α) : List α := if xs.isEmpty then xs else xs.drop (n % xs.length) ++ xs.take (n % xs.length)

/-- The chips of a chain after its source (kinds 0 to 2), or from its first link on (kinds 3 and 4), to its end; `g` is the group of a remainder (R223, R226, R240). The order of
the members of a syndrome or remainder chain is ascending (assumption 43). -/
def chainRoute (s : State) (c : Coord) (g : Nat) (r : ChainRec) : List Coord :=
  let lost := lostMembers s c
  let bank := bankChip s c (place s r.stripe r.equation).1
  let members := List.range (kOf s)
  let go := fun (ms : List Nat) => ms.map (memberChip s c)
  if r.kind = 0 then
    let ms := groupMembers s r.equation
    go (rotate (r.stripe % 3) (ms.filter fun m => !lost.contains m)) ++ go ((ms.filter lost.contains).take 1)
  else if r.kind = 1 then
    go (members.filter fun m => !lost.contains m && coefIn s m r.equation ≠ 0) ++ (decoderOf s c).toList
  else if r.kind = 2 then
    let reached := fun m => bit (m % 4) r.arrival == polarity s || (r.pending.getD (m % 4) 0) ≠ 0
    go ((groupMembers s g).filter fun m => !lost.contains m && reached m) ++ (decoderOf s c).toList
  else
    go (if localParity s r.equation then groupMembers s r.equation else members) ++ [bank]

/-- A chain's pages and its record sent to the first of the chips that remain: to the spare's plot, to the bank share, or to the chain buffer
(R223, R240). -/
def sendChain (route : List Coord) (r : ChainRec) (ps : List (Nat × Bytes)) (s : State) : State :=
  match route with
  | [] => s
  | dst :: rest =>
    let last := rest.isEmpty
    if 3 ≤ r.kind && last then sendPages dst 56 ((place s r.stripe r.equation).2 * 65536) ps s
    else if r.kind = 0 && last then sendChainRec dst r (sendPages dst 52 (r.stripe * 65536) ps s)
    else sendChainRec dst r (sendPages dst 54 (r.position % 64 * 65536) ps s)

/-- Sixteen pages that a reader makes, none where one cannot be read. -/
def sixteen (read : Nat → State → Option Bytes × State) (s : State) : Option (List (Nat × Bytes)) × State := gather read (List.range 16) s

/-- The pages of a chain at its source: the parity chunk, or the combined chunk h of an open relay slot (R223, R226). -/
def sourcePages (r : ChainRec) (s : State) : Option (List (Nat × Bytes)) × State :=
  if r.kind = 2 then
    match relayOf s r.stripe with
    | some e => sixteen (fun n => readPage 3 (relayAddr s e.group r.stripe r.equation n) {}) s
    | none => (none, s)
  else sixteen (fun n => readPage 1 (bankAddr s (place s r.stripe r.equation).2 n) {}) s

/-- Page n of a plot chunk at the committed step; none once the update has overwritten it and its undo entry is gone (R240). -/
def committedPage (i n : Nat) (s : State) : Option Bytes × State :=
  if s.step.updBegun && decide (posOf s i < nextPos s) && (undoOf s i).isNone then (none, s)
  else supply i n (!polarity s) 0 s

/-- What a link adds to page n (R222, R226, R240). -/
def linkPage (r : ChainRec) (n : Nat) (s : State) : Option Bytes × State :=
  let m := memberOf s (here s)
  if r.kind = 2 then
    let reached := bit (m % 4) r.arrival == polarity s || (r.pending.getD (m % 4) 0).toNat.testBit n
    match undoOf s r.stripe with
    | some e =>
      if reached && e.mask.toNat.testBit n then
        let (u, s) := readPage 4 (undoAddr s e.slot n) {} s
        (u.map (gfScale (coef m r.equation)), s)
      else (some (zeros 4096), s)
    | none => (some (zeros 4096), s)
  else
    let k := contribIdx s m r.equation
    let (page, s) :=
      if 3 ≤ r.kind then committedPage r.stripe n s
      else supply r.stripe n (bit k r.arrival) (r.pending.getD k 0) s
    (page.map (gfScale (coefIn s m r.equation)), s)

/-! ### Credits (R225) -/

/-- Chips without repeats. -/
def distinctChips (cs : List Coord) : List Coord := cs.foldl (fun acc c => if acc.contains c then acc else acc ++ [c]) []

/-- Chips that may send chains here: this chip's surviving bank chips and basin members (R223, R226). -/
def upstreams (s : State) : List Coord :=
  let wide := (List.range (plotChunks s)).any fun i => !localServes s (here s) i
  let ms := if wide then List.range (kOf s) else groupMembers s (localGroup s (memberOf s (here s)))
  distinctChips (((List.range (kOf s)).map (bankChip s (here s)) ++ ms.map (memberChip s (here s))).filter fun c => !isLost s c && c ≠ here s)

/-- One more chunk forwarded; every sixteenth brings a credit to each chip that may send here (R225). -/
def noteForward (s : State) : State :=
  let n := s.refill.forwarded + 1
  let s := { s with refill.forwarded := n }
  if n % 16 ≠ 0 then s
  else (upstreams s).foldl (fun s c => sendChainRec c (chainRec s 5 0 0 (64 + n)) s) s

/-- Whether a waiting chain of a refill may go (R225); a bank rebuild is background class 0, without credits (R242). -/
def jobGoes (s : State) (j : ChainJob) : Bool :=
  decide (j.record.kind < 3) &&
    (match j.route.head? with
      | some dst => decide (j.record.position < getKey dst 64 s.refill.grants)
      | none => true)

/-- The pages that a chain could not read here, put to repair (R257): those of its source, or of this link's chunk. -/
def repairChain (j : ChainJob) (s : State) : State :=
  let i := j.record.stripe
  if !j.source then escalateUnread 0 ((List.range 16).map fun n => plotAddr s i n) .escalation s
  else if j.record.kind = 2 then
    match relayOf s i with
    | some e => escalateUnread 3 ((List.range 16).map fun n => relayAddr s e.group i j.record.equation n) .escalation s
    | none => s
  else escalateUnread 1 ((List.range 16).map fun n => bankAddr s (place s i j.record.equation).2 n) .escalation s

/-- A chain that may go sent; nothing where its source cannot be read. -/
def runJob (j : ChainJob) (s : State) : State :=
  let (ps, s) := if j.source then sourcePages j.record s else (some j.pages, s)
  match ps with
  | none => repairChain j s
  | some ps =>
    let s := sendChain j.route j.record ps s
    if j.source then s else noteForward s

/-- Every waiting chain that may go, in order (R223, R225). -/
def pumpJobs (s : State) : State :=
  let go := s.refill.jobs.filter (jobGoes s)
  go.foldl (fun s j => runJob j s) { s with refill.jobs := s.refill.jobs.filter fun j => !jobGoes s j }

/-- A chain put in the queue. -/
def addJob (j : ChainJob) (s : State) : State := { s with refill.jobs := s.refill.jobs ++ [j] }

/-- A chain put in the queue, and the queue taken as far as its credits go. -/
def queueChain (j : ChainJob) (s : State) : State := pumpJobs (addJob j s)

/-! ### Sources (R216, R226, R456) -/

/-- The record of a chain from a slot of this chip. -/
def slotRec (s : State) (kind equation i slot : Nat) : ChainRec :=
  { chainRec s kind equation i (posOf s i) with
    arrival := arrivalOf s slot, pending := pendings s slot, holderStep := stepNum s }

/-- A chain from a parity or a relay slot of this chip, or an empty remainder record (R226). -/
def startSource (kind equation i g slot : Nat) (s : State) : State :=
  let r := slotRec s kind equation i slot
  let owner := ownerChip s 0
  if kind = 2 && (relayOf s i).isNone then
    match decoderOf s owner with
    | some d => sendChainRec d { r with empty := true } s
    | none => s
  else addJob ⟨chainRoute s owner g r, r, [], true, false⟩ s

/-- The syndrome and the remainders of a stripe from this chip, or an absent record (R226, R456). -/
def decoderSource (i j slot : Nat) (s : State) : State :=
  let owner := ownerChip s 0
  if isAbsent s slot then
    match decoderOf s owner with
    | some d => sendChainRec d (chainRec s 7 j i (posOf s i)) s
    | none => s
  else
    let s := startSource 1 j i 0 slot s
    if !mirrorMode s && isLocal s j && (lostGroups s owner).contains j then
      (List.range (geoG s)).foldl (fun s h => startSource 2 h i j slot s) s
    else s

/-- The chains of one stripe that this holder starts at the start instant (R223, R226, R456). -/
def holderStart (i : Nat) (s : State) : State :=
  match heldParity s i with
  | none => s
  | some (j, slot) =>
    let owner := ownerChip s 0
    if localServes s owner i then
      if localParity s j && (lostGroups s owner).contains j then
        (if isAbsent s slot then decoderSource i j slot s else startSource 0 j i 0 slot s)
      else s
    else decoderSource i j slot s

/-! ### The decoder (R177, R226, R456) -/

/-- One linear equation over the unknowns of a page: coefficients, and the bytes they sum to. -/
abbrev GfRow := Bytes × Bytes

/-- A row scaled. -/
def rowScale (k : Byte) (r : GfRow) : GfRow := (gfScale k r.1, gfScale k r.2)

/-- A row with a multiple of another added. -/
def rowAdd (k : Byte) (p r : GfRow) : GfRow := (xorBytes r.1 (gfScale k p.1), xorBytes r.2 (gfScale k p.2))

/-- Elimination column by column: rows with their pivots, rows without (R226). -/
def eliminate : List Nat → List (Nat × GfRow) → List GfRow → List (Nat × GfRow)
  | [], done, _ => done
  | c :: cs, done, rows =>
    match rows.find? fun r => r.1.getD c 0 ≠ 0 with
    | none => eliminate cs done rows
    | some r =>
      let p := rowScale (gfInv (r.1.getD c 0)) r
      let clean := fun (x : GfRow) => rowAdd (x.1.getD c 0) p x
      eliminate cs (done.map (fun d => (d.1, clean d.2)) ++ [(c, p)]) ((rows.erase r).map clean)

/-- The value of unknown c, where the equations determine it. -/
def solvedAt (rows : List (Nat × GfRow)) (c : Nat) : Option Bytes :=
  match rows.find? fun r => r.1 = c with
  | some (_, cs, v) => if (indexed 0 cs).all fun x => x.1 = c || x.2 = 0#8 then some v else none
  | none => none

/-- The equations of page n of a stripe over the lost members' values at steps s and s−1 (unknowns 2t and 2t + 1 of the t-th lost member). -/
def pageRows (s : State) (lost : List Nat) (es : List Equation) (n : Nat) : List GfRow :=
  es.filterMap fun e =>
    if e.kind = 2 && e.pages.isEmpty then none
    else
      let at_ := fun (r : Nat) => bit r e.arrival == decide (e.holderStep % 2 = 1) || (e.pending.getD r 0).toNat.testBit n
      let cs := lost.flatMap fun m =>
        if e.kind = 1 then
          let k := coefIn s m e.equation
          if at_ (contribIdx s m e.equation) then [k, 0] else [0, k]
        else if localGroup s m = e.group && at_ (m % 4) then [coef m e.equation, coef m e.equation] else [0, 0]
      some (cs, getKey n (zeros 4096) e.pages)

/-- A lost member's pages as the equations give them: at s where that is determined, else at s−1; none where a page is neither. -/
def rebuilt (rows : List (List (Nat × GfRow))) (t : Nat) : Option (List (Bool × Bytes)) :=
  let pages := rows.map fun r =>
    match solvedAt r (2 * t), solvedAt r (2 * t + 1) with
    | some x, _ => some (true, x)
    | none, some y => some (false, y)
    | none, none => none
  if pages.all Option.isSome then some (pages.filterMap id) else none

/-- The class of a rebuilt chunk (R226, R227). -/
def rebuiltClass (pages : Option (List (Bool × Bytes))) (pm : BitVec 16) : Nat :=
  match pages with
  | none => 2
  | some ps => if ps.all (·.1) then 0 else if pm = 0 && ps.all fun p => !p.1 then 1 else 2

/-- The class of a chunk of this spare's plot noted (R227). What is of class S1 may be offered to a restore, unless some chunk shows that the
freeze came after an update had begun (R301, assumption 83). -/
def noteClass (i cls : Nat) (pm : BitVec 16) (determined : Bool) (s : State) : State :=
  if s.refill.classes.any fun c => c.chunk = i then s
  else noteForward { s with
    refill.classes := s.refill.classes ++ [{ chunk := i, cls := cls, pending := pm, determined := determined }],
    restore.spareOffer := if cls = 1 then s.restore.spareOffer ++ [i] else s.restore.spareOffer,
    restore.spareLate := s.restore.spareLate || decide (cls = 0) || decide (pm ≠ 0) }

/-- Pages of a chunk stored in this spare's plot. -/
def placePages (i : Nat) (ps : List (Nat × Bytes)) (s : State) : State := ps.foldl (fun s x => storePage 0 (plotAddr s i x.1) x.2 s) s

/-- A decoded chunk given to its spare: pages, then a decoded record; this chip's own is placed at once (R226). -/
def sendDecoded (i m cls : Nat) (pages : Option (List (Bool × Bytes))) (pm : BitVec 16) (s : State) : State :=
  let dst := memberChip s (here s) m
  let ps := indexed 0 ((pages.getD []).map fun p => p.2)
  if dst = here s then noteClass i cls pm pages.isSome (placePages i ps s)
  else
    let masks := (List.range 4).map fun r => if r = (if mirrorMode s then 0 else m % 4) then pm else 0#16
    sendChainRec dst { chainRec s 9 0 i (posOf s i) with arrival := cls, pending := masks, holderStep := stepNum s }
      (sendPages dst 52 (i * 65536) ps s)

/-- Parities of a stripe that absent records named. -/
def absentOf (s : State) (i : Nat) : List Nat := (s.refill.absentEqs.filter fun e => e.1 = i).map fun e => e.2

/-- Whether this decoder serves a stripe: local repair does not, or a parity is absent (R226, R456). -/
def decoderServes (s : State) (i : Nat) : Bool := !localServes s (here s) i || !(absentOf s i).isEmpty

/-- Whether the decoder holds everything that a stripe's solution needs (R226, R456). -/
def stripeReady (s : State) (i : Nat) : Bool :=
  let has := fun (kind eq g : Nat) => s.refill.equations.any fun e => e.stripe = i && e.kind = kind && e.equation = eq && (kind = 1 || e.group = g)
  ((List.range (nParity s)).all fun j => parityLost s (here s) i j || (absentOf s i).contains j || has 1 j 0) &&
    (mirrorMode s || (lostGroups s (here s)).all fun g => parityLost s (here s) i g || (absentOf s i).contains g ||
      (List.range (geoG s)).all fun h => has 2 h g)

/-- A stripe solved once it can be, before the deadline (R226). One that absent parities put beyond R177 is not solved at all: its chunks are
lost (R456). -/
def trySolve (i : Nat) (s : State) : State :=
  if !s.refill.isDecoder || s.refill.solved.contains i || !decoderServes s i || !stripeReady s i || plotChunks s ≤ i ||
      s.refill.msg.any (fun m => decide (m.deadline ≤ s.ht)) then s
  else
    let lost := lostMembers s (here s)
    let es := s.refill.equations.filter fun e => e.stripe = i
    let fits := (absentOf s i).isEmpty || decodable s (here s) i (absentOf s i)
    let rows := if fits then (List.range 16).map fun n => eliminate (List.range (2 * lost.length)) [] (pageRows s lost es n) else []
    let s := { s with
      refill.solved := s.refill.solved ++ [i], refill.equations := s.refill.equations.filter fun e => e.stripe ≠ i }
    (indexed 0 lost).foldl (fun s tm =>
      let pages := if fits then rebuilt rows tm.1 else none
      let r := if mirrorMode s then 0 else tm.2 % 4
      let pm := match es.find? fun e => e.kind = 1 && e.equation = localGroup s tm.2 && localParity s e.equation with
        | some e => e.pending.getD r 0
        | none => 0
      sendDecoded i tm.2 (rebuiltClass pages pm) pages pm s) s

/-- The group that a remainder record speaks for, from the chip it comes from (R226). -/
def remainderGroup (s : State) (i : Nat) (sender : Coord) : Nat :=
  if sender.b = (here s).b then memberOf s sender / 4
  else ((List.range (groupsOf s)).find? fun g => (place s i g).1 = memberOf s sender).getD 0

/-! ### The spare (R227, R229, R230, R232, R233) -/

/-- Mirrored halves that must come: the lost chip's own inputs from its partner, the mirrored ones from the chip it mirrors (R233). -/
def inputSpans (s : State) (p : Plan) : List (Nat × Nat) :=
  let h := 2 * p.inputHalf
  (if isLost s (partnerOf s (here s)) then [] else [(0, h)]) ++ (if isLost s (partneredBy s) then [] else [(h, h)])

/-- The collectives of this chip's tensors (R232). -/
def ownColls (p : Plan) : List (Nat × CollEntry) := (indexed 0 p.colls).filter fun c => p.tensors.any fun t => t.id = c.2.tensorId

/-- The cistern bytes that a peer pushes for a collective: its results, its scale, its tensors' health entries (R232). -/
def collSpans (s : State) (p : Plan) (c : Nat × CollEntry) : List (Nat × Nat) :=
  let r := resultRange c.2
  let n := p.tensors.length
  [(gradBase p + r.1, r.2), (scalesBase p + 2 * c.1, 2)] ++
    ((indexed 0 p.tensors).filter fun t => t.2.id = c.2.tensorId).flatMap fun t =>
      (List.range 8).map fun z => (healthArea s p + 32 * (z * n + t.1), 32)

/-- Whether the received spans cover a span. -/
def covered (s : State) (x : Nat × Nat) : Bool := spanGot s.refill.cisternGot s.refill.cisternGot.length x.1 (x.1 + x.2)

/-- Whether the spare's cistern is complete (R230 to R233). -/
def cisternDone (s : State) (p : Plan) : Bool :=
  (inputSpans s p).all (covered s) &&
    (!basinMode s || (ownColls p).all fun c => s.refill.noGradient.contains c.1 || (peerOf s c.2).isNone || (collSpans s p c).all (covered s))

/-- The REFILLED event with the chunk counts (R230, R451). -/
def reportRefilled (status cause : Nat) (s : State) : State :=
  let torn := match s.plans.active with
    | some p => sumOf ((tornClosures s p).map List.length)
    | none => 0
  let n := fun k => (s.refill.classes.filter fun c => c.cls = k).length
  let s := if status = Code.basinExceeded then flagEvent 2 s else if status = Code.configDisagree then flagEvent 5 s else s
  let s := regPut Reg.rfChunksPeer torn { s with refill.cause := cause, refill.reported := true }
  event 0x05 status 0 (le 1 cause ++ le 4 (n 0) ++ le 4 (n 1) ++ le 4 torn ++ le 4 (absentSlots s)) s

/-- What the spare finds once everything has come: cause 0x01, 0x02, 0x04 or none (R229, R232, R233, R241). A chunk that local repair would have
served and that comes undetermined tells a spare that is not the decoder of an absent parity (R456). -/
def refillCause (s : State) (p : Plan) : Nat :=
  let all1 := s.refill.classes.all fun c => c.cls = 1
  let bad := codedMode s && (List.range (plotChunks s)).any fun i => !decodable s (here s) i (absentOf s i)
  let lacking := (ownColls p).any fun c => (peerOf s c.2).isNone
  let broken := (closures s p).any fun cs => !cs.all fun c => (classOf s c).cls = 0
  let open_ := s.refill.classes.any fun c =>
    !c.determined && ((closurePeer s p [c.chunk]).isNone || (codedMode s && !s.refill.isDecoder && localServes s (here s) c.chunk))
  if bad || open_ then 1
  else if !all1 && ((broken && lacking) || !s.refill.noGradient.isEmpty) then 2
  else if isLost s (partnerOf s (here s)) then 4 else 0

/-- The spare judges its refill once every chunk is rebuilt or marked and its cistern is complete (R229, R230). -/
def judgeSpare (s : State) : State :=
  match s.plans.active with
  | none => s
  | some p =>
    if !s.refill.isSpare || s.refill.reported || s.refill.state ≠ 3 then s
    else if !((List.range (plotChunks s)).all fun i => s.refill.classes.any fun c => c.chunk = i) || !cisternDone s p then s
    else
      let c := refillCause s p
      reportRefilled (if c = 1 ∨ c = 2 then Code.basinExceeded else Code.ok) c { s with refill.state := 4 }

/-- Whether all sixteen pages of a chunk have come in window 52. -/
def chunkGot (s : State) (i : Nat) : Bool := getKey i 0 s.refill.gotPages = 0xFFFF#16

/-- A local repair record at the spare: the chunk classed, in mirror mode by its bit alone (R227, R231). -/
def classLocal (r : ChainRec) (s : State) : State :=
  let k := if mirrorMode s then 0 else memberOf s (here s) % 4
  let pm := r.pending.getD k 0
  let at_ := if bit k r.arrival == decide (r.holderStep % 2 = 1) then r.holderStep else r.holderStep - 1
  let cls := if at_ = stepNum s then 0 else if at_ + 1 = stepNum s ∧ (pm = 0 ∨ mirrorMode s) then 1 else 2
  if chunkGot s r.stripe then judgeSpare (noteClass r.stripe cls pm true s) else s

/-! ### A chain record at this chip (R223 to R226, R240) -/

/-- The pages held for a sender's chain, all sixteen, and the buffer without them. -/
def takeChainPages (sender : Coord) (slot : Nat) (s : State) : Option (List (Nat × Bytes)) × State :=
  let mine := fun (b : (Coord × Nat) × (Nat × Bytes)) => b.1 = (sender, slot)
  let ps := (s.refill.chainBuf.filter mine).map fun b => b.2
  let s := { s with refill.chainBuf := s.refill.chainBuf.filter fun b => !mine b }
  (if (List.range 16).all fun n => ps.any fun p => p.1 = n then some ((List.range 16).map fun n => (n, getKey n (zeros 4096) ps)) else none, s)

/-- A link's part in a refill's chain: its pages added, the chain passed on (R223, R226). The link of a bank rebuild is background work
(R242). -/
def linkChain (route : List Coord) (r : ChainRec) (ps : List (Nat × Bytes)) (s : State) : State :=
  if 3 ≤ r.kind then addJob { route := route, record := r, pages := ps, source := false, link := true } s
  else
    let (add, s) := sixteen (linkPage r) s
    match add with
    | none => repairChain ⟨route, r, [], false, true⟩ s
    | some add => queueChain ⟨route, { r with hop := r.hop + 1 }, addPages 1 add ps, false, false⟩ s

/-- An equation at the decoder, and its stripe solved once it can be (R226). -/
def takeEquation (sender : Coord) (r : ChainRec) (ps : List (Nat × Bytes)) (s : State) : State :=
  let g := if r.kind = 2 then remainderGroup s r.stripe sender else 0
  let e : Equation := ⟨r.stripe, r.kind, r.equation, g, r.arrival, r.pending, r.holderStep, ps⟩
  if s.refill.equations.any (fun x => x.stripe = e.stripe && x.kind = e.kind && x.equation = e.equation && x.group = e.group) ∨
      s.refill.solved.contains r.stripe then s
  else judgeSpare (trySolve r.stripe { s with refill.equations := s.refill.equations ++ [e] })

/-- A record of a chain in this chip's basin: passed on, or taken at its end (R223, R226, R240). -/
def takeChain (sender : Coord) (r : ChainRec) (s : State) : State :=
  if r.refillId ≠ s.refill.lastId ∨ plotChunks s ≤ r.stripe then s
  else if r.kind = 2 ∧ r.empty then (if s.refill.isDecoder then takeEquation sender r [] s else s)
  else
    let g := if s.refill.isDecoder then remainderGroup s r.stripe sender else localGroup s (memberOf s (here s))
    match (chainRoute s (here s) g r).dropWhile fun c => c ≠ here s with
    | [] => s
    | _ :: rest =>
      if r.kind = 0 ∧ rest.isEmpty then classLocal r s
      else
        let (ps, s) := takeChainPages sender (r.position % 64) s
        match ps with
        | none => s
        | some ps => if rest.isEmpty then takeEquation sender r ps s else linkChain rest r ps s

/-! ### Bank-share rebuild (R240) -/

/-- The rebuild chain of a parity at its first link. -/
def firstJob (i j : Nat) (s : State) : ChainJob :=
  let r := { chainRec s (if localParity s j then 3 else 4) j i (posOf s i) with holderStep := stepNum s }
  { route := (chainRoute s (here s) 0 r).drop 1, record := r, pages := (List.range 16).map (·, zeros 4096), source := false, link := true }

/-- This chip's link of a rebuild chain: its committed pages added, the chain passed on. A chain that has outlived its step, or whose chunk
cannot be read here, is given up (R240). -/
def runLink (j : ChainJob) (s : State) : State :=
  let r := j.record
  let s := { s with refill.linkTodo := s.refill.linkTodo.filter (· ≠ (r.stripe, r.equation)), refill.chainsSeen := true }
  if r.holderStep ≠ stepNum s then giveUpChain r.stripe r.equation s
  else
    let (add, s) := sixteen (linkPage r) s
    match add with
    | none => giveUpChain r.stripe r.equation (repairChain j s)
    | some add => sendChain j.route { r with hop := r.hop + 1 } (addPages 1 add j.pages) s

/-- Links of rebuild chains that wait here served, `n` at most; what is left of `n` (R240, R242). -/
def linkWork : Nat → State → Nat × State
  | 0, s => (0, s)
  | n + 1, s =>
    match s.refill.jobs.find? fun j => j.link with
    | none => (n + 1, s)
    | some j =>
      if s.refill.frozen || !channelRoom s (plotAddr s j.record.stripe 0) then (n + 1, s)
      else linkWork n (charge (traffic s) (runLink j { s with refill.jobs := s.refill.jobs.erase j }))

/-- Rebuild chains started, `n` at most, in a quiet interval: what is left of `n` (R240, R242, R262). -/
def startChains : Nat → State → Nat × State
  | 0, s => (0, s)
  | n + 1, s =>
    match s.refill.rebuildTodo with
    | [] => (n + 1, s)
    | (i, j) :: rest =>
      if !s.refill.rebuilding || !quietNow s || !channelRoom s (plotAddr s i 0) then (n + 1, s)
      else startChains n (charge (traffic s) (runLink (firstJob i j s) { s with refill.rebuildTodo := rest }))

/-- Background class 0: links of rebuild chains that wait here, then chains that begin here (R240, R242). -/
def rebuildChains (n : Nat) (s : State) : Nat × State :=
  let r := linkWork n s
  startChains r.1 r.2

/-- Whether a rebuilt slot is still the committed step's: no UPDATE turn of a later step has begun here, and the slot has taken no page or
marker of the step in flight (R240). -/
def rebuildCurrent (s : State) (slot : Nat) : Bool :=
  !s.step.updBegun && s.step.committed == some s.refill.rebuildStep &&
    (List.range (contributions s slot)).all fun c => !arrived s slot c && pendingOf s slot c = 0

/-- A rebuilt slot put in force: bits at the committed step, present, BANK_REBUILT with the last (R182, R240). -/
def placeSlot (slot : Nat) (s : State) : State :=
  if !rebuildCurrent s slot then { s with refill.lateSlots := unionIdx s.refill.lateSlots [slot] }
  else
    let s := makePresent slot (setWhole slot false s)
    let s := { s with refill.rebuilt := s.refill.rebuilt + 1 }
    if absentSlots s ≠ 0 then s
    else
      let s := event 0x06 Code.ok 0 (le 1 (ownRow s) ++ le 4 s.refill.rebuilt) s
      { s with
        refill.isSpare := s.refill.isSpare && s.refill.msg.isSome, refill.rebuilding := !s.refill.rebuildTodo.isEmpty,
        refill.wins := s.refill.wins.filter (· ≠ 56) }

end Sys2Proof.Machine
end

