-- ==== Sys2Proof/Machine/Recover.lean ====
section
/-! DEFINITION. Freeze, refill and release: the frozen state, BEGIN_REFILL taking effect, the start instant, the packets of windows 52 to 56, the
deadline, the release (R209 to R220, R225, R230 to R240, R456). -/

namespace Sys2Proof.Machine

open Sys2Proof

/-! ### Freezing (R214, R215) -/

/-- The FROZEN event (R215, R451). -/
def reportFrozen (cause : Nat) (s : State) : State :=
  event 0x04 0 cause (le 8 s.refill.frozenAt ++ le 4 (activeId s) ++ le 4 (committedWord s) ++ le 8 s.step.commitAt ++ le 1 s.refill.phase ++
    le 4 (nextPos s) ++ le 4 s.basin.undo.length) s

/-- The engine frozen: accepted turns stop, a pending commit applies, the lease drops; a pond copy of a turn is lost (R214, R274, R391). -/
def freeze (s : State) : State :=
  let turnCopy := s.pond.copy.any fun c => c.turn.isSome
  let s := { s with
    refill.frozen := true, refill.frozenAt := s.ht, refill.phase := phaseOf s, refill.state := 1, refill.release := none,
    step.turns := [], pond.copy := if turnCopy then none else s.pond.copy }
  dropLease (applyPending s)

/-! ### BEGIN_REFILL (R210, R211) -/

/-- Whether this member's last committed step is one below that of a BEGIN_REFILL, as the reports show both (R210, R215, R220): before the
first commit they show all ones. -/
def isLagging (m : RefillMsg) (s : State) : Bool := decide (m.committed = stepNum s ∧ m.committed = (committedWord s + 1) % 2 ^ 32)

/-- Whether a whole BEGIN_REFILL takes effect here (R209, R210). A spare that is live because an earlier refill made it so takes part in the
one that supersedes it (R211, R241). -/
def refillValid (m : RefillMsg) (s : State) : Bool :=
  decide (s.refill.lastId < m.id) && decide (m.startAt < m.deadline) && decide (s.ht + 3000000 ≤ m.startAt) && decide (m.lost.length ≤ 64) &&
    (if m.lost.contains (here s) then !s.job.live || (s.refill.spareJob && s.refill.frozen)
     else s.refill.frozen && (decide (committedWord s = m.committed) || isLagging m s))

/-- A BEGIN_REFILL takes effect: the refill in progress is superseded (R211). -/
def acceptRefill (m : RefillMsg) (s : State) : State :=
  { s with refill := { s.refill with
      parts := none, msg := some m, lastId := m.id, state := 2, cause := 0, isSpare := false, isSource := false, isPeer := false,
      isDecoder := false, wins := [], chainBuf := [], jobs := [], grants := [], forwarded := 0, gotPages := [], classes := [],
      equations := [], absentEqs := [], solved := [], cisternGot := [], noGradient := [], reported := false, release := none,
      closureReqs := [], copies := [], bankGot := [], rebuildTodo := [], lateSlots := [], linkRebuild := false, linkTodo := [], redo := [],
      rebuilding := false, rebuildDue := false } }

/-! ### The start instant (R216 to R220) -/

/-- Whether the spare's preparations are made: the seed, the geometry, the agreement tree and the tag have been committed, the regions are
declared, the plan loaded, BASIN_MAP and the companion mode change accepted (R218, R342). -/
def sparePrepared (m : RefillMsg) (s : State) : Bool :=
  [0, 1, 2, 3, 6].all s.cfgDone.contains && decide (tagOf s ≠ 0) && geoSet s && decide (0 < plotChunks s) && s.plans.standby.isSome && decide (s.refill.mapPlanId ≠ 0) &&
    decide (s.refill.mapPlanId = standbyId s) && s.job.pendingMode.any fun c => c.companion && decide (c.instant = m.startAt)

/-- The spare adopts the job's state (R219) and goes live (R342). -/
def adoptJob (m : RefillMsg) (s : State) : State :=
  let s := match s.job.pendingMode with
    | some c =>
      if s.job.live then s
      else { s with
        job := { s.job with live := true, liveAt := m.startAt, epoch := c.epoch, mode := c.mode, pendingMode := none, held := false } }
    | none => s
  let s := match s.plans.standby with
    | some p =>
      if planActive s then s
      else { s with plans := { active := some p, activeTab := s.plans.standbyTab, lastCommitId := some p.id } }
    | none => s
  let s := { s with
    step := {
      num := (m.committed + 1) % 2 ^ 32, committed := if m.committed = 0xFFFFFFFF then none else some m.committed, commitAt := m.commitAt,
      polarity := decide ((m.committed + 1) % 2 = 1), nextAt := m.startAt },
    red := {}, upd := {}, grads := { scan := true }, agree := {}, basin := { absent := s.basin.absent }, restore.liveOffer := false, restore.spareOffer := [],
    restore.spareLate := false }
  let s := (List.range (bankSlots s)).foldl (fun s n => makeAbsent n (setWhole n false s)) s
  { s with refill.frozen := true, refill.frozenAt := s.ht, refill.phase := 1, refill.isSpare := true, refill.spareJob := true }

/-- A span of the cistern pushed to a spare's window 53, in units of 16 B; where a page cannot be read, nothing is pushed and its repair begins
(R232, R233, R257). -/
def pushSpanTo (dst : Coord) (src at_ n : Nat) (s : State) : State :=
  let lo := at_ / 16 * 16
  let len := roundUp (at_ + n) 16 - lo
  match readSpan 3 (cisternBase s + (src - (at_ - lo))) len {} s with
  | (bs, [], s) => pushBytes dst 53 (len / 4096 + 1) lo bs s
  | (_, a :: as, s) => escalateAll 3 (a :: as) .escalation s

/-- Whether this chip holds every result frame and record of a collective; one that does not reduce in this step holds what its last
reduction left (R232, assumption 80). -/
def holdsResults (s : State) (p : Plan) (c : Nat × CollEntry) : Bool :=
  let turn := (indexed 0 p.turns).find? fun x => x.2.kind = Kind.reduce ∧ runsIn x.2 (stepNum s) ∧ x.2.first ≤ c.1 ∧ c.1 < x.2.first + x.2.count
  match turn with
  | none => true
  | some x => (List.range (reachCount c.2)).all fun r =>
      match collInfo x.1 x.2 c.2 r with
      | some i => reachWhole s { scale := false, coll := c.1, reach := r } i
      | none => true

/-- The pushes of a gradient peer for one collective, to each spare of its group (R232). -/
def peerPush (p : Plan) (c : Nat × CollEntry) (s : State) : State :=
  ((lostList s).filter (inBox s c.2.box)).foldl (fun s dst =>
    if holdsResults s p c then (collSpans s p c).foldl (fun s x => pushSpanTo dst x.1 x.1 x.2 s) s
    else sendChainRec dst (chainRec s 10 0 c.1 0) s) s

/-- In replicated mode, a peer pushes the plot while the step has not reached UPDATE here; past that it marks each chunk for copy with a kind 9
record of class 2 (R230, R231, assumption 79). -/
def replicaPush (s : State) : State :=
  match s.plans.active with
  | none => s
  | some p =>
    if codedMode s then s
    else
      let give := fun (dst : Coord) (i : Nat) (s : State) =>
        if 4 ≤ s.refill.phase then sendChainRec dst { chainRec s 9 0 i (posOf s i) with arrival := 2, holderStep := stepNum s } s else pushChunk dst i s
      (orderOf s).foldl (fun s i =>
        if closurePeer s p [i] ≠ some (here s) then s
        else (lostList s).foldl (fun s dst => give dst i s) s) s

/-- The inputs pushed by a lost chip's partner, and by the chip it mirrors (R233). -/
def inputPush (p : Plan) (s : State) : State :=
  let h := 2 * p.inputHalf
  (lostList s).foldl (fun s dst =>
    let s := if partnerOf s dst = here s then pushSpanTo dst h 0 h s else s
    if partnerOf s (here s) = dst then pushSpanTo dst 0 h h s else s) s

/-- The roles of this chip (R216). -/
def takeRoles (s : State) : State :=
  match s.plans.active with
  | none => s
  | some p =>
    let lost := s.refill.isSpare
    let coded := codedMode s
    let parity := coded && !(lostMembers s (ownerChip s 0)).isEmpty
    let data := coded && !(lostMembers s (here s)).isEmpty
    let peer := p.colls.any fun c => peerOf s c = some (here s)
    let inputs := (lostList s).any fun c => partnerOf s c = here s || partnerOf s (here s) = c
    let any_ := lost || parity || data || peer || inputs
    let s := { s with
      refill.state := 3, refill.isSource := !lost && (parity || data), refill.isPeer := !lost && peer,
      refill.isDecoder := lost && decoderOf s (here s) == some (here s),
      refill.wins := if lost then [52, 53, 54, 55, 56] else if any_ then [54, 55] else [] }
    if any_ then raiseClaim s else s

/-- What a chip does at the start instant once its roles stand (R216, R223, R226, R231 to R233). -/
def startWork (s : State) : State :=
  match s.plans.active with
  | none => s
  | some p =>
    let s := if codedMode s && !(lostMembers s (ownerChip s 0)).isEmpty then
        pumpJobs ((orderOf s).foldl (fun s i => holderStart i s) s)
      else s
    let s := if s.refill.isPeer then
        replicaPush ((indexed 0 p.colls).foldl (fun s c => if peerOf s c.2 = some (here s) then peerPush p c s else s) s)
      else s
    let s := if s.refill.isSpare then s else inputPush p s
    let s := if s.refill.isSpare && isLost s (partnerOf s (here s)) then
        event 0x15 0 0 (le 4 (stepNum s) ++ le 2 (coordWord (here s))) s
      else s
    let s := if s.refill.isDecoder then (orderOf s).foldl (fun s i => trySolve i s) s else s
    judgeSpare s

/-- The start instant of a refill at this chip (R216 to R220). -/
def beginRefill (m : RefillMsg) (s : State) : State :=
  if m.lost.contains (here s) then
    if s.job.live || sparePrepared m s then startWork (takeRoles (adoptJob m s))
    else reportRefilled Code.configDisagree 5 { s with refill.state := 0 }
  else if !s.refill.frozen then s
  else
    let s := if isLagging m s then commitStep m.commitAt false s else s
    startWork (takeRoles { s with refill.phase := phaseOf s })

/-- REFILL_START (R216). -/
def execRefillStart (e : Env) (s : State) : Answer :=
  let s := applyEnv e s
  match s.refill.msg with
  | some m => .next (if flumeRuns s && s.refill.state = 2 && decide (m.startAt ≤ s.ht) then beginRefill m s else s)
  | none => .next s

/-- REFILL_DEADLINE (R230). -/
def execRefillDeadline (e : Env) (s : State) : Answer :=
  let s := applyEnv e s
  match s.refill.msg with
  | some m =>
    .next (if flumeRuns s && s.refill.isSpare && !s.refill.reported && s.refill.state = 3 && decide (m.deadline ≤ s.ht) then
        reportRefilled Code.okPartial (if isLost s (partnerOf s (here s)) then 4 else 3) s
      else s)
  | none => .next s

/-! ### Stores (R217, R223, R232, R233, R240) -/

/-- A packet of windows 52 to 56 given to its function, its bytes counted (R217, R243). -/
def refillPacket (h : PktHead) (window len : Nat) (go : State → State) (s : State) : State :=
  receive h 1 window len (fun s => go { s with refill.bytes := s.refill.bytes + len }) s

/-- Pages of the plot at a spare: placed while it is frozen; in a recovery run they are a peer's copy (R223, R231, R238). -/
def takePlot (off : Nat) (bs : Bytes) (s : State) : State :=
  if !s.refill.isSpare then s
  else
    let c := off / 65536
    let n := off % 65536 / 4096
    let whole := decide (off % 4096 = 0) && decide (bs.length = 4096)
    if s.refill.frozen then
      let s := storeBytes 0 (plotBase s + off) bs s
      if !whole then s
      else
        let s := { s with refill.gotPages := putKey c (getKey c 0 s.refill.gotPages ||| BitVec.ofNat 16 (2 ^ n)) s.refill.gotPages }
        if !codedMode s && chunkGot s c then judgeSpare (noteClass c 1 0 true s) else s
    else if s.step.recoveryAt.isSome && whole then
      poke { s with refill.copies := (s.refill.copies.filter fun x => !(x.1 = c ∧ x.2.1 = n)) ++ [(c, n, bs)] }
    else s

/-- REFILL_PLOT_STORE (R223). -/
def execRefillPlotStore (e : Env) (h : PktHead) (bs : Bytes) (s : State) : Answer :=
  .next (refillPacket h 52 bs.length (takePlot h.offset bs) (applyEnv e s))

/-- The cistern spans that a sender owes this spare (R232, R233). -/
def owedSpans (s : State) (p : Plan) (sender : Coord) : List (Nat × Nat) :=
  let h := 2 * p.inputHalf
  (if sender = partnerOf s (here s) then [(0, h)] else []) ++ (if sender = partneredBy s then [(h, h)] else []) ++
    ((indexed 0 p.colls).filter fun c => peerOf s c.2 = some sender).flatMap fun c => collSpans s p c

/-- Cistern bytes at a spare: those that the sender owes are written (R232, R233). -/
def takeCistern (sender : Coord) (off : Nat) (bs : Bytes) (s : State) : State :=
  match s.plans.active with
  | none => s
  | some p =>
    if !s.refill.isSpare then s
    else
      let parts := (owedSpans s p sender).filterMap fun x =>
        let lo := max off x.1
        let hi := min (off + bs.length) (x.1 + x.2)
        if lo < hi then some (lo, hi) else none
      judgeSpare (parts.foldl (fun s x =>
        let s := storeBytes 3 (cisternBase s + x.1) (slice (x.1 - off) (x.2 - x.1) bs) s
        { s with refill.cisternGot := s.refill.cisternGot ++ [x] }) { s with grads.scan := true })

/-- REFILL_CISTERN_STORE (R232). -/
def execRefillCisternStore (e : Env) (h : PktHead) (bs : Bytes) (s : State) : Answer :=
  .next (refillPacket h 53 bs.length (takeCistern h.sender h.offset bs) (applyEnv e s))

/-- CHAIN_PAGES: one page of a chain, held for its record (R223). -/
def execChainPages (e : Env) (h : PktHead) (bs : Bytes) (s : State) : Answer :=
  .next (refillPacket h 54 bs.length (fun s =>
    if h.offset % 4096 ≠ 0 ∨ bs.length ≠ 4096 then s
    else
      let key := (h.sender, h.offset / 65536)
      let n := h.offset % 65536 / 4096
      { s with refill.chainBuf := (s.refill.chainBuf.filter fun b => !(b.1 = key ∧ b.2.1 = n)) ++ [(key, n, bs)] }) (applyEnv e s))

/-- BANK_SHARE_STORE: a page of a slot under rebuild; the last of its sixteen puts it in force (R240). -/
def execBankShareStore (e : Env) (h : PktHead) (bs : Bytes) (s : State) : Answer :=
  .next (refillPacket h 56 bs.length (fun s =>
    let slot := h.offset / 65536
    if !isAbsent s slot ∨ h.offset % 4096 ≠ 0 ∨ bs.length ≠ 4096 then s
    else
      let n := h.offset % 65536 / 4096
      let s := storePages 1 1 (bankAddr s slot n) bs s
      let got := getKey slot 0 s.refill.bankGot ||| BitVec.ofNat 16 (2 ^ n)
      if got = 0xFFFF#16 then placeSlot slot { s with refill.bankGot := s.refill.bankGot.filter fun x => x.1 ≠ slot }
      else { s with refill.bankGot := putKey slot got s.refill.bankGot }) (applyEnv e s))

/-! ### Chain records (R224) -/

/-- A chain record of some kinds, of the refill in force, given to its function (R224). -/
def takeChainRec (h : PktHead) (r : ChainRec) (kinds : List Nat) (go : State → State) (s : State) : State :=
  if !kinds.contains r.kind then s else refillPacket h 55 (chainRecBytes r).length (fun s => if r.refillId = s.refill.lastId then go s else s) s

/-- The same as a command. -/
def chainRow (e : Env) (h : PktHead) (r : ChainRec) (kinds : List Nat) (go : State → State) (s : State) : State :=
  takeChainRec h r kinds go (applyEnv e s)

/-- LOCAL_REPAIR_RECORD (R223, R227). -/
def execLocalRepairRecord (e : Env) (h : PktHead) (r : ChainRec) (s : State) : Answer := .next (chainRow e h r [0] (takeChain h.sender r) s)

/-- SYNDROME_RECORD (R226). -/
def execSyndromeRecord (e : Env) (h : PktHead) (r : ChainRec) (s : State) : Answer := .next (chainRow e h r [1] (takeChain h.sender r) s)

/-- REMAINDER_RECORD (R226). -/
def execRemainderRecord (e : Env) (h : PktHead) (r : ChainRec) (s : State) : Answer := .next (chainRow e h r [2] (takeChain h.sender r) s)

/-- BANK_REBUILD_RECORD: a chain that has outlived its step is given up, to begin again after the next commit (R240). -/
def execBankRebuildRecord (e : Env) (h : PktHead) (r : ChainRec) (s : State) : Answer :=
  .next (chainRow e h r [3, 4] (fun s =>
    if r.holderStep ≠ stepNum s then giveUpChain r.stripe r.equation (takeChainPages h.sender (r.position % 64) s).2
    else takeChain h.sender r { s with refill.chainsSeen := true }) s)

/-- CREDIT_RECORD (R225). -/
def execCreditRecord (e : Env) (h : PktHead) (r : ChainRec) (s : State) : Answer :=
  .next (chainRow e h r [5] (fun s =>
    pumpJobs { s with refill.grants := putKey h.sender (max r.position (getKey h.sender 64 s.refill.grants)) s.refill.grants }) s)

/-- CLOSURE_REQUEST (R238). -/
def execClosureRequest (e : Env) (h : PktHead) (r : ChainRec) (s : State) : Answer :=
  .next (chainRow e h r [6] (fun s =>
    serveClosures { s with refill.closureReqs := s.refill.closureReqs ++ [(h.sender, r.position, r.stripe)] }) s)

/-- The chain requests with which a decoder takes a stripe over (R456). -/
def takeOver (i j : Nat) (s : State) : State :=
  let me := here s
  let others := (List.range (nParity s)).filter fun x => x ≠ j && !parityLost s me i x
  let relays := if mirrorMode s then [] else (lostGroups s me).filter fun g => !parityLost s me i g && !others.contains g
  (others ++ relays).foldl (fun s x => sendChainRec (bankChip s me (place s i x).1) (chainRec s 8 x i (posOf s i)) s) s

/-- ABSENT_RECORD (R456). -/
def execAbsentRecord (e : Env) (h : PktHead) (r : ChainRec) (s : State) : Answer :=
  .next (chainRow e h r [7] (fun s =>
    if !s.refill.isDecoder ∨ plotChunks s ≤ r.stripe ∨ (absentOf s r.stripe).contains r.equation then s
    else
      let first := localServes s (here s) r.stripe && (absentOf s r.stripe).isEmpty
      let s := { s with refill.absentEqs := s.refill.absentEqs ++ [(r.stripe, r.equation)] }
      judgeSpare (trySolve r.stripe (if first then takeOver r.stripe r.equation s else s))) s)

/-- Whether a request asks this chip to take part in the rebuild of a parity of its basin: from the bank chip that holds it, or from another
link (R240, assumption 44). -/
def asksRebuild (sender : Coord) (r : ChainRec) (s : State) : Bool :=
  !s.refill.frozen && codedMode s && r.kind = 8 && decide (r.refillId = s.refill.lastId) && decide (r.stripe < plotChunks s) && decide (r.equation < nParity s) &&
    (linkMembers s r.equation).contains (memberOf s (here s)) &&
    (decide (bankChip s (here s) (place s r.stripe r.equation).1 = sender) ||
      (linkMembers s r.equation).any fun m => memberChip s (here s) m = sender)

/-- Windows 54 and 55 reserved again at a chip that is asked to take part in a rebuild (R217, assumption 44). -/
def openLinks (sender : Coord) (r : ChainRec) (s : State) : State :=
  if asksRebuild sender r s then { s with refill.linkRebuild := true, refill.chainsSeen := true, refill.wins := unionIdx s.refill.wins [54, 55] } else s

/-- A rebuild asked of this chip: begun by the first link, awaited by the others (R240, assumption 44). -/
def joinChain (i j : Nat) (s : State) : State :=
  let s := { s with refill.linkTodo := if s.refill.linkTodo.contains (i, j) then s.refill.linkTodo else s.refill.linkTodo ++ [(i, j)] }
  if firstLink s j = memberOf s (here s) then addRebuild i j s else s

/-- A request taken: while frozen, the decoder's chain of a parity that this chip holds begins; at other times the rebuild that a bank chip asks
for (R456, assumption 44). -/
def takeRequest (sender : Coord) (r : ChainRec) (s : State) : State :=
  if plotChunks s ≤ r.stripe then s
  else if s.refill.frozen then
    match heldParity s r.stripe with
    | some (j, slot) => if j = r.equation then pumpJobs (decoderSource r.stripe j slot s) else s
    | none => s
  else if asksRebuild sender r s then joinChain r.stripe r.equation s
  else s

/-- CHAIN_REQUEST: a packet that passes the intake once the windows that it asks for are open, opens them (R217, R456, assumption 44). -/
def execChainRequest (e : Env) (h : PktHead) (r : ChainRec) (s : State) : Answer :=
  let s := applyEnv e s
  let opened := openLinks h.sender r s
  let r' := intake h 1 55 (chainRecBytes r).length opened
  .next (takeChainRec h r [8] (takeRequest h.sender r) (if r'.1 then opened else s))

/-- DECODED_RECORD (R226, R227). -/
def execDecodedRecord (e : Env) (h : PktHead) (r : ChainRec) (s : State) : Answer :=
  .next (chainRow e h r [9] (fun s =>
    let k := if mirrorMode s then 0 else memberOf s (here s) % 4
    if !s.refill.isSpare ∨ plotChunks s ≤ r.stripe ∨ (r.arrival < 2 ∧ !chunkGot s r.stripe) then s
    else judgeSpare (noteClass r.stripe (min r.arrival 2) (r.pending.getD k 0) (chunkGot s r.stripe) s)) s)

/-- NO_GRADIENT_RECORD (R232). -/
def execNoGradientRecord (e : Env) (h : PktHead) (r : ChainRec) (s : State) : Answer :=
  .next (chainRow e h r [10] (fun s =>
    if s.refill.isSpare then judgeSpare { s with refill.noGradient := unionIdx s.refill.noGradient [r.stripe] } else s) s)

/-! ### Release (R212, R234 to R238) -/

/-- What every release does: the engine thaws, a held chip leaves that state, the rebuild of lost bank shares becomes due (R239, R240,
R347). -/
def thaw (s : State) : State :=
  let lostPos := (List.range (kOf s)).filter fun h => isLost s (bankChip s (here s) h)
  let links := codedMode s && !lostPos.isEmpty
  let own := codedMode s && decide (0 < absentSlots s)
  let s := if links then joinRebuild lostPos s else s
  let s := { s with
    refill.frozen := false, refill.release := none, refill.spareJob := false, step.turns := [],
    refill.rebuildDue := s.refill.rebuildDue || links || own,
    job := { s.job with held := false, pendingMode := if s.job.held then none else s.job.pendingMode } }
  if own && s.refill.isSpare then basinEvent Code.basinDegraded 0 s else s

/-- RESTART: the step in flight runs again from a turn (R235). -/
def restartStep (instant first : Nat) (s : State) : State :=
  let off := (((switchPlans (stepNum s) s).plans.active.bind fun p => p.turns[first]?).map TurnEntry.offset).getD 0
  let s := beginStep (stepNum s) (instant - off) first (thaw { s with refill.state := 0 })
  { s with step.released := true }

/-- The closures that a peer pushes unasked in replicated mode (R231). -/
def replicaClosures (s : State) : List (Coord × Nat × Nat) :=
  match s.plans.active with
  | none => []
  | some p =>
    if codedMode s then []
    else (closures s p).flatMap fun cs =>
      if closurePeer s p cs ≠ some (here s) then []
      else
        match cs.head?, cs.getLast? with
        | some a, some b => (lostList s).map fun dst => (dst, posOf s a, posOf s b)
        | _, _ => []

/-- RESUME: a recovery run finishes the step; a check that had not ended is settled (R29, R236). -/
def resumeStep (instant : Nat) (s : State) : State :=
  let s := thaw { s with refill.state := 5 }
  let s := { s with
    step.recoveryAt := some instant, step.released := true, step.nextAt := instant,
    agree := { lastStep := s.agree.lastStep, lastAt := s.agree.lastAt },
    refill.closureReqs := if s.refill.isPeer then s.refill.closureReqs ++ replicaClosures s else s.refill.closureReqs }
  if s.step.check = 0 && !s.refill.isSpare then (settleCheck s).2 else s

/-- RELEASE_INSTANT (R235, R236). -/
def execReleaseInstant (e : Env) (s : State) : Answer :=
  let s := applyEnv e s
  match s.refill.release with
  | some (kind, instant, first) =>
    .next (if flumeRuns s && s.refill.frozen && decide (instant ≤ s.ht) then
        dropLease (if kind = 0 then restartStep instant first s else resumeStep instant s)
      else s)
  | none => .next s

end Sys2Proof.Machine
end

