-- ==== Sys2Proof/Machine/Mend.lean ====
section
/-! DEFINITION. Repair traffic at this chip: requests, chains, pushes, their ends (R258 to R263). -/

namespace Sys2Proof.Machine

open Sys2Proof

/-- A repair record of some kinds that reaches window 51 (R258). -/
def repairRow (e : Env) (h : PktHead) (r : RepairRec) (kinds : List Nat) (go : State → State) (s : State) : State :=
  let s := applyEnv e s
  if !kinds.contains r.kind then s else receive h 1 51 (repairRecBytes r).length go s

/-- A refused record to a requester (R259). -/
def refuseRepair (r : RepairRec) (s : State) : State := sendRepair r.requester { r with kind := 5 } s

/-- A hold on a stripe's acknowledgements until the done record or the deadline (R260). -/
def holdStripe (r : RepairRec) (s : State) : State :=
  { s with guard.holds := s.guard.holds ++ [⟨r.tag, r.requester, r.stripe, s.ht + repairTime⟩] }

/-- The pages that a record's mask names, read from where `at_` puts them; none where one cannot be read. -/
def maskPages (r : RepairRec) (region : Nat) (at_ : Nat → Nat) (s : State) : Option (List (Nat × Bytes)) × State :=
  gather (fun n => readPage region (at_ n) {}) (pagesOf r.mask) s

/-- Pages and a record sent to the next chip of a chain (R258, R259). -/
def sendMend (dst : Coord) (r : RepairRec) (ps : List (Nat × Bytes)) (s : State) : State :=
  sendRepair dst r (sendPages dst 50 (r.tag % 64 * 65536) ps s)

/-! ### Chains (R259 to R261) -/

/-- The chips of a chain after its source, for the basin of a chip: the members it visits, then the requester (R259, R261). -/
def mendRoute (s : State) (c : Coord) (r : RepairRec) : List Coord :=
  let parity := if r.target = 1 then ((List.range (groupsOf s)).find? fun j => (place s r.stripe j).1 = memberOf s r.requester).getD 0 else 0
  ((chainMembers s r.kind r.target (memberOf s r.requester) parity).map (memberChip s c)) ++ [r.requester]

/-- A chain started by the holder of a parity, with the bits it records (R259). -/
def startMend (r : RepairRec) (j slot : Nat) (s : State) : State :=
  let (ps, s) := if isAbsent s slot then (none, s) else maskPages r 1 (bankAddr s slot) s
  match ps with
  | none => refuseRepair r (if isAbsent s slot then s else escalateUnread 1 ((pagesOf r.mask).map (bankAddr s slot)) .escalation s)
  | some ps =>
    let k : Nat := if isLocal s j then 1 else 2
    let out := { r with kind := k, arrival := arrivalOf s slot, pending := pendings s slot, equation := j - groupsOf s }
    match mendRoute s (ownerChip s 0) out with
    | dst :: _ => sendMend dst out ps (holdStripe r s)
    | [] => s

/-- REPAIR_REQUEST (R259). -/
def execRepairRequest (e : Env) (h : PktHead) (r : RepairRec) (s : State) : Answer :=
  .next (repairRow e h r [0] (fun s =>
    match (if plotChunks s ≤ r.stripe then none else heldParity s r.stripe) with
    | none => refuseRepair r s
    | some (j, slot) =>
      if !isOurMember s r.requester || (isLocal s j && memberOf s r.requester / 4 ≠ j) then refuseRepair r s else startMend r j slot s) s)

/-- What a link adds to page n: its supply on a local chain, its weighted plot page on a global one (R222, R259). -/
def mendPage (r : RepairRec) (n : Nat) (s : State) : Option Bytes × State :=
  let m := memberOf s (here s)
  if r.kind = 1 then supply r.stripe n (bit (m % 4) r.arrival) (r.pending.getD (m % 4) 0) s
  else
    let (page, s) := readPage 0 (plotAddr s r.stripe n) {} s
    (page.map (gfScale (coef m r.equation)), s)

/-- A link's part of a repair chain (R259). -/
def linkMend (r : RepairRec) (rest : List Coord) (s : State) : State :=
  match bufferPages s r.tag r.mask, rest with
  | some ps, dst :: _ =>
    let (add, s) := gather (mendPage r) (pagesOf r.mask) (clearBuffer r.tag s)
    match add with
    | some add => sendMend dst { r with hop := r.hop + 1 } (addPages 1 add ps) s
    | none =>
      let s := escalateUnread 0 ((pagesOf r.mask).map (plotAddr s r.stripe)) .escalation s
      match undoOf s r.stripe with
      | some e => escalateUnread 4 ((pagesOf (r.mask &&& e.mask)).map (undoAddr s e.slot)) .escalation s
      | none => s
  | _, _ => s

/-- The requester's page from a chain's result (R257, R259, R261); none where the chain cannot give it. -/
def restoreMend (a : Attempt) (r : RepairRec) (page : Bytes) (s : State) : Option Bytes × State :=
  let m := memberOf s (here s)
  let k := if mirrorMode s then 0 else m % 4
  let old := bit k r.arrival != polarity s && !(r.pending.getD k 0).toNat.testBit a.page
  if a.kind = 3 then
    ((s.guard.overlays.find? fun o => o.1 = a.slot s ∧ o.2.1 = a.page).map fun o => xorBytes page o.2.2, s)
  else if a.kind = 2 then (some (gfScale (gfInv (coef m r.equation)) page), s)
  else if a.target = 3 then
    if !old then (none, s)
    else
      let (now, s) := readPage 0 (plotAddr s a.stripe a.page) {} s
      (now.map (xorBytes page), s)
  else
    match undoOf s a.stripe with
    | some e =>
      if old && e.mask.toNat.testBit a.page then
        let (u, s) := readPage 4 (undoAddr s e.slot a.page) {} s
        (u.map (xorBytes page), s)
      else (some page, s)
    | none => (some page, s)

/-- The page beside the chain's result that the requester could not read, escalated in its turn (R257, R259). -/
def mendUnread (a : Attempt) (s : State) : State :=
  if a.target = 3 then escalateUnread 0 [plotAddr s a.stripe a.page] .escalation s
  else
    match undoOf s a.stripe with
    | some e => if a.kind = 1 && e.mask.toNat.testBit a.page then escalateUnread 4 [undoAddr s e.slot a.page] .escalation s else s
    | none => s

/-- The holder that a done record of an attempt goes to; none for an own chain (R259). -/
def doneTo (s : State) (a : Attempt) : Option Coord :=
  if a.kind = 1 then some (holderOf s a.stripe (memberOf s (here s) / 4))
  else if a.kind = 2 then some (holderOf s a.stripe (groupsOf s + a.equation))
  else if a.kind = 4 && a.region = 0 && mirrorMode s then some (partnerOf s (here s))
  else none

/-- The end of a chain at its requester (R259, R263). -/
def endMend (r : RepairRec) (s : State) : State :=
  match attemptOf s r.tag, bufferPages s r.tag r.mask with
  | some a, some ps =>
    let s := clearBuffer r.tag s
    let (page, s) := restoreMend a r (getKey a.page (zeros 4096) ps) s
    let s := match doneTo s a with
      | some dst => sendRepair dst { r with kind := 3 } s
      | none => s
    match page with
    | some page => poke (attemptDone a page s)
    | none => poke (attemptFailed a (mendUnread a s))
  | none, _ => count Reg.dropRepairTag 1 s
  | some _, none => s

/-- REPAIR_CHAIN_RECORD (R259). -/
def execRepairChainRecord (e : Env) (h : PktHead) (r : RepairRec) (s : State) : Answer :=
  .next (repairRow e h r [1, 2] (fun s =>
    if r.requester = here s then endMend r s
    else if plotChunks s ≤ r.stripe then s
    else
      match (mendRoute s (here s) r).dropWhile fun c => c ≠ here s with
      | _ :: rest => linkMend r rest s
      | [] => s) s)

/-- REPAIR_DONE (R259, R260). -/
def execRepairDone (e : Env) (h : PktHead) (r : RepairRec) (s : State) : Answer :=
  .next (repairRow e h r [3] (fun s =>
    poke { s with guard.holds := s.guard.holds.filter fun x => !(x.tag = r.tag ∧ x.requester = h.sender) }) s)

/-! ### Pushes (R257, R258) -/

/-- Where the page that a push request names lies at this chip: its region and its address; none where this chip holds no copy of it
(R257). -/
def pushSource (s : State) (r : RepairRec) (n : Nat) : Option (Nat × Nat) :=
  if r.target = 0 then
    if mirrorMode s ∧ r.requester = partneredBy s ∧ !isAbsent s r.stripe ∧ r.stripe < plotChunks s then some (1, bankAddr s r.stripe n) else none
  else if r.target = 5 then
    if r.stripe < plotChunks s ∧ (!mirrorMode s || r.requester == partnerOf s (here s)) then some (0, plotAddr s r.stripe n) else none
  else if r.target = 4 then
    match s.plans.active with
    | none => none
    | some p =>
      let h := 2 * p.inputHalf
      match cisternArea s r.offset with
      | 0 => if partnerOf s r.requester = here s then some (3, cisternBase s + r.offset + h) else none
      | 1 => if partnerOf s (here s) = r.requester then some (3, cisternBase s + r.offset - h) else none
      | 2 | 3 => if (collsAt s r.offset).all (holdsResults s p) then some (3, cisternBase s + r.offset) else none
      | _ => none
  else none

/-- REPAIR_PUSH_REQUEST: the pages pushed; a mirror copy of a plot page goes with the bits it was read under (R257, R259). -/
def execRepairPushRequest (e : Env) (h : PktHead) (r : RepairRec) (s : State) : Answer :=
  .next (repairRow e h r [4] (fun s =>
    if (pagesOf r.mask).all fun n => (pushSource s r n).isSome then
      let (ps, s) := gather (fun n s => match pushSource s r n with
        | some (region, a) => readPage region a {} s
        | none => (none, s)) (pagesOf r.mask) s
      match ps with
      | none => refuseRepair r ((pagesOf r.mask).foldl (fun s n => match pushSource s r n with
          | some (region, a) => escalateUnread region [a] .escalation s
          | none => s) s)
      | some ps =>
        if r.target = 0 then
          sendMend r.requester { r with kind := 1, arrival := arrivalOf s r.stripe, pending := pendings s r.stripe } ps (holdStripe r s)
        else sendPages r.requester 50 (r.tag % 64 * 65536) ps s
    else refuseRepair r s) s)

/-- REPAIR_PAGES: pages placed in the buffer; those that a push request asked for end its attempt (R258, R263). -/
def execRepairPages (e : Env) (h : PktHead) (bs : Bytes) (s : State) : Answer :=
  .next (receive h 1 50 bs.length (fun s =>
    if h.offset % 4096 ≠ 0 ∨ bs.length ≠ 4096 then s
    else
      let slot := h.offset / 65536
      let n := h.offset % 65536 / 4096
      let asked := s.guard.attempts.find? fun a =>
        a.kind = 4 && !a.deferred && a.tag % 64 = slot && a.page = n && !(a.region = 0 && mirrorMode s)
      match asked with
      | some a => poke (attemptDone a bs s)
      | none => { s with guard.buffer := (s.guard.buffer.filter fun b => !(b.1 = slot ∧ b.2.1 = n)) ++ [(slot, n, bs)] }) (applyEnv e s))

/-! ### Failures (R263) -/

/-- REPAIR_REFUSED (R263). -/
def execRepairRefused (e : Env) (h : PktHead) (r : RepairRec) (s : State) : Answer :=
  .next (repairRow e h r [5] (fun s =>
    match attemptOf s r.tag with
    | some a => poke (attemptFailed a s)
    | none => count Reg.dropRepairTag 1 s) s)

/-- REPAIR_TIMEOUT (R263). -/
def execRepairTimeout (e : Env) (tag : Nat) (s : State) : Answer :=
  let s := applyEnv e s
  match attemptOf s tag with
  | some a => .next (if flumeRuns s && decide (a.deadline ≤ s.ht) then poke (attemptFailed a s) else s)
  | none => .next s

end Sys2Proof.Machine
end

