-- ==== Sys2Proof/Machine/Move.lean ====
section
/-! DEFINITION. The restore commands: the scan, RESTORE_LOAD, RESTORE_RESLICE and what moves and settles it (R306, R309, R312 to R321). -/

namespace Sys2Proof.Machine

open Sys2Proof

/-! ### RESTORE_SCAN (R306, R374) -/

/-- The host objects that a RESTORE_SCAN names: address and length. -/
def scanObjects (s : State) (d : Desc) : List (Nat × Nat) :=
  (List.range (d.f 32 1)).map fun i => let b := hostRead s (d.f 24 8 + 16 * i) 16; (field 0 8 b, field 8 8 b)

/-- The catalogue: its header of R374 and the source entries (R306, R307). -/
def catalogue (s : State) (objs : List (Nat × Nat)) : Nat × Bytes :=
  let found := (indexed 0 objs).map fun x => (x.1, objectSource s x.1 x.2.1 x.2.2)
  let entries := ownSources s ++ found.filterMap fun x => x.2
  let failed := sumOf (found.map fun x => if x.2.isNone then 2 ^ x.1 else 0)
  (entries.length, le 4 0x54414353 ++ le 2 2 ++ le 2 (coordWord (here s)) ++ le 4 entries.length ++ le 2 (tagOf s) ++ zeros 2 ++ le 8 failed ++
    le 8 s.hostTime ++ zeros 32 ++ entries.flatMap sourceBytes)

/-- RESTORE_SCAN (R306, R374, R379). -/
def execRestoreScan (e : Env) (q : Fin 16) (j : Nat) (s : State) : Answer :=
  .next (withDesc q j Op.restoreScan (fun d s =>
    let (buf, len, list, n) := (d.f 8 8, d.f 16 8, d.f 24 8, d.f 32 1)
    if buf % 64 ≠ 0 ∨ len % 64 ≠ 0 ∨ list % 64 ≠ 0 ∨ 64 < n then complete q d (refusedWith 0xE3) s
    else
      let (count, bs) := catalogue s (scanObjects s d)
      if len < bs.length then complete q d { refusedWith 0xE5 with word := count, quad := bs.length } s
      else complete q d { word := count, quad := bs.length } (hostWrite buf bs { s with restore.state := 4, restore.status := Code.ok })) (applyEnv e s))

/-! ### RESTORE_LOAD (R320) -/

/-- Whether an own source is exactly a run of this chip's tables at a step (R320). -/
def matchesRun (step : Nat) (want x : Source) : Bool :=
  x.step == step && x.kind == want.kind && x.tensor == want.tensor && x.operand == want.operand && x.plane == want.plane && x.fmt == want.fmt &&
    x.first == want.first && x.count == want.count

/-- The bytes of the first source that can be read; later sources are counted as fallbacks (R316). -/
def readFirst (n : Nat) : List Source → State → Option (Source × Bytes) × State
  | [], s => (none, s)
  | x :: xs, s =>
    let (bs, s) := readSource x 0 n s
    match bs with
    | some bs => (some (x, bs), s)
    | none => readFirst n xs (if xs.isEmpty then s else count Reg.rsFallbacks 1 s)

/-- Every run of the need read before anything is written; none where one is not covered (R320). -/
def readRuns (own : List Source) (step : Nat) (p : Plan) : List Shard → State → Option (List (Shard × Source × Bytes)) × State
  | [], s => (some [], s)
  | x :: xs, s =>
    let want := sourceOfRun s p 0 step p.id 0 x
    let n := if x.kind = 2 then 4 * 2 ^ 20 else x.items p * x.width
    let cands := own.filter fun y => if x.kind = 2 then y.kind == 2 && y.step == step else matchesRun step want y
    let (got, s) := readFirst n cands s
    match got with
    | none => (none, s)
    | some (y, bs) =>
      let (rest, s) := readRuns own step p xs s
      (rest.map fun r => (x, y, bs) :: r, s)

/-- A run's bytes laid into its plot chunks, chunks as (number, bytes). -/
def layRun (s : State) (x : Shard) (bs : Bytes) (chunks : List (Nat × Bytes)) : List (Nat × Bytes) :=
  (indexed 0 (runChunks s x)).foldl (fun acc nc =>
    let part := slice (nc.1 * 65536) (min 65536 (bs.length - nc.1 * 65536)) bs
    let off := if nc.1 = 0 then (x.addr - plotBase s) % 65536 else 0
    putKey nc.2 (putAt off part (getKey nc.2 (zeros 65536) acc)) acc) chunks

/-- The restore of this chip's own runs, all of them read (R315, R317, R320). -/
def loadRuns (p : Plan) (step : Nat) (own : List Source) (runs : List (Shard × Source × Bytes)) (s : State) : State :=
  let chunks := runs.foldl (fun acc r => if r.1.kind = 2 then acc else layRun s r.1 r.2.2 acc) []
  let s := chunks.foldl (fun s c => writePlotChunk c.1 c.2 s) s
  let n := 65536 * chunks.length
  let rec_ := runs.find? fun r => r.1.kind = 2
  let c0 := p.plotBytes / 65536
  let recs := (List.range 64).map fun i => (c0 + i, slice (65536 * i) 65536 ((rec_.map fun r => r.2.2).getD []))
  let s := { s with restore.recs := recs, restore.writtenBytes := n, restore.totalWritten := s.restore.totalWritten + n }
  let s := applyRestored p step ((rec_.map fun r => slicesOf s p own r.2.1).getD []) false s
  { s with restore.recs := [], refill.rebuildDue := codedMode s }

/-- RESTORE_LOAD: every item read and verified before any is written, then the plot and the state of R317 (R320, R321). -/
def execRestoreLoad (e : Env) (q : Fin 16) (j : Nat) (s : State) : Answer :=
  .next (withDesc q j Op.restoreLoad (fun d s =>
    let step := d.f 8 4
    if planActive s then complete q d (refusedWith 0xE4) s
    else
      match s.plans.standby with
      | none => complete q d (refusedWith 0xE4) s
      | some p =>
        if !logicalAll s p then complete q d (refusedWith 0xE3) s
        else
          let own := ownSources s
          let (runs, s) := readRuns own step p (shardsOf s p) { s with restore.spoiled := [], restore.writtenBytes := 0 }
          match runs with
          | none => complete q d { status := Code.mixedStep, word := step } { s with restore.state := 5, restore.status := Code.mixedStep, restore.lastStep := some step }
          | some runs =>
            let s := loadRuns p step own runs s
            complete q d { word := step, quad := s.restore.writtenBytes } { s with restore.state := 4, restore.status := Code.ok })
    (applyEnv e s))

/-! ### RESTORE_RESLICE (R309, R310, R312) -/

/-- The bank shares rebuilt at once after an OK verdict: every member starts its chains (R240, R319). -/
def rebuildNow (before s : State) : State :=
  if before.restore.running && !s.restore.running && s.restore.state = 4 && codedMode s then
    joinRebuild (List.range (kOf s)) { s with refill.chainsSeen := true, refill.wins := unionIdx s.refill.wins [54, 55, 56] }
  else s

/-- The code that a RESTORE_RESLICE is refused with before its map is read (R321, R371, R374). -/
def resliceBad (s : State) (d : Desc) : Option Nat :=
  if d.f 8 8 % 64 ≠ 0 ∨ d.f 16 8 % 64 ≠ 0 ∨ d.f 16 8 < 192 ∨ d.f 24 8 < d.fetchedAt + 2000000 ∨ d.f 32 8 ≤ d.f 24 8 then some 0xE3
  else if planActive s then some 0xE4
  else none

/-- The status that the checks of R309 end a restore with, if they do; the standby plan comes back where they pass. -/
def mapStatus (s : State) (m : Bytes) (len : Nat) : Nat × Option Plan :=
  let (_, os, srcs) := mapOf m
  if !mapHeaderOk m len then (Code.refusedPlan, none)
  else if field 32 4 m ≠ regNat s Reg.basinGeomF ∨ field 28 4 m ≠ jobChips s then (Code.refusedPlan, none)
  else
    match s.plans.standby with
    | none => (Code.refusedPlan, none)
    | some p =>
      if !logicalAll s p || !ownersMatch s p os then (Code.refusedPlan, none)
      else if !(os.all (fun o => inJob s o.owner) && srcs.all (fun x => inJob s x.holder)) || !ownersCover s p os then (Code.coordUnmapped, none)
      else (Code.ok, some p)

/-- RESTORE_RESLICE: the map checked, the windows opened, the choice begun (R309, R312, R314, R319). -/
def execRestoreReslice (e : Env) (q : Fin 16) (j : Nat) (s : State) : Answer :=
  .next (withDesc q j Op.restoreReslice (fun d s =>
    if s.restore.running then s
    else
      match resliceBad s d with
      | some c => complete q d (refusedFor d c) s
      | none =>
        let m := hostRead s (d.f 8 8) (d.f 16 8)
        match mapStatus s m (d.f 16 8) with
        | (status, none) =>
          complete q d { status := status, detail := if status = Code.refusedPlan then 0xE3 else 1, word := 0xFFFFFFFF }
            { s with restore.state := 5, restore.status := status }
        | (_, some p) =>
          let (cands, os, srcs) := mapOf m
          let own := ownSources s
          let mine := srcs.filter fun x => x.holder = here s
          let s := { s with
            restore := { s.restore with
              running := true, state := 2, ring := q, idx := j, mapSum := field 16 4 m, candidates := cands, owners := os, sources := srcs,
              mapAddr := d.f 8 8, choiceAt := d.f 24 8, doneAt := d.f 32 8, vector := candidateVector s p cands os srcs,
              stale := !mine.all (sourceStands s own), kids := [], ownSent := false, verdictSent := false, missing := false, step := none,
              pieces := [], chunks := [], written := [], spoiled := [], recs := [], credits := [], credited := 0, writtenBytes := 0 },
            guard.scrubSuspended := true }
          let s := refreshSlots s
          rebuildNow s (pumpChoice false s)) (applyEnv e s))

/-! ### Records and data (R312 to R316, R318) -/

/-- A control record of a kind that reaches window 49 of the restore in progress, for the map in force. -/
def restoreRow (e : Env) (h : PktHead) (cls : Nat) (r : RestoreRec) (kind : Nat) (go : State → State) (s : State) : State :=
  let s := applyEnv e s
  if r.kind ≠ kind then s
  else receive h cls 49 (restoreRecBytes r).length (fun s => if s.restore.running then rebuildNow s (go s) else s) s

/-- A child's record taken (R204, R312, R318). -/
def takeKid (h : PktHead) (r : RestoreRec) (s : State) : State :=
  if !(agreeKids s).contains h.sender || s.restore.ownSent || s.restore.verdictSent then s
  else { s with restore.kids := putKey h.sender r s.restore.kids }

/-- RESTORE_DATA_STORE: bytes for the chunk of this chip's need that the slot stands for; a whole chunk is written (R314, R315). -/
def execRestoreDataStore (e : Env) (h : PktHead) (bs : Bytes) (s : State) : Answer :=
  .next (receive h 1 48 bs.length (fun s =>
    match (if s.restore.state = 3 then lowestIncomplete s else none) with
    | none => s
    | some l =>
      let c := l + (h.offset / 65536 + 128 - l % 128) % 128
      let s' := finishChunk c (takeBytes c (h.offset % 65536) bs h.sender s)
      rebuildNow s (pumpMove s')) (applyEnv e s))

/-- RESTORE_CHOICE (R312). -/
def execRestoreChoice (e : Env) (h : PktHead) (r : RestoreRec) (s : State) : Answer :=
  .next (restoreRow e h 1 r 0 (fun s => if s.restore.state = 2 then pumpChoice false (takeKid h r s) else s) s)

/-- RESTORE_CHOICE_VERDICT (R312). -/
def execRestoreChoiceVerdict (e : Env) (h : PktHead) (r : RestoreRec) (s : State) : Answer :=
  .next (restoreRow e h 7 r 1 (fun s =>
    if s.restore.state = 2 && (r.status ≠ 0 || r.digest = s.restore.mapSum) then applyChoice r s else s) s)

/-- RESTORE_CREDIT (R314). -/
def execRestoreCredit (e : Env) (h : PktHead) (r : RestoreRec) (s : State) : Answer :=
  .next (restoreRow e h 1 r 2 (fun s =>
    if r.digest ≠ s.restore.mapSum then s
    else pumpMove { s with restore.credits := putKey h.sender (max r.position (getKey h.sender 0 s.restore.credits)) s.restore.credits }) s)

/-- RESTORE_WITHDRAW: the piece asked of its next source (R316). -/
def execRestoreWithdraw (e : Env) (h : PktHead) (r : RestoreRec) (s : State) : Answer :=
  .next (restoreRow e h 1 r 3 (fun s =>
    let piece := (myPieces s).find? fun p =>
      p.source = r.source ∧ p.at_ / 65536 = r.position ∧ !p.done ∧ (mapSource s p.source).map Source.holder = some h.sender
    match (if s.restore.state = 3 ∧ r.digest = s.restore.mapSum then piece else none) with
    | none => s
    | some p => pumpMove (fallBack (s.restore.sources.length + 1) p s)) s)

/-- Whether a source may serve a piece (R310, R313, R317). -/
def mayServe (x : Source) (p : Piece) : Bool :=
  x.kind == p.kind && (p.kind = 2 || (x.tensor == p.tensor && x.operand == p.operand && x.plane == p.plane && holdsItems x p.first p.count))

/-- RESTORE_REQUEST: the piece pushed from the source that the record names (R316). -/
def execRestoreRequest (e : Env) (h : PktHead) (r : RestoreRec) (s : State) : Answer :=
  .next (restoreRow e h 1 r 4 (fun s =>
    match (if s.restore.state = 3 ∧ r.digest = s.restore.mapSum then mapSource s r.source else none) with
    | none => s
    | some x =>
      let piece := s.restore.pieces.find? fun p =>
        p.dest = h.sender ∧ p.at_ / 65536 = r.position ∧ p.source ≠ r.source ∧ mayServe x p
      match piece with
      | some p =>
        if x.holder = here s then
          pumpMove (putPiece p { p with source := r.source, next := p.at_ / 65536, done := false } s)
        else s
      | none => s) s)

/-- RESTORE_DONE (R318). -/
def execRestoreDone (e : Env) (h : PktHead) (r : RestoreRec) (s : State) : Answer :=
  .next (restoreRow e h 1 r 5 (fun s => if s.restore.state = 3 then pumpDone false (takeKid h r s) else s) s)

/-- RESTORE_DONE_VERDICT (R318). -/
def execRestoreDoneVerdict (e : Env) (h : PktHead) (r : RestoreRec) (s : State) : Answer :=
  .next (restoreRow e h 7 r 6 (fun s => if s.restore.state = 3 ∧ r.digest = s.restore.mapSum then applyDone r.status s else s) s)

/-! ### Deadlines (R204, R312, R318) -/

/-- A hop of the agreement under the standby plan (R204). -/
def restoreHop (s : State) : Nat := restoreBound s + 4000

/-- The deadline of the agreement under way. -/
def restoreEnd (s : State) : Nat := if s.restore.state = 2 then s.restore.choiceAt else s.restore.doneAt

/-- RESTORE_CUTOFF: a chip below the root sends its record with the counts it holds (R204, R312, R318). -/
def execRestoreCutoff (e : Env) (s : State) : Answer :=
  let s := applyEnv e s
  .next (if controllersRun s && s.restore.running && (agreeParent s).isSome &&
      decide (restoreEnd s ≤ s.ht + restoreBound s + agreeHeight s * restoreHop s) then
    pumpDone true (pumpChoice true s)
  else s)

/-- A deadline of the agreement: the root's verdict; below it, the restore ends a route bound later if no verdict has come. -/
def restoreTimeout (stage at_ : Nat) (s : State) : State :=
  if !(controllersRun s && s.restore.running && s.restore.state = stage) then s
  else if (agreeParent s).isNone then
    (if at_ ≤ s.ht then (if stage = 2 then pumpChoice true s else pumpDone true s) else s)
  else if at_ + restoreBound s ≤ s.ht then endRestore Code.commitIncomplete (if stage = 2 then 2 else 4) (stage ≠ 2) s
  else s

/-- RESTORE_CHOICE_DEADLINE (R312). -/
def execRestoreChoiceDeadline (e : Env) (s : State) : Answer :=
  let s := applyEnv e s
  .next (rebuildNow s (restoreTimeout 2 s.restore.choiceAt s))

/-- RESTORE_DONE_DEADLINE (R318). -/
def execRestoreDoneDeadline (e : Env) (s : State) : Answer :=
  let s := applyEnv e s
  .next (rebuildNow s (restoreTimeout 3 s.restore.doneAt s))

end Sys2Proof.Machine
end

