-- ==== Sys2Proof/Machine/Job.lean ====
section
/-! DEFINITION. Starting a job and changing its mode: START, its records, acknowledgements, the decision, the instants (R335 to R347). -/

namespace Sys2Proof.Machine

open Sys2Proof

/-! ### Staging and acknowledging (R336 to R338) -/

/-- The start outcome event (R339, R341, R451). -/
def startEvent (outcome missing lowest : Nat) (s : State) : State := event 0x07 0 0 (le 1 outcome ++ le 2 missing ++ le 2 lowest) s

/-- A chip's children on an ack tree of a start (R338). -/
def ackKids (s : State) (f : StartFields) (tree : Nat) : List Coord := childrenOf (jobBox s) (tree = 1) (here s) f.root

/-- The job indices known to have acknowledged on a tree, this chip's own among them. -/
def ackBits (s : State) (x : StagedStart) (tree : Nat) : List Nat := unionIdx [jobIndex s (here s)] (getKey tree [] x.bits)

/-- Whether an instant is past a chip's cut-off on the ack trees of a start (R338). -/
def pastAckCutoff (s : State) (f : StartFields) (t : Nat) : Bool :=
  decide (f.deadline < t + f.routeBound + heightOf (here s) f.root * (f.routeBound + 4000))

/-- This chip's acknowledgement on a tree, sent to its parent once it is due; none where the start was staged past the cut-off (R338). -/
def pumpAck (force : Bool) (tree : Nat) (s : State) : State :=
  match s.job.staged with
  | none => s
  | some x =>
    let ready := (ackKids s x.fields tree).all fun c => (getKey tree [] x.kids).contains c
    match parentOf (tree = 1) (here s) x.fields.root with
    | none => s
    | some dst =>
      if x.sent.contains tree || !(force || ready) || pastAckCutoff s x.fields x.at_ then s
      else
        let r : StartRec := { tree := tree, fields := x.fields, bitmap := ackBits s x tree }
        sendStore dst 46 0 (.start 3 r) { s with job.staged := some { x with sent := x.sent ++ [tree] } }

/-- Both trees. -/
def pumpAcks (s : State) : State := pumpAck false 1 (pumpAck false 0 s)

/-- A record of a start multicast on tree A and then on tree B (R337, R339). -/
def broadcastStart (kind : Nat) (f : StartFields) (s : State) : State :=
  let s := send (.tree f.treeA) 7 46 0 0 (.start kind { tree := 0, fields := f }) s
  send (.tree f.treeB) 7 46 0 0 (.start kind { tree := 1, fields := f }) s

/-- Whether a START makes this chip the root (R336). -/
def rootOk (s : State) (tag : Nat) (f : StartFields) : Bool :=
  decide (tag ≠ 0 ∧ tag = tagOf s) && !s.job.live && s.job.staged.isNone && decide (f.jobChips = jobChips s) && decide (f.epoch ≠ 0) &&
    decide (s.ht + 2000000 ≤ f.deadline) && decide (s.ht + 4000000 ≤ f.instant) && decide (f.deadline + 1000000 ≤ f.instant) &&
    decide (f.treeA ≠ f.treeB) && decide (f.treeA ≠ 0) && decide (f.treeB ≠ 0)

/-- The root stages the start and broadcasts it (R337). -/
def stageRoot (f : StartFields) (s : State) : State :=
  broadcastStart 0 f { s with job := { s.job with staged := some { fields := f, isRoot := true, at_ := s.ht }, isRoot := true, conflicted := none } }

/-- A start record of a kind that reaches window 46 at offset 0 (R337). -/
def startRow (e : Env) (h : PktHead) (cls kind : Nat) (r : StartRec) (go : State → State) (s : State) : State :=
  let s := applyEnv e s
  receive h cls 46 (startRecBytes kind r).length (fun s => if h.offset = 0 then go s else s) s

/-- START_RECORD: the first good copy is staged; a copy with other fields undoes the start (R337). -/
def execStartRecord (e : Env) (h : PktHead) (r : StartRec) (s : State) : Answer :=
  .next (startRow e h 7 0 r (fun s =>
    let mine := decide (r.sumOk ∧ r.fields.tag = tagOf s ∧ s.job.conflicted ≠ some r.fields.tag) && !s.job.live
    match s.job.staged with
    | some x =>
      if !mine || r.fields = x.fields then s
      else
        ignored 0x08 10 0 0 0 { s with job := { s.job with staged := none, isRoot := false, conflicted := some r.fields.tag } }
    | none =>
      if mine && decide (r.fields.jobChips = jobChips s) && decide (s.ht + 1000000 ≤ r.fields.instant) then
        pumpAcks { s with job := { s.job with staged := some { fields := r.fields, isRoot := false, at_ := s.ht }, isRoot := false } }
      else s) s)

/-- A GO, ABORT or acknowledgement record: acted on where it matches the staged start, else counted (R337). -/
def withStart (r : StartRec) (go : StagedStart → State → State) (s : State) : State :=
  match s.job.staged with
  | some x => if r.sumOk && decide (r.fields = x.fields) then go x s else count Reg.dropUnmapped 1 s
  | none => count Reg.dropUnmapped 1 s

/-- START_ACK_RECORD (R338). -/
def execStartAckRecord (e : Env) (h : PktHead) (r : StartRec) (s : State) : Answer :=
  .next (startRow e h 1 3 r (withStart r (fun x s =>
    if x.sent.contains r.tree || x.decided then count Reg.dropUnmapped 1 s
    else if !(ackKids s x.fields r.tree).contains h.sender then s
    else
      let x := { x with
        bits := putKey r.tree (unionIdx (getKey r.tree [] x.bits) r.bitmap) x.bits,
        kids := putKey r.tree ((getKey r.tree [] x.kids).filter (· ≠ h.sender) ++ [h.sender]) x.kids }
      pumpAck false r.tree { s with job.staged := some x })) s)

/-- START_ACK_CUTOFF: what has come by then goes to the parent (R338). -/
def execStartAckCutoff (e : Env) (ackTree : Nat) (s : State) : Answer :=
  let s := applyEnv e s
  match s.job.staged with
  | none => .next s
  | some x =>
    let f := x.fields
    let due := decide (f.deadline ≤ s.ht + f.routeBound + heightOf (here s) f.root * (f.routeBound + 4000))
    .next (if controllersRun s && due && decide (ackTree < 2) then pumpAck true ackTree s else s)

/-! ### The decision and the outcome (R339 to R341) -/

/-- What a chip holds of the outcome: the first of GO and ABORT to come. -/
def holdOutcome (n : Nat) (s : State) : State :=
  match s.job.staged with
  | some x => if x.outcome = 0 then { s with job.staged := some { x with outcome := n } } else s
  | none => s

/-- GO_RECORD (R339). -/
def execGoRecord (e : Env) (h : PktHead) (r : StartRec) (s : State) : Answer := .next (startRow e h 7 1 r (withStart r fun _ => holdOutcome 1) s)

/-- ABORT_START_RECORD (R339). -/
def execAbortStartRecord (e : Env) (h : PktHead) (r : StartRec) (s : State) : Answer :=
  .next (startRow e h 7 2 r (withStart r fun _ => holdOutcome 2) s)

/-- START_DEADLINE: the root decides (R339). -/
def execStartDeadline (e : Env) (s : State) : Answer :=
  let s := applyEnv e s
  match s.job.staged with
  | none => .next s
  | some x =>
    if !(controllersRun s && x.isRoot && !x.decided && decide (x.fields.deadline ≤ s.ht)) then .next s
    else
      let present := unionIdx (ackBits s x 0) (ackBits s x 1)
      let missing := (List.range x.fields.jobChips).filter fun i => !present.contains i
      let n : Nat := if missing.isEmpty then 1 else 2
      let s := { s with job.staged := some { x with decided := true, outcome := n } }
      .next (startEvent n missing.length ((minOf missing).getD 0xFFFF) (broadcastStart n x.fields s))

/-- START_ABORT for the staged tag (R340). -/
def abortStart (cause : Nat) (s : State) : State :=
  match s.job.staged with
  | none => ignored 0x09 5 0 0 cause s
  | some x =>
    if x.isRoot then
      (if s.ht < x.fields.deadline ∧ !x.decided then
        broadcastStart 2 x.fields { s with job.staged := some { x with decided := true, outcome := 2 } }
      else ignored 0x09 5 0 0 cause s)
    else if s.ht < x.fields.instant then { s with job.staged := none }
    else ignored 0x09 5 0 0 cause s

/-- START_INSTANT (R341). -/
def execStartInstant (e : Env) (s : State) : Answer :=
  let s := applyEnv e s
  match s.job.staged with
  | none => .next s
  | some x =>
    if !(controllersRun s && decide (x.fields.instant ≤ s.ht)) then .next s
    else
      let s := { s with job := { s.job with staged := none, outcome := if x.outcome = 0 then 3 else x.outcome } }
      .next (if x.outcome = 1 then
        { s with job := { s.job with
            live := true, liveAt := x.fields.instant, epoch := x.fields.epoch, mode := 0, held := false, pendingMode := none } }
      else if x.outcome = 2 then s
      else startEvent 3 0 0xFFFF s)

/-! ### Mode changes (R345 to R347) -/

/-- The mode event (R345 to R347, R451). -/
def modeEvent (status cause : Nat) (s : State) : State :=
  event 0x0E status cause
    (le 4 s.job.epoch ++ le 4 ((s.job.pendingMode.map PendingMode.epoch).getD 0) ++ le 1 (b2n s.job.held)) s

/-- Whether a MODE_CHANGE that passed the tag check is accepted by a live chip (R344, R345). -/
def modeOk (m : PendingMode) (s : State) : Bool :=
  let p := (s.job.pendingMode.map PendingMode.epoch).getD 0
  s.job.live && decide (m.mode < 2) && decide (s.job.epoch < m.epoch) && (decide (p < m.epoch) || (s.job.held && decide (p = m.epoch)))

/-- Whether a chip that is not live keeps a MODE_CHANGE as the companion of a spare (R342, R345): it may come before its BEGIN_REFILL; once
that is accepted and until it starts, only one for its start instant is. -/
def companionOk (m : PendingMode) (s : State) : Bool :=
  decide (m.flags % 2 = 0 ∧ m.mode < 2 ∧ s.ht + 1000000 ≤ m.instant) &&
    (match s.refill.msg with
    | some b => !b.lost.contains (here s) || decide (b.startAt ≤ s.ht) || decide (b.startAt = m.instant)
    | none => true)

/-- A MODE_CHANGE taken (R345): pending, missed, or, at a chip that is not live, kept as the companion of a spare (R342). -/
def takeMode (cause : Nat) (m : PendingMode) (s : State) : State :=
  if !s.job.live then
    (if companionOk m s then { s with job.pendingMode := some { m with companion := true } }
     else ignored 0x07 6 0 0 cause s)
  else if !modeOk m s then ignored 0x07 6 0 0 cause s
  else if s.ht + 1000000 ≤ m.instant then { s with job.pendingMode := some m }
  else modeEvent 0 cause { s with job.pendingMode := some { m with missed := true }, job.held := true }

/-- MODE_CHANGE_INSTANT (R346). -/
def execModeChangeInstant (e : Env) (s : State) : Answer :=
  let s := applyEnv e s
  match s.job.pendingMode with
  | none => .next s
  | some m =>
    if !controllersRun s || m.missed || m.companion || decide (s.ht < m.instant) then .next s
    else
      let r := if bit 0 m.flags then applyCommit true s else (true, s)
      let s := r.2
      .next (if !r.1 then modeEvent 0 0 { s with job.pendingMode := some { m with missed := true }, job.held := true }
      else if !s.job.live then s
      else dropLease (evalAll { s with job := { s.job with epoch := m.epoch, mode := m.mode, pendingMode := none, held := false } }))

end Sys2Proof.Machine
end

