-- ==== Sys2Proof/Machine/Firm.lean ====
section
/-! DEFINITION. Firmware: image packages, banks, the journal, settings, the start sequence, staging, handover (R425 to R446). -/

namespace Sys2Proof.Machine

open Sys2Proof

/-! ### The firmware area and its packages (R425, R428 to R430) -/

/-- Partition offset of part j of an area: 0 bank A, 1 bank B, 2 the factory bank, 3 the staging area (R425). -/
def partAddr (area j : Nat) : Nat :=
  (if area = 0 then 2 ^ 30 else if area = 1 then 2 ^ 31 else if area = 2 then 2 ^ 29 else 3 * 2 ^ 30) + j * 2 ^ 26

/-- Whether a package header is good: magic, format, its CRC (R428). -/
def packHeadOk (b : Bytes) : Bool := field 0 4 b == 0x4D494B4F && field 4 2 b == 2 && field 4092 4 b == crc32c (slice 0 4092 b)

/-- Whether a whole package is good: its header, its length, its body CRC (R428). -/
def packOk (b : Bytes) : Bool :=
  packHeadOk b && field 32 4 b == b.length && decide (b.length % 4096 = 0 ∧ 4096 ≤ b.length ∧ b.length ≤ 2 ^ 26) && field 36 4 b == crc32c (b.drop 4096)

/-- What a package's binding fails by: 1 the hardware type, 2 the serial, 0 nothing (R430). -/
def bindFault (s : State) (b : Bytes) : Nat :=
  if field 16 4 b ≠ s.fw.hwType then 1 else if bit 0 (field 20 1 b) ∧ field 24 8 b ≠ s.fw.serial then 2 else 0

/-- Size of the partition that a segment target loads into (R423); none for a table segment. -/
def targetSize (t : Nat) : Option Nat := if t = 5 then none else some (([768, 1024, 384, 576, 576].getD t 0) * 1024)

/-- Whether every segment of a base lies in its package and fits its partition (R428). -/
def segmentsOk (b : Bytes) : Bool :=
  let n := field 44 4 b
  decide (1 ≤ n ∧ n ≤ 64) && (List.range n).all fun i =>
    let at_ := 48 + 16 * i
    let (t, off, len, load) := (field at_ 4 b, field (at_ + 4) 4 b, field (at_ + 8) 4 b, field (at_ + 12) 4 b)
    decide (t ≤ 5) && decide (off + len ≤ b.length) && (match targetSize t with
      | some size => decide (load + len ≤ size)
      | none => true)

/-- A package read from an area; none where it is unreadable or a check of it fails (R63, R432). -/
def readPack (s : State) (area j : Nat) : Option Bytes :=
  let a := partAddr area j
  let n := field 32 4 (flashRead s a 4096)
  if !(4096 ≤ n ∧ n ≤ 2 ^ 26 ∧ unitsGood s a n) then none
  else
    let b := flashRead s a n
    if packOk b then some b else none

/-- The records of a patch applied to a base package; none where they do not run to the package's end or leave the base (R429). -/
def applyPatch : Nat → Bytes → Bytes → Option Bytes
  | 0, _, _ => none
  | fuel + 1, body, base =>
    if body.isEmpty then some base
    else
      let (at_, n, op) := (field 0 4 body, field 4 4 body, field 8 1 body)
      let size := 12 + roundUp (if op = 2 then 1 else n) 4
      if body.length < size ∨ 2 < op ∨ base.length < at_ + n then none
      else
        let data := if op = 2 then List.replicate n (body.getD 12 0) else slice 12 n body
        let new := if op = 1 then xorBytes data (slice at_ n base) else data
        applyPatch fuel (body.drop size) (putAt at_ new base)

/-- Patches applied in sequence order from number j: a cause of R434 (0 none), the version, the image (R429, R432). -/
def applyChain : Nat → List Bytes → Nat → Bytes → Nat × Nat × Bytes
  | _, [], version, image => (0, version, image)
  | j, p :: ps, version, image =>
    if field 6 1 p ≠ 1 ∨ field 7 1 p ≠ j ∨ field 12 4 p ≠ version then (5, version, image)
    else
      match applyPatch p.length (p.drop 4096) image with
      | none => (5, version, image)
      | some out => if field 40 4 p = crc32c out then applyChain (j + 1) ps (field 8 4 p) out else (3, version, image)

/-- What the parts of a chain make: a cause (0 none), the version, the base package (R430, R432). -/
def checkChain (s : State) (parts : List (Option Bytes)) : Nat × Nat × Bytes :=
  let found := parts.filterMap id
  match found with
  | base :: patches =>
    if found.length < parts.length || field 6 1 base ≠ 0 || field 7 1 base ≠ 0 || !segmentsOk base then (3, 0, base)
    else if found.any fun b => bindFault s b ≠ 0 then (4, 0, base)
    else
      let (cause, version, _) := applyChain 1 patches (field 8 4 base) base
      (cause, version, base)
  | [] => (3, 0, [])

/-- A bank's chain as flash holds it: the base and `n` patches. -/
def chainParts (s : State) (area n : Nat) : List (Option Bytes) := (List.range (n + 1)).map fun j => readPack s area j

/-! ### Banks and the journal (R427, R440) -/

/-- The confirmed bank. -/
def confirmedBank (s : State) : Nat := (positionIn (s.fw.banks.map fun b => b2n (decide (b.state = .confirmed))) 1) % 2
/-- The standby bank. -/
def standbyIndex (s : State) : Nat := 1 - confirmedBank s
/-- A bank's record. -/
def bankAt (s : State) (i : Nat) : Bank := s.fw.banks.getD i {}
/-- Set a bank's record. -/
def setBank (i : Nat) (b : Bank) (s : State) : State := { s with fw.banks := s.fw.banks.set i b }
/-- Whether a bank is in the trial state. -/
def inTrial (s : State) : Bool := s.fw.banks.any fun b => decide (b.state = .trial)

/-- A journal record of the start count, the cause, the banks and the settings copies, behind a barrier; the scratch mirrors it (R427, R435). -/
def writeJournal (s : State) : State :=
  let n := s.fw.journalSeq + 1
  let trial := if (bankAt s 0).state = .trial then 0 else if (bankAt s 1).state = .trial then 1 else 3
  issueBarrier .other { s with
    fw := { s.fw with
      journalSeq := n, journalSlot := (s.fw.journalSlot + 1) % 4096, journalCount := s.scratch.count, journalCause := s.scratch.cause,
      journalOpen := false },
    scratch := { s.scratch with valid := true, journalSeq := n, confirmed := confirmedBank s, trial := trial } }

/-! ### Settings (R438, R439) -/

/-- Partition offset of a settings copy. -/
def settingsAddr (copy : Nat) : Nat := 2 ^ 25 + copy * 65536

/-- Trims and private area of a settings copy, as an image version reads them; none means defaults (R438). -/
def readSettings (s : State) (version copy : Nat) : Option (List Nat × Bytes) :=
  let a := settingsAddr copy
  let h := flashRead s a 64
  let n := field 10 4 h
  if !(field 0 4 h = 0x54544553 ∧ 68 ≤ n ∧ n ≤ 65536 ∧ unitsGood s a n) then none
  else
    let b := flashRead s a n
    if field (n - 4) 4 b = crc32c (b.take (n - 4)) && Config.readsSettings version (field 4 2 b) then
      some ((List.range 24).map (fun i => field (16 + 2 * i) 2 b), slice 64 (n - 68) b)
    else none

/-- The trims in force: never above 0x1000 (R438). -/
def trimsOf (x : Option (List Nat × Bytes)) : List Nat := (List.range 24).map fun i => match x with
  | some (ts, _) => min (ts.getD i 0x1000) 0x1000
  | none => 0x1000

/-- A settings copy written by an image version (R438). -/
def writeSettings (version copy : Nat) (trims : List Nat) (priv : Bytes) (s : State) : State :=
  let body := le 4 0x54544553 ++ le 2 (Config.settingsFormat version).toNat ++ le 4 version ++ le 4 (68 + priv.length) ++ zeros 2 ++
    trims.flatMap (le 2) ++ priv
  flashWrite (settingsAddr copy) (body ++ le 4 (crc32c body)) s

/-- A settings copy zeroed. -/
def zeroSettings (copy : Nat) (s : State) : State := flashWrite (settingsAddr copy) (zeros 65536) s

/-- Whether OSE_FW_POLICY asks for RESET_DEFAULTS; taken at an activation (R397, R404, R439). -/
def resetDefaults (s : State) : Bool := bit 0 (regNat s Reg.fwPolicy)

/-! ### The start sequence (R431 to R435) -/

/-- A failed start: its cause recorded, then a retry or dry mode (R434, R436, R437). -/
def failStart (st : StartIn) (k cause : Nat) (s : State) : State :=
  let again := s.scratch.count < 3 ∧ !s.scratch.dry
  let s := { s with
    scratch := { s.scratch with cause := cause, stage := k, unended := false, dry := !again },
    ready := false,
    ctl := (s.ctl.map fun c => { cause := c.cause }).set 0 { state := 2, image := Config.romVersion, cause := (ctlOf s 0).cause } }
  let s := if st.journalOk then writeJournal s else s
  if again then { s with fw.retryAt := some (s.ht + 100000000), dry := false, culvert.heartbeats := false }
  else
    event 0x03 Code.dryMode 0 (le 1 s.scratch.count ++ le 1 cause)
      { s with fw.retryAt := none, dry := true, culvert.heartbeats := true, dryEventAt := s.ht }

/-- Stage 1: the start state taken, an unended start recorded, the count raised (R434, R435). -/
def stage1 (st : StartIn) (s : State) : Nat × State :=
  let fromScratch := s.scratch.valid && s.scratch.journalSeq == s.fw.journalSeq
  let s :=
    if fromScratch then s
    else if s.fw.journalSeq ≠ 0 then
      { s with scratch := {
          valid := true, count := s.fw.journalCount, cause := s.fw.journalCause, dry := s.scratch.valid && s.scratch.dry, unended := s.fw.journalOpen } }
    else { s with scratch := { valid := true }, fw.banks := [{ state := .confirmed }, {}] }
  let cause := if s.scratch.unended then 0x0B else s.scratch.cause
  let s := { s with
    scratch := { s.scratch with count := min 15 (s.scratch.count + 1), cause := cause, stage := 1, startSeq := s.scratch.startSeq + 1, unended := true } }
  if st.journalOk then (0, let s := writeJournal s; { s with fw.journalOpen := true }) else (2, s)

/-- Stage 2: the identity record (R69). -/
def stage2 (st : StartIn) (s : State) : Nat × State :=
  if field 0 2 st.identity ≠ 1 then (1, s)
  else
    let (hw, serial) := (field 4 4 st.identity, field 8 8 st.identity)
    (0, widePut Reg.serialLo serial (regPut Reg.hwType hw { s with fw.hwType := hw, fw.serial := serial }))

/-- Stage 3: the flash partition and its header (R61, R426). -/
def stage3 (st : StartIn) (s : State) : Nat × State :=
  if st.flashLen = 0 then (2, s)
  else
    let s := { s with fw.flashBase := st.flashBase, fw.flashLen := st.flashLen }
    let h := flashRead s 0 4096
    let good := field 0 4 h = 0x54524150 ∧ field 4 2 h = 2 ∧ field 4092 4 h = crc32c (h.take 4092)
    if good then (0, regPut Reg.snapCfg (field 6 1 h % 16) (regPut Reg.snapCfgF (field 6 1 h % 16) s))
    else
      let s := regPut Reg.snapCfg 2 (regPut Reg.snapCfgF 2 s)
      (0, issueBarrier .other (zeroManifests (flashWrite 0 (partitionHeader 2) s)))

/-- The result of the self-test once stage 7 has run (R269, R270). -/
def selftestWord (st : StartIn) : Nat :=
  1 + 2 * b2n st.testPage + 4 * b2n st.testBasin + 8 * b2n st.testResidue + 16 * b2n (decide (st.testNs ≤ 50000000)) +
    256 * (if st.testPage then 0x1F else st.firstBad % 32)

/-- Banks that stage 5 tries, in order, with their patches (R432). -/
def banksToTry (s : State) : List (Nat × Nat) :=
  let c := confirmedBank s
  let other := bankAt s (1 - c)
  [(c, (bankAt s c).patches)] ++ (if other.state = .staged ∨ other.state = .previous then [(1 - c, other.patches)] else []) ++ [(2, 0)]

/-- The first bank that loads: its number, patches, version and base; else the cause met in the last one (R432). -/
def chooseBank (s : State) : List (Nat × Nat) → Nat → Nat × Option (Nat × Nat × Nat × Bytes)
  | [], cause => (cause, none)
  | (b, n) :: rest, _ =>
    let (cause, version, base) := checkChain s (chainParts s b n)
    if cause = 0 then (0, some (b, n, version, base)) else chooseBank s rest cause

/-- Stage 5: a trial ends as rejected, a bank loads, the main image is entered (R424, R432, R433, R439). -/
def stage5 (s : State) : Nat × State :=
  let t := if (bankAt s 0).state = .trial then some 0 else if (bankAt s 1).state = .trial then some 1 else none
  let s := match t with
    | some i =>
      let s := setBank i { bankAt s i with state := .rejected } s
      if s.fw.defaults then s else zeroSettings (s.fw.settings.getD i 0) s
    | none => s
  match chooseBank s (banksToTry s) 3 with
  | (cause, none) => (cause, s)
  | (_, some (b, n, version, base)) =>
    (0, { s with
      fw := { s.fw with
        running := some b, runVersion := version, codeBank := 0, unconfirmed := false, serialBound := bit 0 (field 20 1 base), patches := n,
        fallback := decide (b ≠ confirmedBank s) },
      ctl := s.ctl.set 0 { state := 2, image := BitVec.ofNat 32 version } })

/-- Stage 6: the auxiliary controllers (R431). -/
def stage6 (st : StartIn) (s : State) : Nat × State :=
  if st.auxOk then (0, { s with ctl := Vector.replicate 4 { state := 2, image := BitVec.ofNat 32 s.fw.runVersion } }) else (6, s)

/-- Whether the recovered region windows keep R4 and R16. -/
def windowsOk (s : State) : Bool :=
  let rs := s.regions.toList
  (rs.all fun r => decide (r.1 % 65536 = 0 ∧ r.2 % 65536 = 0 ∧ r.1 + r.2 ≤ 1536 * gib)) &&
    ((rs.zip regionLimits).all fun x => decide (x.1.2 ≤ x.2 * gib)) && decide (sumOf (rs.map fun x => x.2) ≤ 1280 * gib) && disjointAll rs

/-- The pond found again by its record (R298, R419). -/
def findPond (s : State) : State :=
  match s.pond.recAt with
  | none => setPondState 0 0xFFFFFFFF s
  | some a =>
    let st := field 0 4 (peekSpan s 3 a 4)
    if st = 2 then setPondState 2 (field 4 4 (peekSpan s 3 a 8)) s
    else if st = 1 then setPondState 1 0xFFFFFFFF s
    else setPondState 0 0xFFFFFFFF { s with pond.recAt := none }

/-- Stage 8: regions, settings, snapshot slots (R419, R431, R438). -/
def stage8 (s : State) : Nat × State :=
  if !windowsOk s then (8, s)
  else
    let read := match s.fw.running with
      | some b => if b = 2 then none else readSettings s s.fw.runVersion (s.fw.settings.getD b 0)
      | none => none
    (0, refreshSlots (findPond { s with fw.trims := trimsOf read }))

/-- Stage 9: the engine is ready (R431). -/
def stage9 (s : State) : State :=
  let s := writeJournal { s with scratch := { s.scratch with count := 0, stage := 9, unended := false, dry := false, cleanAt := s.ht } }
  event 0x02 0 0
    (le 1 9 ++ le 1 0 ++ le 1 (s.fw.running.getD 0) ++ le 1 (b2n s.fw.fallback) ++ le 4 s.fw.runVersion ++ le 4 (regNat s Reg.selftest))
    { s with ready := true, dry := false, culvert.heartbeats := true }

/-- The work of a start's stages 1 to 8. -/
def stageWork (st : StartIn) (k : Nat) (s : State) : Nat × State :=
  if k = 1 then stage1 st s else if k = 2 then stage2 st s else if k = 3 then stage3 st s
  else if k = 4 then (if st.testSram then (0, regPut Reg.selftest 1 s) else (7, s))
  else if k = 5 then stage5 s else if k = 6 then stage6 st s
  else if k = 7 then
    let s := regPut Reg.selftest (selftestWord st) s
    if st.testPage && st.testBasin && st.testResidue && decide (st.testNs ≤ 50000000) then (0, s) else (7, s)
  else stage8 s

/-- A trap or a watchdog expiry at a stage: counted and flagged as any, it fails the start (R400, R404, R431). -/
def startTrap (st : StartIn) (k : Nat) (s : State) : State :=
  let c := st.trapBy
  let s := flagEvent 8 (regPut (ctlReg c Reg.ctlTrapAt) st.trapAt (count (ctlReg c Reg.ctlTraps) 1 s))
  failStart st k 0x0A (setCtl c { ctlOf s c with state := 3, cause := st.trapCause } s)

/-- The stages from k on: each recorded, failed by a trap, or cut off (R431, R434). -/
def runStages (st : StartIn) : Nat → Nat → State → State
  | 0, _, s => if 1000000000 < st.totalNs then failStart st 9 9 s else if st.trapStage = some 9 then startTrap st 9 s else stage9 s
  | left + 1, k, s =>
    let s := { s with scratch.stage := k }
    if st.cutStage = some k then s
    else if st.trapStage = some k then startTrap st k s
    else
      match stageWork st k s with
      | (0, s) => runStages st left (k + 1) s
      | (cause, s) => failStart st k cause s

/-- A start (R431). After a loss of module power the scratch holds nothing (R70). -/
def runStart (st : StartIn) (s : State) : State :=
  let s := count Reg.starts 1 { s with
    fw := { s.fw with
      retryAt := none, running := none, runVersion := 0, activation := none, unconfirmed := false, fallback := false, serialBound := false,
      patches := 0 },
    scratch := if st.powerLost then {} else s.scratch, badUnits := unionIdx s.badUnits st.badFlash, ctl := Vector.replicate 4 {},
    ready := false, dry := false, ht := s.ht + st.totalNs }
  runStages st 8 1 (regPut Reg.selftest 0 (widePut Reg.serialLo 0 (regPut Reg.hwType 0 s)))

/-! ### FW_STAGE (R441) -/

/-- FW_STAGE: a package written to the staging area (R374, R441). -/
def execFwStageDesc (e : Env) (q : Fin 16) (j : Nat) (s : State) : Answer :=
  .next (withDesc q j Op.fwStage (fun d s =>
    let (a, n, part, seq) := (d.f 8 8, d.f 16 4, d.f 20 1, d.f 24 4)
    let done := fun (r : Result) (s : State) => complete q d r { s with fw.lastStatus := r.status }
    if a % 64 ≠ 0 ∨ n % 4096 ≠ 0 ∨ n = 0 ∨ 2 ^ 26 < n ∨ 1 < part ∨ (part = 0 ∧ seq ≠ 0) ∨ (part = 1 ∧ ¬ (1 ≤ seq ∧ seq ≤ 8)) then
      done (refusedWith 0xE3) s
    else if s.fw.activation.isSome then done (refusedWith 0xE4) s
    else
      let b := hostRead s a n
      if !packOk b || field 6 1 b ≠ part || field 7 1 b ≠ seq || (part = 0 && !segmentsOk b) then done (refusedWith 0xE3) s
      else if bindFault s b ≠ 0 then done { status := Code.imageBinding, detail := bindFault s b } s
      else
        let parts := if seq = 0 then [0] else unionIdx s.fw.parts [seq]
        done { detail := parts.length, word := n } (flashWrite (partAddr 3 seq) b { s with fw.parts := parts })) (applyEnv e s))

/-! ### FIRMWARE_STAGE (R442) -/

/-- A patch numbered anew, its header CRC with it (R442). -/
def renumber (j : Nat) (b : Bytes) : Bytes :=
  let h := putAt 7 (le 1 j) (b.take 4092)
  putAt 0 (h ++ le 4 (crc32c h)) b

/-- The parts that an action builds the standby bank from, and those that its digest covers (R442); none where a part is lacking. -/
def stageParts (s : State) (action p : Nat) : Option (List (Option Bytes) × List (Option Bytes)) :=
  let held := (upFrom 1 p).all s.fw.parts.contains
  let staged := (upFrom 1 p).map fun j => readPack s 3 j
  if action = 0 then
    (if held ∧ s.fw.parts.contains 0 ∧ p ≤ 8 then let all := readPack s 3 0 :: staged; some (all, all) else none)
  else if action = 1 then
    let c := confirmedBank s
    let n := (bankAt s c).patches
    if held ∧ n + p ≤ 8 then
      some (chainParts s c n ++ (indexed 1 staged).map (fun x => x.2.map (renumber (n + x.1))), staged)
    else none
  else if action = 2 then let all := [readPack s 2 0]; some (all, all)
  else none

/-- The check that a FIRMWARE_STAGE fails: 0 none, 1 digest, 2 binding, 3 readability and checksums, 4 chain, 5 version, 6 parts; with the
parts of the bank. -/
def stageCheck (s : State) (action p v : Nat) (digest : Bytes) : Nat × List Bytes :=
  match stageParts s action p with
  | none => (6, [])
  | some (parts, covered) =>
    let (cause, version, _) := checkChain s parts
    if sha256 ((covered.filterMap id).flatMap id) ≠ digest then (1, [])
    else if cause = 4 then (2, []) else if cause = 3 then (3, []) else if cause ≠ 0 then (4, [])
    else if version ≠ v then (5, []) else (0, parts.filterMap id)

/-- FIRMWARE_STAGE (R442). -/
def stageFirmware (cause action p v : Nat) (digest : Bytes) (s : State) : State :=
  let refuse := fun (n : Nat) =>
    fwEvent (if n = 2 then Code.imageBinding else Code.refusedPlan) action v (Config.failingCheck n).toNat cause s
  if inTrial s || s.fw.activation.isSome then refuse 7
  else
    match stageCheck s action p v digest with
    | (0, parts) =>
      let i := standbyIndex s
      let s := (indexed 0 parts).foldl (fun s x => flashWrite (partAddr i x.1) x.2 s) s
      fwEvent 0 action v 0 cause (writeJournal (setBank i { state := .staged, patches := parts.length - 1, version := v } s))
    | (n, _) => refuse n

/-! ### Activation (R443 to R446) -/

/-- FIRMWARE_ACTIVATE (R443). -/
def activateFirmware (cause version deadline : Nat) (s : State) : State :=
  let b := bankAt s (standbyIndex s)
  if (b.state = .staged ∨ b.state = .previous) ∧ b.version = version ∧ !inTrial s ∧ s.fw.activation.isNone ∧ s.ready ∧ !s.dry then
    { s with fw.activation := some (version, deadline) }
  else ignored 0x0B 9 0 0 cause s

/-- Whether a dual-path retry is pending or running (R443). -/
def retryWork (s : State) : Bool :=
  (s.red.results.any fun r => !r.scale && !r.retrySettled && r.record.any fun x => x.verdict = 1) || s.red.reaches.any fun r => r.retry && !r.closed

/-- Whether this is a handover point (R443). -/
def handoverPoint (s : State) : Bool :=
  ((runningTurns s).any fun r => r.kind = Kind.gap && decide (200000 ≤ r.duration) && decide (s.ht + 200000 ≤ r.endAt) && !retryWork s) ||
    (!planActive s && !s.refill.frozen && !s.restore.running && !restoreRuns s && s.refill.state = 0)

/-- Settings at an activation (R439). -/
def settingsAt (new version : Nat) (s : State) : State :=
  let old := s.fw.settings.getD (1 - new) 0
  let s := { s with fw.settings := s.fw.settings.set new (1 - old), fw.defaults := resetDefaults s }
  if resetDefaults s then writeSettings version (1 - old) (trimsOf none) [] { zeroSettings 1 (zeroSettings 0 s) with fw.trims := trimsOf none }
  else
    let read := readSettings s version old
    let priv := (read.map fun x => Config.settingsPrivate version x.2).getD []
    writeSettings version (1 - old) (trimsOf read) priv { s with fw.trims := trimsOf read }

/-- HANDOVER: the new image runs on trial, or the old one goes on (R444, R445). -/
def execHandover (e : Env) (ready : Bool) (s : State) : Answer :=
  let s := applyEnv e s
  match s.fw.activation with
  | none => .next s
  | some (v, deadline) =>
    if !controllersRun s || decide (deadline < s.ht) || !handoverPoint s then .next s
    else
      let i := standbyIndex s
      let s := { s with fw.activation := none }
      if ready then
        let b := bankAt s i
        let s := settingsAt i v (setBank i { b with state := .trial } s)
        let base := flashRead s (partAddr i 0) 4096
        let s := writeJournal { s with
          fw := { s.fw with
            running := some i, runVersion := v, codeBank := 1, unconfirmed := true, patches := b.patches, serialBound := bit 0 (field 20 1 base),
            lastStatus := 0 },
          ctl := s.ctl.map fun c => { c with state := 2, image := BitVec.ofNat 32 v } }
        .next (fwEvent 0 3 v 0 0 s)
      else
        let s := writeJournal (setBank i { bankAt s i with state := .rejected } s)
        .next (fwEvent Code.internal 3 v 0 0 (flagEvent 7 { s with fw.lastStatus := Code.internal }))

/-- ACTIVATION_LAPSE (R443). -/
def execActivationLapse (e : Env) (s : State) : Answer :=
  let s := applyEnv e s
  match s.fw.activation with
  | none => .next s
  | some (_, deadline) => .next (if decide (deadline < s.ht) && controllersRun s then lapseActivation s else s)

/-- FIRMWARE_CONFIRM (R446). -/
def confirmFirmware (cause version : Nat) (s : State) : State :=
  let i := standbyIndex s
  let b := bankAt s i
  if b.state = .trial ∧ b.version = version then
    let c := confirmedBank s
    let s := if s.fw.defaults then s else zeroSettings (s.fw.settings.getD c 0) s
    let s := setBank i { b with state := .confirmed } (setBank c { bankAt s c with state := .previous } s)
    fwEvent 0 4 version 0 cause (writeJournal { s with fw.unconfirmed := false })
  else ignored 0x0C 9 0 0 cause s

end Sys2Proof.Machine
end

