-- ==== Sys2Proof/Machine/Culvert.lean ====
section
/-! DEFINITION. The culvert: manager frames received, held, checked and acted on; events and heartbeats sent (R71, R209 to R212, R234, R340,
R345, R410, R436, R437, R447 to R452). -/

namespace Sys2Proof.Machine

open Sys2Proof

/-! ### What each message does -/

/-- The STATUS event (R451). -/
def reportStatus (cause : Nat) (s : State) : State :=
  event 0x01 0 cause
    (le 1 (statusWord s) ++ le 2 (tagOf s) ++ le 4 (stepNum s) ++ le 4 (committedWord s) ++ le 4 s.job.epoch ++ le 4 s.fw.runVersion ++
      le 4 (fwStandbyWord s) ++ le 4 (fwStateWord s) ++ le 4 (startCountWord s) ++ le 4 (regNat s Reg.events)) s

/-- BASIN_MAP: the configuration staged; none where the message is ignored (R218, R390, R392, R448). -/
def takeMap (tag extent coord tree geom axis planId : Nat) (s : State) : Option State :=
  let (a, b, c) := (axis % 4, axis / 4 % 4, axis / 16 % 4)
  if c ≠ 2 ∨ ¬ ((a = 0 ∧ b = 1) ∨ (a = 1 ∧ b = 0)) ∨ s.pendingCommit then none
  else
    let put := fun (off v : Nat) (s : State) => stage off (BitVec.ofNat 32 v) true s
    let s := if tag = 0 then s else put Reg.jobTag tag s
    let s := put Reg.jobExtent (extent % 2 ^ 17) s
    let s := put Reg.jobCoord (coord % 2 ^ 14) s
    let s := put Reg.agreeTree (tree % 65536) s
    let s := put Reg.basinGeom (geom % 65536) s
    some { s with refill.mapPlanId := planId, job.axisStaged := some (axis % 64) }

/-- Whether a RELEASE_JOB takes effect (R212, R234). A spare was in no phase of the step when the job froze: the condition on phase 1 is not
its. -/
def releaseOk (id kind instant : Nat) (s : State) : Bool :=
  let want := if s.refill.state = 2 ∨ s.refill.state = 3 ∨ s.refill.state = 4 then (s.refill.msg.map RefillMsg.id).getD 0 else 0
  let allIn := match s.plans.active with
    | some p => (stepColls s p).all fun x => holdsResults s p x.2.2
    | none => true
  s.refill.frozen && decide (id = want) && decide (s.ht + 2000000 ≤ instant) &&
    (if kind = 0 then decide (s.refill.phase < 4) else decide (kind = 1) && (s.refill.isSpare || decide (s.refill.phase ≠ 1) || allIn))

/-- A part of a BEGIN_REFILL taken; the whole message judged with its last part (R210, R449). -/
def takePart (part parts id committed commitAt startAt deadline : Nat) (lost : List Coord) (s : State) : State :=
  let refuse := fun (s : State) => ignored 0x05 2 0 0 0 { s with refill.cause := 6, refill.parts := none }
  if id ≠ 0 ∧ id = s.refill.lastId then s
  else if parts = 0 ∨ 5 < parts ∨ parts ≤ part ∨ lost.isEmpty ∨ (if part = 0 then 13 else 16) < lost.length then refuse s
  else
    let old : RefillParts := match s.refill.parts with
      | some p => if p.id = id ∧ p.parts = parts then p else { id := id, parts := parts }
      | none => { id := id, parts := parts }
    let p := { old with
      head := if part = 0 then some (committed, commitAt, startAt, deadline) else old.head,
      got := putKey part lost old.got }
    let whole := (List.range parts).all fun i => p.got.any fun g => g.1 = i
    match (if whole then p.head else none) with
    | none => { s with refill.parts := some p }
    | some (c, at_, st, dl) =>
      let m : RefillMsg := ⟨id, c, at_, st, dl, (List.range parts).flatMap fun i => getKey i [] p.got⟩
      if refillValid m s then acceptRefill m s else refuse s

/-- A message that no check has turned away: whether the engine acted on it, and the state after. `st`: what a start would meet. -/
def actFrame (st : StartIn) (f : FrameHead) (m : CulMsg) (s : State) : Bool × State :=
  let cause := f.seq
  match m with
  | .queryStatus => (true, reportStatus cause s)
  | .basinMap extent coord tree geom axis planId =>
    match takeMap f.tag extent coord tree geom axis planId s with
    | some s => (true, s)
    | none => (false, ignored 0x02 7 0 0 cause s)
  | .freezeJob => (true, reportFrozen cause (if s.refill.frozen then s else freeze s))
  | .releaseJob id kind instant first =>
    if releaseOk id kind instant s then (true, { s with refill.release := some (kind, instant, first) }) else (false, ignored 0x04 3 0 0 cause s)
  | .beginRefill part parts id committed commitAt startAt deadline lost =>
    (true, takePart part parts id committed commitAt startAt deadline lost s)
  | .policy step pol => (true, { s with refill.policy := pol, refill.policyStep := step })
  | .modeChange epoch instant mode flags =>
    let change : PendingMode := { epoch := epoch, instant := instant, mode := mode, flags := flags }
    if f.tag = 0 then (false, ignored 0x07 6 0 0 cause s)
    else
      let s' := takeMode cause change s
      (s'.job.pendingMode != s.job.pendingMode, s')
  | .start chips epoch instant deadline bound treeA treeB =>
    let x : StartFields := ⟨chips, f.tag, here s, epoch, instant, deadline, bound, treeA, treeB⟩
    if rootOk s f.tag x then (true, stageRoot x s) else (false, ignored 0x08 4 0 0 cause s)
  | .startAbort =>
    if s.job.staged.any (fun x => x.fields.tag = f.tag) then
      (let s' := abortStart cause s; (s'.job.staged != s.job.staged, s'))
    else (false, ignored 0x09 5 0 0 cause s)
  | .fwStage action parts version digest => (true, stageFirmware cause action parts version digest s)
  | .fwActivate version deadline =>
    let s' := activateFirmware cause version deadline s
    (s'.fw.activation != s.fw.activation, s')
  | .fwConfirm version => (inTrial s && !inTrial (confirmFirmware cause version s), confirmFirmware cause version s)
  | .clearDry serial =>
    if s.dry ∧ serial = s.fw.serial % 2 ^ 32 then
      (true, runStart st (writeJournal { s with
        scratch := { s.scratch with count := 0, dry := false, cause := 0 }, culvert := { s.culvert with acted := [], heldFrames := [] } }))
    else (false, ignored 0x0D 13 0 0 cause s)

/-! ### Receiving (R71, R209, R436, R447, R450) -/

/-- Messages whose tag R209 checks; START's is checked under R336 (R447). -/
def tagChecked : CulMsg → Bool
  | .freezeJob | .releaseJob .. | .policy .. | .modeChange .. | .startAbort => true
  | _ => false

/-- Messages whose repeats their own rules answer (R449, R450). -/
def ownRepeat : CulMsg → Bool
  | .queryStatus | .freezeJob | .start .. | .modeChange .. | .beginRefill .. => true
  | _ => false

/-- Messages that the dry monitor accepts (R436). -/
def dryAccepts : CulMsg → Bool
  | .queryStatus | .clearDry _ => true
  | .fwStage action .. => action = 0 || action = 2
  | _ => false

/-- A frame that has reached the engine: counted, checked, acted on or answered (R209, R404, R436, R447, R450). -/
def handleFrame (st : StartIn) (f : FrameHead) (m : CulMsg) (s : State) : State :=
  let t := culType m
  if f.format ≠ 2 then ignored t 12 f.format 0 f.seq (count Reg.culUnknown 1 s)
  else
    let s := count Reg.culRx 1 { s with culvert.rxLast := t }
    if s.dry && !dryAccepts m then ignored t 8 0 Code.dryMode f.seq s
    else if tagChecked m && decide (f.tag ≠ 0 ∧ f.tag ≠ tagOf s) then ignored t 1 0 0 f.seq s
    else if !ownRepeat m && decide ((s.culvert.acted.find? fun a => a.1 = t) = some (t, f.tag, m)) then ignored t 11 0 0 f.seq s
    else
      let (acted, s) := actFrame st f m s
      if acted && s.ready || acted && s.dry then { s with culvert.acted := putKey t (f.tag, m) s.culvert.acted } else s

/-- A frame as it arrives wakes the engine: any but QUERY_STATUS from E1 or an entry into it, any at all from E2 or an entry into E2 or E3
(R408). -/
def wakeFrame (query : Bool) (s : State) : State :=
  if query ∧ s.power.state ≠ 2 ∧ !(s.power.moving.any fun dst => 2 ≤ dst) then s else wake s

/-- A frame as it arrives: discarded in E3 and during a start, held in E2 and while a controller restarts, up to 16 (R408, R410, R418, R421). -/
def acceptFrame (st : StartIn) (f : FrameHead) (m : CulMsg) (s : State) : State :=
  if s.power.state = 3 || !(s.ready || s.dry) then s
  else
    let s := wakeFrame (decide (m = .queryStatus)) s
    if s.power.state = 2 ∨ !s.restarting.isEmpty then
      (if s.culvert.heldFrames.length < 16 then { s with culvert.heldFrames := s.culvert.heldFrames ++ [(f, m)] } else s)
    else handleFrame st f m s

/-- The frames held, handled in order (R410, R418). -/
def handleHeld (st : StartIn) (s : State) : State :=
  s.culvert.heldFrames.foldl (fun s x => handleFrame st x.1 x.2 s) { s with culvert.heldFrames := [] }

/-- A start that no frame can ask for: only CLEAR_DRY, in dry mode, runs one. -/
def noStart : StartIn := { identity := [], flashBase := 0, flashLen := 0 }

/-- A manager frame that runs no start. -/
def frameRow (e : Env) (f : FrameHead) (m : CulMsg) (s : State) : Answer := .next (acceptFrame noStart f m (applyEnv e s))

/-- QUERY_STATUS (R447, R451). -/
def execQueryStatus (e : Env) (f : FrameHead) (s : State) : Answer := frameRow e f .queryStatus s
/-- BASIN_MAP (R448). -/
def execBasinMap (e : Env) (f : FrameHead) (extent coord tree geom axis planId : Nat) (s : State) : Answer :=
  frameRow e f (.basinMap extent coord tree geom axis planId) s
/-- FREEZE_JOB (R214, R215). -/
def execFreezeJob (e : Env) (f : FrameHead) (s : State) : Answer := frameRow e f .freezeJob s
/-- RELEASE_JOB (R212, R234). -/
def execReleaseJob (e : Env) (f : FrameHead) (refillId kind instant firstTurn : Nat) (s : State) : Answer :=
  frameRow e f (.releaseJob refillId kind instant firstTurn) s
/-- BEGIN_REFILL: one part (R210, R449). -/
def execBeginRefill (e : Env) (part parts refillId committed commitAt startAt deadline : Nat) (lost : List Coord) (s : State) : Answer :=
  frameRow e { seq := 0, tag := 0 } (.beginRefill part parts refillId committed commitAt startAt deadline lost) s
/-- POLICY (R209, R234). -/
def execPolicy (e : Env) (f : FrameHead) (step pol : Nat) (s : State) : Answer := frameRow e f (.policy step pol) s
/-- MODE_CHANGE (R345). -/
def execModeChange (e : Env) (f : FrameHead) (epoch instant mode flags : Nat) (s : State) : Answer :=
  frameRow e f (.modeChange epoch instant mode flags) s
/-- START (R336). -/
def execStart (e : Env) (f : FrameHead) (jobChips epoch instant deadline routeBound treeA treeB : Nat) (s : State) : Answer :=
  frameRow e f (.start jobChips epoch instant deadline routeBound treeA treeB) s
/-- START_ABORT (R340). -/
def execStartAbort (e : Env) (f : FrameHead) (s : State) : Answer := frameRow e f .startAbort s
/-- FIRMWARE_STAGE (R442). -/
def execFirmwareStage (e : Env) (f : FrameHead) (action parts version : Nat) (digest : Bytes) (s : State) : Answer :=
  frameRow e f (.fwStage action parts version digest) s
/-- FIRMWARE_ACTIVATE (R443). -/
def execFirmwareActivate (e : Env) (f : FrameHead) (version deadline : Nat) (s : State) : Answer := frameRow e f (.fwActivate version deadline) s
/-- FIRMWARE_CONFIRM (R446). -/
def execFirmwareConfirm (e : Env) (f : FrameHead) (version : Nat) (s : State) : Answer := frameRow e f (.fwConfirm version) s
/-- CLEAR_DRY (R437). -/
def execClearDry (e : Env) (f : FrameHead) (serial : Nat) (st : StartIn) (s : State) : Answer :=
  .next (acceptFrame st f (.clearDry serial) (applyEnv e s))

/-- CULVERT_BAD_FRAME (R71, R447). -/
def execCulvertBadFrame (e : Env) (bad : BadFrame) (s : State) : Answer :=
  let s := applyEnv e s
  .next (if s.power.state = 3 || !(s.ready || s.dry) then s
  else
    match bad with
    | .crc => count Reg.culBadCrc 1 (wakeFrame false s)
    | .unknownType _ => count Reg.culUnknown 1 (wakeFrame false s)
    | .format t format seq => ignored t 12 format 0 seq (count Reg.culUnknown 1 (wakeFrame (decide (t = 1)) s)))

/-! ### Sending (R404, R451, R452) -/

/-- Whether the engine sends frames: in E0 and E1, out of a start and of a controller restart (R410, R418). -/
def culvertSends (s : State) : Bool := decide (s.power.state < 2) && (s.ready || s.dry) && s.restarting.isEmpty

/-- A frame sent and counted (R404). -/
def issueFrame (type : Nat) (f : Frame) (s : State) : State :=
  count Reg.culTx 1 { s with culvert := { s.culvert with sent := s.culvert.sent ++ [f], txLast := type } }

/-- The oldest queued event sent, where the rate allows it (R451). -/
def sendEvent (s : State) : State :=
  let recent := s.culvert.sentAt.filter fun t => decide (s.ht < t + 1000000000)
  match s.culvert.queue with
  | [] => s
  | ev :: rest =>
    if 20000 ≤ recent.length then s
    else
      let seq := (s.culvert.evSeq + 1) % 65536
      issueFrame 0x80 (.event seq (min s.culvert.lost 65535) ev)
        { s with culvert := { s.culvert with queue := rest, lost := 0, evSeq := seq, sentAt := s.ht :: recent } }

/-- EVENT (R451). -/
def execEvent (e : Env) (s : State) : Answer :=
  let s := applyEnv e s
  .next (if culvertSends s then sendEvent s else s)

/-- Every queued event sent: before an entry into E2 or E3 completes (R410). -/
def flushEvents : Nat → State → State
  | 0, s => s
  | n + 1, s => flushEvents n (sendEvent s)

/-- HEARTBEAT (R452). -/
def execHeartbeat (e : Env) (s : State) : Answer :=
  let s := applyEnv e s
  .next (if culvertSends s && s.culvert.heartbeats && s.culvert.hbAt.all (fun t => decide (t + 1000000 ≤ s.ht)) then
    let n := u32 (s.culvert.hbSeq + 1)
    let f : Frame := .heartbeat n s.ht (statusWord s) s.scratch.count (stepNum s) (committedWord s) s.culvert.evSeq s.job.epoch s.fw.runVersion (tagOf s)
    issueFrame 0x81 f { s with culvert := { s.culvert with hbSeq := n, hbAt := some s.ht } }
  else s)

/-- DRY_EVENT_REPEAT (R436). -/
def execDryEventRepeat (e : Env) (s : State) : Answer :=
  let s := applyEnv e s
  .next (if s.dry && decide (s.dryEventAt + 10000000000 ≤ s.ht) && decide (s.power.state < 2) then
    event 0x03 Code.dryMode 0 (le 1 s.scratch.count ++ le 1 s.scratch.cause) { s with dryEventAt := s.ht }
  else s)

end Sys2Proof.Machine
end

