-- ==== Sys2Proof/Machine/Power.lean ====
section
/-! DEFINITION. Power states, resets, controller restarts, starts (R405 to R422, R434). -/

namespace Sys2Proof.Machine

open Sys2Proof

/-! ### What a start finds (R417, R419, R421) -/

/-- The engine as a start finds it: registers whose Survives entry has the code, memories, flash, the scratch, the journal, the regions as the
memory partition's windows hold them; all else at reset, and every bank-share slot absent. The target of a drain under way is invalid (R288). -/
def survivors (code : Nat) (s₀ : State) : State :=
  let s := voidTarget s₀
  { State.reset with
    pending := s.pending, ht := s.ht, hostTime := s.hostTime, regs := keepSurviving code s.regs, lastRead := s.lastRead, hbm := s.hbm,
    check := s.check, badBeats := s.badBeats, hostMem := s.hostMem, flash := s.flash, badUnits := s.badUnits, regions := s.windows,
    windows := s.windows, basin := { absent := List.range (regionChunks { s with regions := s.windows } 1) }, pond := { recAt := s.pond.recAt, epoch := s.pond.epoch },
    power := { lock := s.power.lock, lockBack := s.power.lockBack, pointClass := s.power.pointClass, supply := s.power.supply },
    fw := { s.fw with lastStatus := 0 }, scratch := s.scratch, culvert := { sent := s.culvert.sent }, sent := s.sent, msix := s.msix, freeCtr := s.freeCtr }

/-- As above under a chip reset: the memory partition's windows are cleared, and no region is declared (R415, R419). -/
def afterChipReset (code : Nat) (s : State) : State :=
  { survivors code s with regions := Vector.replicate 5 (0, 0), windows := Vector.replicate 5 (0, 0), basin := {}, pond := {} }

/-- A tag in force retired at this instant (R417). -/
def retireTag (s : State) : State :=
  if tagOf s = 0 then s else widePut Reg.jobRetiredAtLo s.ht (regPut Reg.jobRetired (tagOf s) s)

/-- ENGINE_RESET: the tag retired, a pending activation ended, then a start (R399, R415 to R417, R443). In E3 the write is ignored. -/
def execEngineReset (e : Env) (st : StartIn) (s : State) : Answer :=
  let s := applyEnv e s
  if s.power.state = 3 then .next s
  else
    let s' := survivors 1 (retireTag s)
    let s' := match s.fw.activation with
      | some (v, _) => fwEvent Code.refusedTurn 3 v 0 0 s'
      | none => s'
    .next (runStart st s')

/-- CHIP_COLD_RESET: memory too is as at power-on (R415, R421). -/
def execChipColdReset (e : Env) (st : StartIn) (s : State) : Answer :=
  let s := applyEnv e s
  .next (runStart st { afterChipReset 64 s with hbm := [], check := [], badBeats := [] })

/-- CHIP_WARM_RESET: HBM keeps its content, the windows are cleared (R415, R422). -/
def execChipWarmReset (e : Env) (st : StartIn) (s : State) : Answer := .next (runStart st (afterChipReset 0 (applyEnv e s)))

/-- START_RETRY (R434). -/
def execStartRetry (e : Env) (st : StartIn) (s : State) : Answer :=
  let s := applyEnv e s
  .next (match s.fw.retryAt with
    | some t => if t ≤ s.ht ∧ !s.ready ∧ !s.dry ∧ s.power.state < 3 then runStart st s else s
    | none => s)

/-! ### Power states (R405 to R414) -/

/-- The POWER event (R410, R451). -/
def powerEvent (state dir : Nat) (s : State) : State := event 0x10 0 0 (le 1 state ++ le 1 dir) s

/-- E0 reached from E1 or E2: out of E2 the replicas hold no reading, and the state left is named (R410, R414). -/
def reachActive (s : State) : State :=
  let from_ := s.power.state
  let s := { s with power.state := 0, power.moving := none }
  if from_ = 2 then powerEvent 2 1 { s with power.replicas := [] } else s

/-- POWER_REQUEST: a write of OSE_PWR_CTRL (R406); in E3 only a write of 0 is accepted (R409). -/
def execPowerRequest (e : Env) (v : Word) (s : State) : Answer :=
  let s := applyEnv e s
  let dst := v.toNat % 4
  if s.power.state = 3 ∧ dst ≠ 0 then .next s
  else .next (actOnRequest (regPut Reg.pwrCtrl dst { s with power.refused := false }))

/-- POWER_TRANSITION_DONE (R407, R408, R410, R413, R415): an entry into E2 or E3 whose conditions no longer hold is abandoned; an exit from E3 is a
start. -/
def execPowerTransitionDone (e : Env) (st : StartIn) (s : State) : Answer :=
  let s := applyEnv e s
  match s.power.moving with
  | none => .next (actOnRequest s)
  | some dst =>
    .next (if dst = 0 then
      (if s.power.state = 3 then
        let s := runStart st (survivors 5 s)
        actOnRequest (if s.ready || s.dry then powerEvent 3 1 s else s)
      else actOnRequest (handleHeld st (reachActive s)))
    else if dst = 1 then actOnRequest { s with power.state := 1, power.moving := none }
    else if !mayMove s.power.state dst s then abandonMove s
    else
      let s := powerEvent dst 0 s
      let s := flushEvents s.culvert.queue.length s
      actOnRequest { s with power.state := dst, power.moving := none, power.replicas := [] })

/-! ### Controllers (R399, R418, R423) -/

/-- CONTROLLER_RESTART: OSE_RESET kind 2 restarts all four; ignored in dry mode and in E3, discarded during a start (R399, R408, R416, R418,
R436). -/
def execControllerRestart (e : Env) (s : State) : Answer :=
  let s := applyEnv e s
  if s.power.state = 3 ∨ s.dry ∨ !s.ready then .next s
  else
    let s := if s.power.state = 0 then s
      else regPut Reg.pwrCtrl 0 (reachActive { s with power.refused := s.power.refused || s.power.moving.any (· ≠ 0) })
    .next { beginRestart allControllers s with restartCause := 0 }

/-- CONTROLLER_RESTART_DONE: the images run again, delayed packets go out, the event is sent, held frames are handled (R418). -/
def execControllerRestartDone (e : Env) (s : State) : Answer :=
  let s := applyEnv e s
  if s.restarting.isEmpty then .next s
  else
    let mask := sumOf (s.restarting.map fun c => 2 ^ c.val)
    let s := s.restarting.foldl (fun s c => setCtl c { ctlOf s c with state := 2, image := BitVec.ofNat 32 s.fw.runVersion } s) s
    let s := event 0x11 0 0 (le 1 mask ++ le 1 s.restartCause) { s with restarting := [], sent := s.sent ++ s.delayed, delayed := [] }
    .next (poke (handleHeld noStart (finishRegions s)))

/-- CONTROLLER_TRAP (R404, R418). -/
def execControllerTrap (e : Env) (c : Fin 4) (cause addr : Nat) (s : State) : Answer :=
  let s := applyEnv e s
  .next (if flumeRuns s then trapController c cause addr s else s)

/-- WATCHDOG_EXPIRY: trap cause 0x04 (R423). -/
def execWatchdogExpiry (e : Env) (c : Fin 4) (addr : Nat) (s : State) : Answer :=
  let s := applyEnv e s
  .next (if flumeRuns s then trapController c 4 addr s else s)

end Sys2Proof.Machine
end

