-- ==== Sys2Proof/Machine/Tick.lean ====
section
/-! DEFINITION. The allotment window: the grant, background work, the ditch rider (R45, R95 to R97, R265, R267, R268, R405). -/

namespace Sys2Proof.Machine

open Sys2Proof

/-! ### The ditch rider (R265, R267, R268) -/

/-- Region classes in the order of a cycle: bank shares, plot, undo window, cistern, pond (R267). -/
def scrubOrder : List Nat := [1, 0, 4, 3, 2]

/-- The chunks of the regions that OSE_PG_CTRL enables, in the order of a cycle, as (region, chunk, address). -/
def scrubChunks (s : State) : List (Nat × Nat × Nat) :=
  (scrubOrder.filter fun r => bit r (regNat s Reg.pgCtrl)).flatMap fun r =>
    (List.range (regionChunks s r)).map fun c => (r, c, regionBase s r + c * 65536)

/-- The cycle length in ns. -/
def cycleNs (s : State) : Nat := regNat s Reg.pgScrubCycle * 1000000000

/-- A cycle begun where one is due, over the regions enabled and declared then; where none is, the next begins with the first that is
(R268, assumption 39). -/
def beginCycle (s : State) : State :=
  let g := s.guard
  let todo := scrubChunks s
  if !g.cycleTodo.isEmpty || g.cycleAt.any (fun t => decide (s.ht < t)) then s
  else if todo.isEmpty then { s with guard.cycleAt := none }
  else { s with guard := { g with cycleAt := some (g.cycleAt.getD s.ht), cycleTodo := todo, cycleTotal := todo.length, cycleDone := 0, overran := false } }

/-- Chunks by which the cycle is behind its target (R267). -/
def scrubBacklog (s : State) : Nat :=
  let g := s.guard
  if g.cycleTodo.isEmpty then 0
  else min g.cycleTotal (ceilDiv (g.cycleTotal * (s.ht - g.cycleAt.getD s.ht)) (max (cycleNs s) 1)) - g.cycleDone

/-- The backlog reported and an overrun counted, at a window tick (R267, R268). -/
def tickCycle (s : State) : State :=
  let s := beginCycle s
  let g := s.guard
  let late := !g.cycleTodo.isEmpty && !g.overran && decide (g.cycleAt.getD s.ht + cycleNs s < s.ht)
  let s := { s with guard := { g with backlog := scrubBacklog s, overran := g.overran || late } }
  if late then count Reg.pgScrubOverruns 1 s else s

/-- One page visited: a listed page's repair is tried again (R265). A page that its region no longer holds is not escalated. -/
def riderPage (r a : Nat) (s : State) : State :=
  let p := readPage r a (finderOf .scrub) s
  if p.1.isSome || regionAt s a != some r then p.2 else escalate r a .scrub p.2

/-- Whether the ditch rider may visit a chunk now: not while a restore suspends plot and bank shares, and no absent slot (R239, R319). -/
def riderMay (s : State) (x : Nat × Nat × Nat) : Bool := !(s.guard.scrubSuspended && x.1 < 2)

/-- One chunk visited: its 16 pages, unless it is an absent slot; the cycle ends with its last (R239, R267, R268). -/
def scrubChunk (x : Nat × Nat × Nat) (s : State) : State :=
  let s := if x.1 = 1 ∧ isAbsent s x.2.1 then s else (List.range 16).foldl (fun s i => riderPage x.1 (x.2.2 + i * 4096) s) s
  let s := { s with guard.cycleTodo := s.guard.cycleTodo.erase x, guard.cycleDone := s.guard.cycleDone + 1 }
  if s.guard.cycleTodo.isEmpty then
    count Reg.pgScrubCycles 1 { s with guard.cycleAt := some (max s.ht (s.guard.cycleAt.getD s.ht + cycleNs s)) }
  else s

/-- `n` chunks scrubbed on channels with room, and what is left of `n` (R45, R267, R268). -/
def scrubRun : Nat → State → Nat × State
  | 0, s => (0, s)
  | n + 1, s =>
    match s.guard.cycleTodo.find? (riderMay s) with
    | none => (n + 1, s)
    | some x => if !channelRoom s x.2.2 then (n + 1, s) else scrubRun n (charge (traffic s) (scrubChunk x s))

/-- Background class 5: what the ditch rider asks for at a window tick (R267). -/
def scrubWork (n : Nat) (s : State) : Nat × State :=
  let want := min s.guard.backlog (regNat s Reg.pgScrubBurst)
  let r := scrubRun (min want n) s
  (n - (min want n - r.1), r.2)

/-! ### Background work (R96, R97) -/

/-- Whether an accepted turn overlaps the window that begins now: its work runs, or its planned end lies ahead; a COMMIT is over with the
commit (R78, R97, assumption 39). -/
def overlapsNow (s : State) (r : TurnRun) : Bool :=
  r.phase = 1 || (r.phase = 2 && r.kind ≠ Kind.commit && decide (s.ht < r.endAt))

/-- Whether this window permits background work: it overlaps no accepted turn other than GAP, and none starts before the end of the next
(R97). -/
def windowPermits (s : State) : Bool :=
  let stopped := s.refill.frozen || s.job.held || s.job.mode = 1
  s.step.turns.all (fun r => r.kind = Kind.gap || !overlapsNow s r) &&
    (stopped || (startsAhead s fun t => decide (t.kind ≠ Kind.gap)).all fun a => decide (s.ht + 200000 ≤ a))

/-- Chunks that the channel caps still allow in this window, over all channels (R45, R97). -/
def capChunks (s : State) : Nat :=
  sumOf ((List.range 24).map fun n => (s.power.caps.getD n 0 * 100000 - s.power.bgUsed.getD n 0) / chunkTraffic)

/-- The work of a background class on at most `n` chunks, each on a channel with room: what it leaves of `n`, and the state. A retry runs from
its GAP's own reservation, in that turn (R98). -/
def classWork (c n : Nat) (s : State) : Nat × State :=
  if c = 0 then rebuildChains n s
  else if c = 1 then repairWork n s
  else if c = 3 then (if s.pond.copy.any fun x => x.turn.isNone then continueCopy n s else (n, s))
  else if c = 4 then drainChunks (n + ((s.pond.drain.map fun d => d.todo.length).getD 0) + 1) n s
  else if c = 5 then scrubWork n s
  else if c = 6 then streamChunks n s
  else (n, s)

/-- Whether a class may run in the engine's state (R214, R405). -/
def classMay (c : Nat) (s : State) : Bool :=
  bit c (regNat s Reg.bgEnable) && (s.power.state = 0 || c = 5) && (!s.refill.frozen || c = 0 || c = 5)

/-- The classes from c on, within a budget in µJ (R97). -/
def shareBudget : List Nat → Nat → State → State
  | [], _, s => s
  | c :: cs, budget, s =>
    if !classMay c s then shareBudget cs budget s
    else
      let cost := max (regNat s (Reg.bgCost0 + 4 * c)) 1
      let n := min (budget * 16 / cost) (capChunks s)
      let r := classWork c n s
      let spent := ceilDiv ((n - r.1) * cost) 16
      shareBudget cs (budget - spent) { r.2 with power.energy := r.2.power.energy + spent }

/-- ALLOTMENT_WINDOW_TICK: the window's grant, the caps and the pins taken; what turns and descriptors leave of the grant apportioned (R45, R95
to R97, R262, R267, R292, R361, R397). -/
def execAllotmentWindowTick (e : Env) (grant turnUse : Nat) (s : State) : Answer :=
  let s := applyEnv e s
  if !flumeRuns s then .next s
  else
    let s := tickCycle (capTick { s with power.grant := grant, pond.pins := regNat s Reg.snapPin })
    .next (if !controllersRun s then s
    else
      let s := startDeferred s
      let s := if windowPermits s then shareBudget (List.range 7) (grant - turnUse) s else s
      poke (drainFlash s))

end Sys2Proof.Machine
end

