-- ==== Sys2Proof/Machine/Dispatch.lean ====
section
/-! DEFINITION. The dispatch of commands: one arm per constructor of Instr, each a direct call of the command's meaning. -/

namespace Sys2Proof.Machine

open Sys2Proof

/-- The effect of a command on everything but the queue of waiting commands. -/
def exec (i : Instr) (s : State) : Host.Outcome State Fault Refusal :=
  match i with
  | .regionSet e q j => Sys2Proof.Machine.execRegionSet e q j s
  | .stateFill e q j => Sys2Proof.Machine.execStateFill e q j s
  | .planLoad e q j => Sys2Proof.Machine.execPlanLoad e q j s
  | .planArm e q j => Sys2Proof.Machine.execPlanArm e q j s
  | .planRetire e q j => Sys2Proof.Machine.execPlanRetire e q j s
  | .snapPond e q j => Sys2Proof.Machine.execSnapPond e q j s
  | .snapDrain e q j => Sys2Proof.Machine.execSnapDrain e q j s
  | .snapExport e q j => Sys2Proof.Machine.execSnapExport e q j s
  | .snapManifest e q j => Sys2Proof.Machine.execSnapManifest e q j s
  | .restoreScan e q j => Sys2Proof.Machine.execRestoreScan e q j s
  | .restoreLoad e q j => Sys2Proof.Machine.execRestoreLoad e q j s
  | .restoreReslice e q j => Sys2Proof.Machine.execRestoreReslice e q j s
  | .scrubRange e q j => Sys2Proof.Machine.execScrubRange e q j s
  | .repairRange e q j => Sys2Proof.Machine.execRepairRange e q j s
  | .healthRead e q j => Sys2Proof.Machine.execHealthRead e q j s
  | .counterRead e q j => Sys2Proof.Machine.execCounterRead e q j s
  | .streamWindow e q j => Sys2Proof.Machine.execStreamWindow e q j s
  | .fwStageDesc e q j => Sys2Proof.Machine.execFwStageDesc e q j s
  | .fence e q j => Sys2Proof.Machine.execFence e q j s
  | .unknownOpcode e q j => Sys2Proof.Machine.execUnknownOpcode e q j s
  | .descriptorStart e q => Sys2Proof.Machine.execDescriptorStart e q s
  | .ringPoll e q => Sys2Proof.Machine.execRingPoll e q s
  | .msixHoldoffExpiry e q => Sys2Proof.Machine.execMsixHoldoffExpiry e q s
  | .hostAccessError e q addr ownRing => Sys2Proof.Machine.execHostAccessError e q addr ownRing s
  | .ringEnable e q reportIrq => Sys2Proof.Machine.execRingEnable e q reportIrq s
  | .ringDisable e q reportIrq => Sys2Proof.Machine.execRingDisable e q reportIrq s
  | .ringDisableDone e q => Sys2Proof.Machine.execRingDisableDone e q s
  | .ringReset e q => Sys2Proof.Machine.execRingReset e q s
  | .ringResetDone e q => Sys2Proof.Machine.execRingResetDone e q s
  | .configCommit e => Sys2Proof.Machine.execConfigCommit e s
  | .configDiscard e => Sys2Proof.Machine.execConfigDiscard e s
  | .configCommitApply e => Sys2Proof.Machine.execConfigCommitApply e s
  | .shadowRegisterWrite e off v => Sys2Proof.Machine.execShadowRegisterWrite e off v s
  | .engineReset e st => Sys2Proof.Machine.execEngineReset e st s
  | .controllerRestart e => Sys2Proof.Machine.execControllerRestart e s
  | .controllerRestartDone e => Sys2Proof.Machine.execControllerRestartDone e s
  | .powerRequest e v => Sys2Proof.Machine.execPowerRequest e v s
  | .powerTransitionDone e st => Sys2Proof.Machine.execPowerTransitionDone e st s
  | .errorInject e n v => Sys2Proof.Machine.execErrorInject e n v s
  | .registerWrite e off v => Sys2Proof.Machine.execRegisterWrite e off v s
  | .badRegisterAccess e off isWrite => Sys2Proof.Machine.execBadRegisterAccess e off isWrite s
  | .wideRegisterCapture e off => Sys2Proof.Machine.execWideRegisterCapture e off s
  | .intakeEntryCapture e w => Sys2Proof.Machine.execIntakeEntryCapture e w s
  | .queryStatus e f => Sys2Proof.Machine.execQueryStatus e f s
  | .basinMap e f extent coord tree geom axis planId => Sys2Proof.Machine.execBasinMap e f extent coord tree geom axis planId s
  | .freezeJob e f => Sys2Proof.Machine.execFreezeJob e f s
  | .releaseJob e f refillId kind instant firstTurn => Sys2Proof.Machine.execReleaseJob e f refillId kind instant firstTurn s
  | .beginRefill e part parts refillId committed commitAt startAt deadline lost => Sys2Proof.Machine.execBeginRefill e part parts refillId committed commitAt startAt deadline lost s
  | .policy e f step pol => Sys2Proof.Machine.execPolicy e f step pol s
  | .modeChange e f epoch instant mode flags => Sys2Proof.Machine.execModeChange e f epoch instant mode flags s
  | .start e f jobChips epoch instant deadline routeBound treeA treeB => Sys2Proof.Machine.execStart e f jobChips epoch instant deadline routeBound treeA treeB s
  | .startAbort e f => Sys2Proof.Machine.execStartAbort e f s
  | .firmwareStage e f action parts version digest => Sys2Proof.Machine.execFirmwareStage e f action parts version digest s
  | .firmwareActivate e f version deadline => Sys2Proof.Machine.execFirmwareActivate e f version deadline s
  | .firmwareConfirm e f version => Sys2Proof.Machine.execFirmwareConfirm e f version s
  | .clearDry e f serial st => Sys2Proof.Machine.execClearDry e f serial st s
  | .culvertBadFrame e bad => Sys2Proof.Machine.execCulvertBadFrame e bad s
  | .heartbeat e => Sys2Proof.Machine.execHeartbeat e s
  | .event e => Sys2Proof.Machine.execEvent e s
  | .dryEventRepeat e => Sys2Proof.Machine.execDryEventRepeat e s
  | .mirroredInputStore e h bs => Sys2Proof.Machine.execMirroredInputStore e h bs s
  | .malformedPacket e p => Sys2Proof.Machine.execMalformedPacket e p s
  | .accumXor e h bs => Sys2Proof.Machine.execAccumXor e h bs s
  | .chunkMarker e h step role mask chunk position => Sys2Proof.Machine.execChunkMarker e h step role mask chunk position s
  | .progressMarker e h step role position => Sys2Proof.Machine.execProgressMarker e h step role position s
  | .finalMarker e h step role => Sys2Proof.Machine.execFinalMarker e h step role s
  | .invalidateMarker e h step chunk mask position => Sys2Proof.Machine.execInvalidateMarker e h step chunk mask position s
  | .ack e h k => Sys2Proof.Machine.execAck e h k s
  | .ackFlush e dest => Sys2Proof.Machine.execAckFlush e dest s
  | .progressTimer e dest => Sys2Proof.Machine.execProgressTimer e dest s
  | .agreementContribution e h k => Sys2Proof.Machine.execAgreementContribution e h k s
  | .agreeVerdict e h v => Sys2Proof.Machine.execAgreeVerdict e h v s
  | .commitCutoff e => Sys2Proof.Machine.execCommitCutoff e s
  | .commitRootTimeout e => Sys2Proof.Machine.execCommitRootTimeout e s
  | .noVerdict e => Sys2Proof.Machine.execNoVerdict e s
  | .updateWaitTimeout e energy => Sys2Proof.Machine.execUpdateWaitTimeout e energy s
  | .partialFrame e h body => Sys2Proof.Machine.execPartialFrame e h body s
  | .partialRecord e h p bitmap => Sys2Proof.Machine.execPartialRecord e h p bitmap s
  | .path1FinalFrame e h p ls => Sys2Proof.Machine.execPath1FinalFrame e h p ls s
  | .resultFrame e h body => Sys2Proof.Machine.execResultFrame e h body s
  | .resultRecord e h p r => Sys2Proof.Machine.execResultRecord e h p r s
  | .abortRecord e h p => Sys2Proof.Machine.execAbortRecord e h p s
  | .retryFrame e h p ls => Sys2Proof.Machine.execRetryFrame e h p ls s
  | .reduceCutoff e t path1 root => Sys2Proof.Machine.execReduceCutoff e t path1 root s
  | .reduceDeadline e t => Sys2Proof.Machine.execReduceDeadline e t s
  | .dualPathSettle e coll reach => Sys2Proof.Machine.execDualPathSettle e coll reach s
  | .retryDeadline e => Sys2Proof.Machine.execRetryDeadline e s
  | .stepStart e => Sys2Proof.Machine.execStepStart e s
  | .leaseRaise e t => Sys2Proof.Machine.execLeaseRaise e t s
  | .mirrorTurn e t inputs => Sys2Proof.Machine.execMirrorTurn e t inputs s
  | .scaleTurn e t => Sys2Proof.Machine.execScaleTurn e t s
  | .reduceTurn e t => Sys2Proof.Machine.execReduceTurn e t s
  | .gapTurn e t => Sys2Proof.Machine.execGapTurn e t s
  | .checkTurn e t => Sys2Proof.Machine.execCheckTurn e t s
  | .updateTurn e t => Sys2Proof.Machine.execUpdateTurn e t s
  | .deltaTurn e t => Sys2Proof.Machine.execDeltaTurn e t s
  | .commitTurn e t => Sys2Proof.Machine.execCommitTurn e t s
  | .pondTurn e t => Sys2Proof.Machine.execPondTurn e t s
  | .turnWorkComplete e t energy => Sys2Proof.Machine.execTurnWorkComplete e t energy s
  | .allotmentWindowTick e grant turnUse => Sys2Proof.Machine.execAllotmentWindowTick e grant turnUse s
  | .replicaSample e chain reading => Sys2Proof.Machine.execReplicaSample e chain reading s
  | .leaseGrant e => Sys2Proof.Machine.execLeaseGrant e s
  | .breach e => Sys2Proof.Machine.execBreach e s
  | .lockDrop e => Sys2Proof.Machine.execLockDrop e s
  | .lockRegain e => Sys2Proof.Machine.execLockRegain e s
  | .partitionWindowsReport e => Sys2Proof.Machine.execPartitionWindowsReport e s
  | .flashBarrierDone e => Sys2Proof.Machine.execFlashBarrierDone e s
  | .startRecord e h r => Sys2Proof.Machine.execStartRecord e h r s
  | .startAckRecord e h r => Sys2Proof.Machine.execStartAckRecord e h r s
  | .goRecord e h r => Sys2Proof.Machine.execGoRecord e h r s
  | .abortStartRecord e h r => Sys2Proof.Machine.execAbortStartRecord e h r s
  | .startAckCutoff e ackTree => Sys2Proof.Machine.execStartAckCutoff e ackTree s
  | .startDeadline e => Sys2Proof.Machine.execStartDeadline e s
  | .startInstant e => Sys2Proof.Machine.execStartInstant e s
  | .modeChangeInstant e => Sys2Proof.Machine.execModeChangeInstant e s
  | .refillStart e => Sys2Proof.Machine.execRefillStart e s
  | .refillDeadline e => Sys2Proof.Machine.execRefillDeadline e s
  | .refillPlotStore e h bs => Sys2Proof.Machine.execRefillPlotStore e h bs s
  | .refillCisternStore e h bs => Sys2Proof.Machine.execRefillCisternStore e h bs s
  | .chainPages e h bs => Sys2Proof.Machine.execChainPages e h bs s
  | .localRepairRecord e h r => Sys2Proof.Machine.execLocalRepairRecord e h r s
  | .syndromeRecord e h r => Sys2Proof.Machine.execSyndromeRecord e h r s
  | .remainderRecord e h r => Sys2Proof.Machine.execRemainderRecord e h r s
  | .bankRebuildRecord e h r => Sys2Proof.Machine.execBankRebuildRecord e h r s
  | .bankShareStore e h bs => Sys2Proof.Machine.execBankShareStore e h bs s
  | .creditRecord e h r => Sys2Proof.Machine.execCreditRecord e h r s
  | .closureRequest e h r => Sys2Proof.Machine.execClosureRequest e h r s
  | .absentRecord e h r => Sys2Proof.Machine.execAbsentRecord e h r s
  | .chainRequest e h r => Sys2Proof.Machine.execChainRequest e h r s
  | .decodedRecord e h r => Sys2Proof.Machine.execDecodedRecord e h r s
  | .noGradientRecord e h r => Sys2Proof.Machine.execNoGradientRecord e h r s
  | .releaseInstant e => Sys2Proof.Machine.execReleaseInstant e s
  | .repairRequest e h r => Sys2Proof.Machine.execRepairRequest e h r s
  | .repairChainRecord e h r => Sys2Proof.Machine.execRepairChainRecord e h r s
  | .repairDone e h r => Sys2Proof.Machine.execRepairDone e h r s
  | .repairPushRequest e h r => Sys2Proof.Machine.execRepairPushRequest e h r s
  | .repairRefused e h r => Sys2Proof.Machine.execRepairRefused e h r s
  | .repairTimeout e tag => Sys2Proof.Machine.execRepairTimeout e tag s
  | .restoreDataStore e h bs => Sys2Proof.Machine.execRestoreDataStore e h bs s
  | .restoreChoice e h r => Sys2Proof.Machine.execRestoreChoice e h r s
  | .restoreChoiceVerdict e h r => Sys2Proof.Machine.execRestoreChoiceVerdict e h r s
  | .restoreCredit e h r => Sys2Proof.Machine.execRestoreCredit e h r s
  | .restoreWithdraw e h r => Sys2Proof.Machine.execRestoreWithdraw e h r s
  | .restoreRequest e h r => Sys2Proof.Machine.execRestoreRequest e h r s
  | .restoreDone e h r => Sys2Proof.Machine.execRestoreDone e h r s
  | .restoreDoneVerdict e h r => Sys2Proof.Machine.execRestoreDoneVerdict e h r s
  | .restoreChoiceDeadline e => Sys2Proof.Machine.execRestoreChoiceDeadline e s
  | .restoreDoneDeadline e => Sys2Proof.Machine.execRestoreDoneDeadline e s
  | .handover e ready => Sys2Proof.Machine.execHandover e ready s
  | .activationLapse e => Sys2Proof.Machine.execActivationLapse e s
  | .controllerTrap e c cause addr => Sys2Proof.Machine.execControllerTrap e c cause addr s
  | .watchdogExpiry e c addr => Sys2Proof.Machine.execWatchdogExpiry e c addr s
  | .chipColdReset e st => Sys2Proof.Machine.execChipColdReset e st s
  | .chipWarmReset e st => Sys2Proof.Machine.execChipWarmReset e st s
  | .startRetry e st => Sys2Proof.Machine.execStartRetry e st s
  | .turnPlannedEnd e t => Sys2Proof.Machine.execTurnPlannedEnd e t s
  | .restoreCutoff e => Sys2Proof.Machine.execRestoreCutoff e s
  | .flashWriteFailure e => Sys2Proof.Machine.execFlashWriteFailure e s
  | .unmappedWindowPacket e p => Sys2Proof.Machine.execUnmappedWindowPacket e p s
  | .repairPages e h bs => Sys2Proof.Machine.execRepairPages e h bs s

end Sys2Proof.Machine
end

