-- ==== Sys2Proof/Safety.lean ====
section
/-! DEFINITION. What statements call a sound state, and the conditions under which a command has its own effect: a packet that is delivered, a
manager frame that is heard, a descriptor that runs, an engine that nothing holds back. -/

namespace Sys2Proof.Machine

open Sys2Proof

/-! ### Sound states -/

/-- Every byte memory is in its canonical form. -/
def MemoryOk (s : State) : Prop :=
  Memory.wf s.hbm = true ∧ Memory.wf s.check = true ∧ Memory.wf s.hostMem = true ∧ Memory.wf s.flash = true

/-- An outcome is a next state that satisfies `P`. -/
def NextWith (o : Host.Outcome State Fault Refusal) (P : State → Prop) : Prop := ∃ t, o = .next t ∧ P t

/-- The engine in E0 with no transition under way: nothing has to wake it (R405, R408). -/
def awake (s : State) : Bool := decide (s.power.state = 0) && s.power.moving.isNone

/-- Registers outside a list keep their values. -/
def RegsKept (except : List Nat) (s t : State) : Prop := ∀ o, o ∉ except → regGet t o = regGet s o

/-- Only stored registers may differ between two states. -/
def OnlyRegs (s t : State) : Prop := { t with regs := s.regs } = s

/-- Only the rings and stored registers may differ between two states. -/
def OnlyRings (s t : State) : Prop := { t with rings := s.rings, regs := s.regs } = s

/-! ### Packets (R331) -/

/-- A packet that passes the checks of R331 at an engine that nothing has to wake, and that no freeze discards (R214). -/
def delivered (s : State) (h : PktHead) (cls w len : Nat) : Bool :=
  flumeRuns s && awake s && !malformed cls len h.offset && decide (tagOf s ≠ 0 ∧ h.jobId = jobIdOf s ∧ h.gen = genOf s) &&
    (match intakeEntry s w with
      | some en => bit cls en.classes && decide (h.offset + len ≤ en.len) && inSenderRange s en h.sender && (!en.live || s.job.live)
      | none => false) &&
    (!s.job.live || decide (w = 46) || decide (h.epoch = s.job.epoch % 256)) && (!s.refill.frozen || decide (w ≠ 47 ∧ w < 57))

/-! ### Packets of the reduction (R117, R128, R129) -/

/-- What a command answers for a packet that the reduction does not take: nothing once CHECK has started, a count where its sender, its collective
or its reach does not fit, a count and an abort where its digest alone does not. -/
def judgedAway (p : Prefix) (v : Nat) (s : State) (o : Host.Outcome State Fault Refusal) : Prop :=
  (v = 0 → o = .next s) ∧ (v = 1 → o = .next (count Reg.redDigest 1 s)) ∧
    (v = 2 → o = .next (abortUp (keyOf p) (count Reg.redDigest 1 s)))

/-! ### Culvert frames (R209, R447, R450) -/

/-- A manager frame that reaches its message: E0, a start completed, not dry, no controller restart, format 2, the tag as R209 asks, no
repeat of the last frame acted on. -/
def heard (s : State) (f : FrameHead) (m : CulMsg) : Bool :=
  awake s && s.ready && !s.dry && s.restarting.isEmpty && decide (f.format = 2) &&
    (!tagChecked m || decide (f.tag = 0 ∨ f.tag = tagOf s)) &&
    (ownRepeat m || decide ((s.culvert.acted.find? fun a => a.1 = culType m) ≠ some (culType m, f.tag, m)))

/-- The state in which a heard frame's message acts: the frame is counted, its type shown (R404). -/
def counted (m : CulMsg) (s : State) : State := count Reg.culRx 1 { s with culvert.rxLast := culType m }

/-- The state after a frame the engine acted on: the last of its type (R450). -/
def noted (f : FrameHead) (m : CulMsg) (s : State) : State :=
  { s with culvert.acted := putKey (culType m) (f.tag, m) s.culvert.acted }

/-! ### Descriptors (R357, R358, R371) -/

/-- Descriptor d of an opcode runs at ring q, index j, well-formed, not refused for want of a tag (R323), and the engine finds no fault in itself
(R381). -/
def descAt (s : State) (q : Fin 16) (j op : Nat) (d : Desc) : Bool :=
  controllersRun s && decide (runningAt s q j = some d) && decide (d.op = op) && d.wellFormed && (!d.noTag || taglessOps.contains op) && !s.selfFault

/-- Where the first slot of the next record of a ring lies in host memory (R350, R363). -/
def nextRecord (s : State) (q : Fin 16) : Nat := cqBase s q + (ringOf s q).cqTail % cqSlots s q * 32

end Sys2Proof.Machine
end

