-- ==== Sys2Proof/Certificates/Slice0/Obligations.lean ====
section
/-! DEFINITION. The statements about the model, for the provers. In each, `s` is the state as the neighbours' part of the command leaves it
(`applyEnv e s₀ = s`): time passed, stores and disturbances applied (assumption 2). -/

open Sys2Proof Sys2Proof.Machine

/-- A step takes the command at the front of the queue and is exec of it on the state with the queue's rest; on an empty queue the block
idles (the model's choice, assumption 12). -/
def Obligations.StepRunsFrontCommand : Prop :=
  (∀ (c : Instr) (rest : List Instr) (s : State), s.pending = c :: rest → step s = exec c { s with pending := rest }) ∧
  (∀ s : State, s.pending = [] → step s = .next s)

/-- From any state whose byte memories (HBM, the check space, host memory, the flash partition) are in canonical form, a step that answers
a next state leaves them in canonical form, whatever the command. -/
def Obligations.StepKeepsMemoryOk : Prop :=
  ∀ s t : State, MemoryOk s → step s = .next t → MemoryOk t

/-- Whatever the command and the state, when exec answers a next state the queue of waiting commands is as it was: a command's effect is
on everything but the queue. -/
def Obligations.ExecKeepsQueue : Prop :=
  ∀ (c : Instr) (s t : State), exec c s = .next t → t.pending = s.pending

/-- At power-on every stored register holds its table's reset value (ring sizes 0x606, poll intervals 1,000 and 100,000 ns, OSE_CH_BGCAP
0x7D, OSE_PG_SCRUB_CYCLE 600 among them); OSE_BC_COMMITTED reads all ones, OSE_HT_LOCK and OSE_STATUS read 0; the queue is empty, and the
byte memories are in canonical form. That memory lists nothing is the model's choice (assumption 1). -/
def Obligations.ResetState : Prop :=
  (∀ off, regGet State.reset off = resetAt off) ∧ State.reset.pending = [] ∧ MemoryOk State.reset ∧
  (∀ q : Fin 16, regNat State.reset (ringReg q Reg.ringSize) = 0x606 ∧ regNat State.reset (ringReg q Reg.ringPoll) = 1000 ∧
    regNat State.reset (ringReg q Reg.ringPollIdle) = 100000) ∧
  (∀ n : Fin 24, regNat State.reset (Reg.chBgcap + n.val * 0x1000) = 0x7D ∧ regNat State.reset (Reg.chId + n.val * 0x1000) = n.val) ∧
  regNat State.reset Reg.pgScrubCycle = 600 ∧ readReg State.reset Reg.bcCommitted = 0xFFFFFFFF#32 ∧
  readReg State.reset Reg.htLock = 0#32 ∧ readReg State.reset Reg.status = 0#32

/-- After a compute write, each byte of HBM inside the written range and outside every window that the memory partition holds is the byte
written, every other byte of HBM is as before, and nothing but HBM has changed. -/
def Obligations.ComputeStoreJudgedByByte : Prop :=
  ∀ (a : Nat) (bs : Bytes) (s : State),
    (∀ x, readByte (computeStore a bs s).hbm x =
      if a ≤ x ∧ x < a + bs.length ∧ inWindow s x = false then bs.getD (x - a) 0#8 else readByte s.hbm x) ∧
    { computeStore a bs s with hbm := s.hbm } = s

/-- A codeword with no flipped bit is good; any single flipped bit of the thirteen is corrected; any two flipped bits are uncorrectable. -/
def Obligations.SramByteCode : Prop :=
  (∃ v, sramDecode 0 = .good v) ∧
  (∀ i : Fin 13, ∃ v p, sramDecode (1#13 <<< i.val) = .corrected v p) ∧
  (∀ i j : Fin 13, i ≠ j → sramDecode (1#13 <<< i.val ||| 1#13 <<< j.val) = .uncorrectable)

/-- In E0 and E1, a write to an RW or RS field of a value outside its range changes no register but the counter: the register keeps its
value, OSE_BAD_ACCESS counts the write and OSE_BAD_ACCESS_AT shows its offset. A misaligned or non-32-bit access (outside E3, where the
window acts on nothing) is counted in the same place. A write to an RWC field is staged as written, whatever its value, and counted
nowhere: a write of the seed's low half joins the staged set and is held, its high half stages the pair, and every other register holds
the field bits written; a commit requested with no plan active that fails the validation changes none of them. -/
def Obligations.OutOfRangeWriteIgnored : Prop :=
  (∀ (e : Env) (s₀ s : State) (off n : Nat) (v : Word) (r : RegRow), applyEnv e s₀ = s → s.power.state < 2 → rowAt off = some (r, n) →
    r.acc = .rw ∨ r.acc = .rs → ownCommand r.off = false → r.off ≠ Reg.reset → (r.off = Reg.ringSize → (ringOf s (ringNo n)).enabled = false) →
    inRange r.off (v.toNat &&& fieldMask r.off) = false →
    NextWith (exec (.registerWrite e off v) s₀) fun t =>
      regGet t off = regGet s off ∧ regNat t Reg.badAccess = min (regNat s Reg.badAccess + 1) 0xFFFFFFFF ∧ regNat t Reg.badAccessAt = off ∧
      RegsKept [Reg.badAccess, Reg.badAccessAt] s t ∧ OnlyRegs s t) ∧
  (∀ (e : Env) (s₀ s : State) (off : Nat) (isWrite : Bool), applyEnv e s₀ = s → s.power.state ≠ 3 → off < 2 ^ 20 →
    NextWith (exec (.badRegisterAccess e off isWrite) s₀) fun t =>
      regNat t Reg.badAccess = min (regNat s Reg.badAccess + 1) 0xFFFFFFFF ∧ regNat t Reg.badAccessAt = off ∧
      (isWrite = false → t.lastRead = 0xFFFFFFFF#32) ∧ RegsKept [Reg.badAccess, Reg.badAccessAt] s t) ∧
  (∀ (e : Env) (s₀ s : State) (off : Nat) (v : Word), applyEnv e s₀ = s → s.power.state < 2 → off ∈ shadowRegs → s.pendingCommit = false →
    (off ≠ Reg.jobSeedLo → off ≠ Reg.jobSeedHi → NextWith (exec (.shadowRegisterWrite e off v) s₀) fun t =>
      regNat t off = v.toNat &&& fieldMask off ∧ shadowRegs.findIdx (· = off) ∈ t.staged ∧
      RegsKept [off, Reg.cfgStaged, Reg.cfgStatus] s t) ∧
    (off = Reg.jobSeedLo → NextWith (exec (.shadowRegisterWrite e off v) s₀) fun t =>
      t.loHold = putKey off v s.loHold ∧ 0 ∈ t.staged ∧ RegsKept [Reg.cfgStaged, Reg.cfgStatus] s t) ∧
    (∀ lo : Word, off = Reg.jobSeedHi → (s.loHold.find? fun x => x.1 = Reg.jobSeedLo) = some (Reg.jobSeedLo, lo) →
      NextWith (exec (.shadowRegisterWrite e off v) s₀) fun t =>
        regGet t Reg.jobSeedLo = lo ∧ regGet t Reg.jobSeedHi = v ∧ 0 ∈ t.staged ∧ 1 ∈ t.staged ∧
        RegsKept [Reg.jobSeedLo, Reg.jobSeedHi, Reg.cfgStaged, Reg.cfgStatus] s t)) ∧
  (∀ (e : Env) (s₀ s : State) (f : Failure), applyEnv e s₀ = s → s.power.state < 2 → s.dry = false → s.pendingCommit = false →
    planActive s = false → validate { refreshCfg { s with pendingCommit := true } with pendingCommit := false } = some f →
    NextWith (exec (.configCommit e) s₀) fun t => ∀ off ∈ shadowRegs, regGet t (inForce off) = regGet s (inForce off))

/-- In E0 and E1: a write of an RW or RS register outside the ring blocks, in range, stores its field bits and reads its reserved bits as
zero; a write of a counter clears it; a write of a write-one-to-clear register clears the bits written as one; in each case no other
register and nothing else of the state changes. A write of a read-only register changes nothing at all. A write of OSE_CFG_COMMIT is
counted alone while a commit is pending; with bit 1 set it discards, with bit 0 alone it requests the commit, with neither it changes
nothing. -/
def Obligations.RegisterWriteStores : Prop :=
  (∀ (e : Env) (s₀ s : State) (off n : Nat) (v : Word) (r : RegRow), applyEnv e s₀ = s → s.power.state < 2 → rowAt off = some (r, n) →
    ownCommand r.off = false → r.off ≠ Reg.reset →
    NextWith (exec (.registerWrite e off v) s₀) fun t =>
      (r.acc = .rw ∨ r.acc = .rs → ¬ (Reg.ringCtrl ≤ r.off ∧ r.off ≤ Reg.ringHalts) → inRange r.off (v.toNat &&& fieldMask r.off) = true →
        regNat t off = v.toNat &&& fieldMask r.off ∧ RegsKept [off] s t ∧ OnlyRegs s t) ∧
      (r.acc = .ctr → regNat t off = 0 ∧ RegsKept [off] s t ∧ OnlyRegs s t) ∧
      (r.acc = .w1c → regGet t off = regGet s off &&& ~~~v ∧ RegsKept [off] s t ∧ OnlyRegs s t) ∧
      (r.acc = .ro → t = s)) ∧
  (∀ (e : Env) (s₀ s : State) (v : Word), applyEnv e s₀ = s → s.power.state < 2 →
    (s.pendingCommit = true → exec (.registerWrite e Reg.cfgCommit v) s₀ = .next (count Reg.cfgLate 1 s)) ∧
    (s.pendingCommit = false →
      (bit 1 v.toNat = true → exec (.registerWrite e Reg.cfgCommit v) s₀ = .next (refreshCfg (discardStaged s))) ∧
      (bit 1 v.toNat = false → bit 0 v.toNat = true → exec (.registerWrite e Reg.cfgCommit v) s₀ = .next (requestCommit s)) ∧
      (bit 1 v.toNat = false → bit 0 v.toNat = false → exec (.registerWrite e Reg.cfgCommit v) s₀ = .next s)))

/-- Outside E3, reading the low half of a read-only pair answers it and captures the upper half; the next read of the high half answers
the captured upper half, whatever time has passed since. In E0 and E1, while the ring is disabled, writing the low half of one of its
addresses changes no register; writing the high half then puts both halves in force, and that write changes no other register. -/
def Obligations.PairsReadAndWritten : Prop :=
  (∀ (e : Env) (s₀ s : State) (off : Nat), applyEnv e s₀ = s → isReadPair off = true → s.power.state ≠ 3 →
    NextWith (exec (.wideRegisterCapture e off) s₀) fun t =>
      t.lastRead = readReg s off ∧ { t with lastRead := s.lastRead, wideCap := s.wideCap } = s ∧
      ∀ e' : Env, e'.upsets = [] → NextWith (exec (.wideRegisterCapture e' (off + 4)) t) fun u => u.lastRead = readReg s (off + 4)) ∧
  (∀ (e e' : Env) (s₀ s : State) (q : Fin 16) (base : Nat) (lo hi : Word), applyEnv e s₀ = s → s.power.state < 2 →
    base ∈ [Reg.ringSqBaseLo, Reg.ringCqBaseLo, Reg.ringDbLo] → (ringOf s q).enabled = false → e'.upsets = [] →
    NextWith (exec (.registerWrite e (ringReg q base) lo) s₀) fun t => t.regs = s.regs ∧
      NextWith (exec (.registerWrite e' (ringReg q base + 4) hi) t) fun u =>
        regGet u (ringReg q base) = lo ∧ regGet u (ringReg q base + 4) = hi ∧
        RegsKept [ringReg q base, ringReg q base + 4] (applyEnv e' t) u)

/-- In E0 and E1 with no commit pending: a discard returns every shadow register to its value in force and empties the staged set; a
commit written while a plan is active and the engine is not frozen is pending and puts nothing in force. A pending commit outside dry
mode, at its moment, that passes validation with no change of tag puts the staged value of every shadow register but OSE_SNAP_CFG (of
which the slot count and the pond bit alone come into force) in force in the one step and empties the set; one that fails puts nothing in
force, keeps the staged values, and is counted and flagged. -/
def Obligations.ShadowConfiguration : Prop :=
  (∀ (e : Env) (s₀ s : State), applyEnv e s₀ = s → s.power.state < 2 → s.pendingCommit = false →
    NextWith (exec (.configDiscard e) s₀) fun t => t.staged = [] ∧ ∀ off ∈ shadowRegs, regGet t off = regGet s (inForce off)) ∧
  (∀ (e : Env) (s₀ s : State), applyEnv e s₀ = s → s.power.state < 2 → s.pendingCommit = false → planActive s = true → s.refill.frozen = false →
    NextWith (exec (.configCommit e) s₀) fun t =>
      t.pendingCommit = true ∧ t.staged = s.staged ∧ RegsKept [Reg.cfgStatus] s t ∧ { t with pendingCommit := s.pendingCommit, regs := s.regs } = s) ∧
  (∀ (e : Env) (s₀ s : State), applyEnv e s₀ = s → s.power.state < 2 → s.dry = false → s.pendingCommit = true → commitMoment s = true →
    validate { s with pendingCommit := false } = none → regGet s Reg.jobTag = regGet s Reg.jobTagF →
    NextWith (exec (.configCommitApply e) s₀) fun t =>
      t.staged = [] ∧ t.pendingCommit = false ∧ (∀ off ∈ shadowRegs, off ≠ Reg.snapCfg → regGet t (inForce off) = regGet s off) ∧
      regNat t Reg.snapCfgF = bits 4 0 (regNat s Reg.snapCfg)) ∧
  (∀ (e : Env) (s₀ s : State) (f : Failure), applyEnv e s₀ = s → s.power.state < 2 → s.dry = false → s.pendingCommit = true →
    commitMoment s = true → validate { s with pendingCommit := false } = some f →
    NextWith (exec (.configCommitApply e) s₀) fun t =>
      t.staged = s.staged ∧ t.pendingCommit = false ∧ (∀ off ∈ shadowRegs, regGet t off = regGet s off ∧ regGet t (inForce off) = regGet s (inForce off)) ∧
      regNat t Reg.cfgDisagrees = min (regNat s Reg.cfgDisagrees + 1) 0xFFFFFFFF ∧ (regNat t Reg.events).testBit 5 = true)

/-- Outside E3, reading the first register of an intake entry captures its eight registers beside the captures of other entries, replacing
an earlier one of its own, and answers the first. In E0 and E1, writing OSE_CH_PG_INJECT arms that channel's injection with its count and
value, replacing one armed before, or disarms it with a count of zero; nothing else changes. -/
def Obligations.IntakeCaptureAndInjection : Prop :=
  (∀ (e : Env) (s₀ s : State) (w : Fin 64), applyEnv e s₀ = s → s.power.state ≠ 3 →
    exec (.intakeEntryCapture e w) s₀ = .next { s with
      lastRead := readReg s (Reg.intakeW + w.val * 0x20),
      intakeCap := (s.intakeCap.filter fun c => c.1 ≠ w.val) ++
        [(w.val, (List.range 8).map (fun n => readReg s (Reg.intakeW + w.val * 0x20 + n * 4)), 1)] }) ∧
  (∀ (e : Env) (s₀ s : State) (n : Fin 24) (v : Word), applyEnv e s₀ = s → s.power.state < 2 → bits 6 0 v.toNat ≠ 0 →
    exec (.errorInject e n v) s₀ = .next { s with
      guard.injections := (s.guard.injections.filter fun i => i.1 ≠ n) ++ [(n, bits 6 0 v.toNat, bits 23 8 v.toNat)] }) ∧
  (∀ (e : Env) (s₀ s : State) (n : Fin 24) (v : Word), applyEnv e s₀ = s → s.power.state < 2 → bits 6 0 v.toNat = 0 →
    exec (.errorInject e n v) s₀ = .next { s with guard.injections := s.guard.injections.filter fun i => i.1 ≠ n })

/-- A poll of an open ring that waits with nothing copied and no report lost reads both host indices. With one new single-slot descriptor
within bounds, outside dry mode, it copies that descriptor from its slot and advances the submission head by one; the descriptor then
waits, or is taken. With nothing new only the indices as read change. With a submission tail further ahead than the ring is long, or a
completion head ahead of what was written by more than the ring holds, the ring halts with cause 3. -/
def Obligations.RingPollCopies : Prop :=
  (∀ (e : Env) (s₀ s : State) (q : Fin 16) (tail head : Nat), applyEnv e s₀ = s → ringsServed s = true → s.dry = false →
    (ringOf s q).isOpen = true → (ringOf s q).copied = [] → (ringOf s q).lostNow = 0 →
    field 0 4 (hostRead s (doorbell s q) 4) = tail → field 0 4 (hostRead s (doorbell s q + 4) 4) = head →
    idxSub tail (ringOf s q).sqHead = 1 → idxSub (ringOf s q).cqTail head ≤ cqSlots s q → (fetchDesc s q (ringOf s q).sqHead).ext = false →
    NextWith (exec (.ringPoll e q) s₀) fun t => ∃ d : Desc,
      d.bytes = hostRead s (sqBase s q + (ringOf s q).sqHead % sqSlots s q * 64) 64 ∧ d.idx = (ringOf s q).sqHead ∧ d.fetchedAt = s.ht ∧
      (ringOf t q).sqHead = idxAdd (ringOf s q).sqHead 1 ∧ (ringOf t q).sqTail = tail ∧ (ringOf t q).cqHead = head ∧
      ((ringOf t q).copied = [d] ∧ (ringOf t q).taken = (ringOf s q).taken ∨
        (ringOf t q).copied = [] ∧ (ringOf t q).taken = (ringOf s q).taken ++ [d])) ∧
  (∀ (e : Env) (s₀ s : State) (q : Fin 16) (tail head : Nat), applyEnv e s₀ = s → ringsServed s = true →
    (ringOf s q).isOpen = true → (ringOf s q).copied = [] → (ringOf s q).lostNow = 0 →
    field 0 4 (hostRead s (doorbell s q) 4) = tail → field 0 4 (hostRead s (doorbell s q + 4) 4) = head →
    idxSub tail (ringOf s q).sqHead = 0 → idxSub (ringOf s q).cqTail head ≤ cqSlots s q →
    exec (.ringPoll e q) s₀ = .next (setRing q { ringOf s q with sqTail := tail, cqHead := head } s)) ∧
  (∀ (e : Env) (s₀ s : State) (q : Fin 16) (tail head : Nat), applyEnv e s₀ = s → ringsServed s = true → (ringOf s q).isOpen = true →
    field 0 4 (hostRead s (doorbell s q) 4) = tail → field 0 4 (hostRead s (doorbell s q + 4) 4) = head →
    sqSlots s q < idxSub tail (ringOf s q).sqHead ∨ cqSlots s q < idxSub (ringOf s q).cqTail head →
    NextWith (exec (.ringPoll e q) s₀) fun t => (ringOf t q).halted = true ∧ (ringOf t q).cause = 3)

/-- At a served engine, when the first taken descriptor of a ring may start (fewer than 8 of the ring and 32 in all run, no ordering
descriptor stands in the way, no rule makes it wait), it moves from the taken to the running ones; every other ring is unchanged, and
nothing but rings and registers changes. Where it may not start, and where nothing is taken, the state stays as it is; a ring with 8
running starts nothing. -/
def Obligations.DescriptorStarts : Prop :=
  (∀ (e : Env) (s₀ s : State) (q : Fin 16) (d : Desc) (rest : List Desc), applyEnv e s₀ = s → flumeRuns s = true → ringsServed s = true →
    (ringOf s q).taken = d :: rest → mayStart s q d = true →
    NextWith (exec (.descriptorStart e q) s₀) fun t =>
      ringOf t q = { ringOf s q with taken := rest, running := (ringOf s q).running ++ [d] } ∧ (∀ p, p ≠ q → ringOf t p = ringOf s p) ∧
      OnlyRings s t) ∧
  (∀ (e : Env) (s₀ s : State) (q : Fin 16), applyEnv e s₀ = s →
    (∀ d rest, (ringOf s q).taken = d :: rest → mayStart s q d = false → exec (.descriptorStart e q) s₀ = .next s) ∧
    ((ringOf s q).taken = [] → exec (.descriptorStart e q) s₀ = .next s) ∧
    (8 ≤ (ringOf s q).running.length → exec (.descriptorStart e q) s₀ = .next s))

/-- In E0 and E1, for a ring that no reset holds: enabling a disabled ring sets its indices to 0 and copies nothing; enabling an enabled
one, and disabling a disabled one, changes the interrupt choice alone; disabling an enabled ring lets what runs finish, and completes what
was taken and has not started as refused, in order. A closed ring with nothing left running is then shown as disabled. A reset discards
what has not started, stops the host-only descriptors and mutes the others that run; once nothing of the ring runs and no controller
restarts it ends with the ring disabled, its indices at 0, and control and status at their reset values. -/
def Obligations.RingControl : Prop :=
  (∀ (e : Env) (s₀ s : State) (q : Fin 16) (irq : Bool), applyEnv e s₀ = s → s.power.state < 2 → (ringOf s q).resetting = false →
    ((ringOf s q).enabled = false → exec (.ringEnable e q irq) s₀ = .next (setRing q { ringOf s q with
      enabled := true, closing := false, reportIrq := irq, sqHead := 0, sqTail := 0, cqTail := 0, cqHead := 0, copied := [] } s)) ∧
    ((ringOf s q).enabled = true → exec (.ringEnable e q irq) s₀ = .next (setRing q { ringOf s q with reportIrq := irq } s))) ∧
  (∀ (e : Env) (s₀ s : State) (q : Fin 16) (irq : Bool), applyEnv e s₀ = s → s.power.state < 2 → (ringOf s q).resetting = false →
    ((ringOf s q).enabled = false → exec (.ringDisable e q irq) s₀ = .next (setRing q { ringOf s q with reportIrq := irq } s)) ∧
    ((ringOf s q).enabled = true → exec (.ringDisable e q irq) s₀ = .next ((ringOf s q).taken.foldl (fun s d => complete q d (refusedFor d 0xE4) s)
      (setRing q { ringOf s q with enabled := false, closing := !(ringOf s q).running.isEmpty, reportIrq := irq, copied := [], taken := [],
                                   running := (ringOf s q).running ++ (ringOf s q).taken } s)))) ∧
  (∀ (e : Env) (s₀ s : State) (q : Fin 16), applyEnv e s₀ = s → (ringOf s q).closing = true → (ringOf s q).running = [] →
    exec (.ringDisableDone e q) s₀ = .next (setRing q { ringOf s q with closing := false } s)) ∧
  (∀ (e : Env) (s₀ s : State) (q : Fin 16), applyEnv e s₀ = s → s.power.state < 2 → (ringOf s q).resetting = false →
    NextWith (exec (.ringReset e q) s₀) fun t =>
      ringOf t q = { (ringOf s q).stopped with resetting := true, closing := false } ∧ (∀ p, p ≠ q → ringOf t p = ringOf s p) ∧ OnlyRings s t) ∧
  (∀ (e : Env) (s₀ s : State) (q : Fin 16), applyEnv e s₀ = s → (ringOf s q).resetting = true → (ringOf s q).running = [] → s.restarting = [] →
    exec (.ringResetDone e q) s₀ = .next (setRing q { ringOf s q with
      sqHead := 0, sqTail := 0, cqTail := 0, cqHead := 0, halted := false, enabled := false, resetting := false, muted := [],
      reportIrq := false, cause := 0 } s))

/-- When a message is due and the holdoff interval since the last one has passed, the message goes out with the ring's vector, and only
that ring and the list of messages change. In E0 and E1 after a start, a controller restart or not, a host access error halts a ring that
is not halted with cause 1, or 4 where it struck the ring's own records: nothing copied or taken stays, OSE_RING_HALTS counts it and bit 4
of OSE_EVENTS is set; HBM and flash are as before. At a ring that is halted already nothing of this is done again. -/
def Obligations.MessagesAndHostErrors : Prop :=
  (∀ (e : Env) (s₀ s : State) (q : Fin 16), applyEnv e s₀ = s → (ringOf s q).msgDue = true →
    ((ringOf s q).lastMsg.all fun t => decide (t + bits 31 16 (regNat s (ringReg q Reg.ringIrq)) * 1000 ≤ s.ht)) = true →
    exec (.msixHoldoffExpiry e q) s₀ = .next { setRing q { ringOf s q with lastMsg := some s.ht, msgDue := false } s with
      msix := s.msix ++ [(q, bits 10 0 (regNat s (ringReg q Reg.ringIrq)), s.ht)] }) ∧
  (∀ (e : Env) (s₀ s : State) (q : Fin 16) (addr : Nat) (own : Bool), applyEnv e s₀ = s → s.power.state < 2 → s.ready = true ∨ s.dry = true →
    ((ringOf s q).halted = false → NextWith (exec (.hostAccessError e q addr own) s₀) fun t =>
      (ringOf t q).halted = true ∧ (ringOf t q).cause = (if own then 4 else 1) ∧ (ringOf t q).copied = [] ∧ (ringOf t q).taken = [] ∧
      regNat t (ringReg q Reg.ringHalts) = min (regNat s (ringReg q Reg.ringHalts) + 1) 0xFFFFFFFF ∧ (regNat t Reg.events).testBit 4 = true ∧
      t.hbm = s.hbm ∧ t.flash = s.flash) ∧
    ((ringOf s q).halted = true → exec (.hostAccessError e q addr own) s₀ = .next (refreshSlots s)))

/-- Completing a descriptor of one slot that no reset muted: it no longer runs, the completion index advances by one, the record with the
phase of the ring's pass and the result stands in its slot (where the completion tail's copy in the doorbell block does not overlap it),
OSE_RING_COMPLETED counts it, every byte of host memory outside the slot and the copy of the tail is as before, and nothing but host
memory, rings, registers and messages changes. A muted one leaves no record: it only stops running. -/
def Obligations.CompletionRecord : Prop :=
  (∀ (s : State) (q : Fin 16) (d : Desc) (res : Result), Memory.wf s.hostMem = true → d.slots = 1 → (ringOf s q).muted.contains d.idx = false →
    let t := complete q d res s
    let a := nextRecord s q
    let db := doorbell s q + 36
    (ringOf t q).running = (ringOf s q).running.filter (· ≠ d) ∧ (ringOf t q).cqTail = idxAdd (ringOf s q).cqTail 1 ∧
    regNat t (ringReg q Reg.ringCompleted) = min (regNat s (ringReg q Reg.ringCompleted) + 1) 0xFFFFFFFF ∧
    (a + 32 ≤ db ∨ db + 4 ≤ a → hostRead t a 32 =
      le 1 (1 - (ringOf s q).cqTail / cqSlots s q % 2) ++ le 1 1 ++ le 1 res.status ++ le 1 d.op ++ le 4 d.tag ++ le 8 s.hostTime ++
        le 1 res.detail ++ zeros 3 ++ le 4 res.word ++ le 8 res.quad) ∧
    (∀ x, (x < a ∨ a + 32 ≤ x) → (x < db ∨ db + 4 ≤ x) → readByte t.hostMem x = readByte s.hostMem x) ∧
    { t with hostMem := s.hostMem, rings := s.rings, regs := s.regs, msix := s.msix } = s) ∧
  (∀ (s : State) (q : Fin 16) (d : Desc) (res : Result), (ringOf s q).muted.contains d.idx = true →
    complete q d res s = setRing q { ringOf s q with
      running := (ringOf s q).running.filter (· ≠ d), muted := (ringOf s q).muted.filter (· ≠ d.idx) } s)

/-- A FENCE of scope 0 completes with OK once every descriptor its ring took before it has completed, one of scope 1 once every ring's
have; until then it stays and nothing of it changes; a FENCE of another scope completes as refused with detail 0xE3. A running descriptor
of an unknown opcode or of the wrong form completes as refused, with detail 0xE1 or 0xE2. A FENCE in whose work the engine finds a fault
in itself, while no restore runs and the event queue has room, completes with INTERNAL, with EVENT 0x16 that names its opcode and bit 7 of
OSE_EVENTS set. -/
def Obligations.FenceAndUnknownOpcodes : Prop :=
  (∀ (e : Env) (s₀ s : State) (q : Fin 16) (j : Nat) (d : Desc), applyEnv e s₀ = s → descAt s q j Op.fence d = true →
    (d.f 8 1 = 0 → earlierDone s q d = true → exec (.fence e q j) s₀ = .next (charge (traffic s) (complete q d {} s))) ∧
    (d.f 8 1 = 1 → (∀ r, earlierDone s r d = true) → exec (.fence e q j) s₀ = .next (charge (traffic s) (complete q d {} s))) ∧
    (d.f 8 1 < 2 → earlierDone s q d = false → exec (.fence e q j) s₀ = .next (charge (traffic s) s)) ∧
    (∀ r, d.f 8 1 = 1 → earlierDone s r d = false → exec (.fence e q j) s₀ = .next (charge (traffic s) s)) ∧
    (1 < d.f 8 1 → exec (.fence e q j) s₀ = .next (charge (traffic s) (complete q d (refusedWith 0xE3) s)))) ∧
  (∀ (e : Env) (s₀ s : State) (q : Fin 16) (j : Nat) (d : Desc), applyEnv e s₀ = s → controllersRun s = true → runningAt s q j = some d →
    d.wellFormed = false →
    exec (.unknownOpcode e q j) s₀ = .next (complete q d (refusedFor d (if opcodes.contains d.op then 0xE2 else 0xE1)) s)) ∧
  (∀ (e : Env) (s₀ s : State) (q : Fin 16) (j : Nat) (d : Desc), applyEnv e s₀ = s → controllersRun s = true → runningAt s q j = some d →
    d.op = Op.fence → d.wellFormed = true → d.noTag = false → s.selfFault = true → s.culvert.queue.length < 64 → s.restore.running = false →
    (ringOf s q).muted.contains j = false →
    NextWith (exec (.fence e q j) s₀) fun t =>
      (ringOf t q).running = (ringOf s q).running.filter (· ≠ d) ∧ (regNat t Reg.events).testBit 7 = true ∧
      t.culvert.queue = s.culvert.queue ++ [⟨0x16, Code.internal, 0, s.ht, le 1 Op.fence, tagOf s⟩] ∧ t.hbm = s.hbm ∧ t.flash = s.flash)

/-- A REGION_SET that does not yet wait, with no plan active, no freeze and no restore, that keeps alignment, limits and the address map,
puts its declarations in force, leaves the partition's windows as they are, and waits for the report. One that keeps them not completes as
refused with 0xE3, and one met while a plan is active, a freeze lasts or a restore runs with 0xE4: no region changes. The report puts the
windows of the declarations in force and, while the controllers run, completes the descriptors that wait with their mask and the sum of
the sizes; during a controller restart they wait for its end. -/
def Obligations.RegionSetAndReport : Prop :=
  (∀ (e : Env) (s₀ s : State) (q : Fin 16) (j : Nat) (d : Desc), applyEnv e s₀ = s → descAt s q j Op.regionSet d = true →
    (s.regionWait.any fun w => w.1 = q ∧ w.2.1 = j) = false →
    (planActive s = false → s.refill.frozen = false → s.restore.running = false → restoreRuns s = false →
      (regionsOk s d = true → NextWith (exec (.regionSet e q j) s₀) fun t =>
        t.regions.toList = regionsAfter s d ∧ t.windows = s.windows ∧ t.regionWait = s.regionWait ++ [(q, j, d.f 8 1 % 32, false)] ∧
        t.rings = s.rings ∧ t.hbm = s.hbm ∧ t.hostMem = s.hostMem) ∧
      (regionsOk s d = false → exec (.regionSet e q j) s₀ = .next (charge (traffic s) (complete q d (refusedWith 0xE3) s)))) ∧
    (planActive s = true ∨ s.refill.frozen = true ∨ s.restore.running = true ∨ restoreRuns s = true →
      exec (.regionSet e q j) s₀ = .next (charge (traffic s) (complete q d (refusedWith 0xE4) s)))) ∧
  (∀ (e : Env) (s₀ s : State), applyEnv e s₀ = s → flumeRuns s = true →
    let told := { s with windows := s.regions, regionWait := s.regionWait.map fun w => (w.1, w.2.1, w.2.2.1, true) }
    (∀ (q : Fin 16) (j mask : Nat) (r : Bool) (d : Desc), controllersRun s = true → s.regionWait = [(q, j, mask, r)] → runningAt s q j = some d →
      exec (.partitionWindowsReport e) s₀ =
        .next (complete q d { word := mask, quad := sumOf (s.regions.toList.map fun x => x.2) } { told with regionWait := [] })) ∧
    (controllersRun s = false → exec (.partitionWindowsReport e) s₀ = .next told))

/-- A STATE_FILL with a pattern, on a range of whole pages inside a declared plot, pond or undo window, with no injection armed: every
byte of the range holds its byte of the pattern, every other byte of HBM is as before, no page of the range is listed as damaged, and the
descriptor no longer runs. A range that its region does not hold (0xE3), one of a region that is not declared (0xE6), a source other than
0 or 1 and host data that is not aligned (0xE3) complete as refused, and nothing is filled. -/
def Obligations.StateFillWritesTheRange : Prop :=
  (∀ (e : Env) (s₀ s : State) (q : Fin 16) (j : Nat) (d : Desc), applyEnv e s₀ = s → descAt s q j Op.stateFill d = true → d.f 9 1 = 0 →
    d.f 8 1 ∈ [0, 2, 4] → rangeBad s (d.f 8 1) (d.f 16 8) (d.f 24 8) 4096 = none → s.guard.injections = [] →
    NextWith (exec (.stateFill e q j) s₀) fun t =>
      (∀ x, readByte t.hbm x =
        if regionBase s (d.f 8 1) + d.f 16 8 ≤ x ∧ x < regionBase s (d.f 8 1) + d.f 16 8 + d.f 24 8 then
          (le 8 (d.f 32 8)).getD ((x - (regionBase s (d.f 8 1) + d.f 16 8)) % 8) 0#8
        else readByte s.hbm x) ∧
      (∀ n, n < d.f 24 8 / 4096 → regionBase s (d.f 8 1) + d.f 16 8 + n * 4096 ∉ t.guard.damaged) ∧
      (ringOf t q).running = (ringOf s q).running.filter (· ≠ d)) ∧
  (∀ (e : Env) (s₀ s : State) (q : Fin 16) (j : Nat) (d : Desc), applyEnv e s₀ = s → descAt s q j Op.stateFill d = true →
    (∀ c, d.f 9 1 < 2 → rangeBad s (d.f 8 1) (d.f 16 8) (d.f 24 8) 4096 = some c →
      exec (.stateFill e q j) s₀ = .next (charge (traffic s) (complete q d (refusedWith c) s))) ∧
    (1 < d.f 9 1 → exec (.stateFill e q j) s₀ = .next (charge (traffic s) (complete q d (refusedWith 0xE3) s))) ∧
    (d.f 9 1 = 1 → rangeBad s (d.f 8 1) (d.f 16 8) (d.f 24 8) 4096 = none → d.f 40 8 % 64 ≠ 0 →
      exec (.stateFill e q j) s₀ = .next (charge (traffic s) (complete q d (refusedWith 0xE3) s)))) ∧
  (∀ (s : State) (r off len unit : Nat), r < 5 → (rangeBad s r off len unit = some 0xE6 ↔ regionSize s r = 0) ∧
    (rangeBad s r off len unit = none ↔ 0 < regionSize s r ∧ off % unit = 0 ∧ len % unit = 0 ∧ 0 < len ∧ off + len ≤ regionSize s r))

/-- A PLAN_LOAD whose image passes the audit takes its plan (takePlan: into the standby slot, with its chunk order table) and completes
with its plan ID and length; one that fails the audit empties the standby slot and completes with the audit's code; one of a misaligned or
wrongly sized image completes with 0xE3, and one met while an armed plan stands by with 0x13. A PLAN_ARM at a step, where it is allowed,
arms the standby plan at it and completes with the step; one at an instant, where it is allowed, arms it there, fixes the next start, and
completes with the step and the instant; one that is not allowed completes with 0x14 and one of another kind with 0xE3, and neither arms
anything. An arm is allowed exactly where the standby plan has the ID named and, at a step, a plan is active, the step lies above the one
in flight and no restore has fixed the step; at an instant, no plan is active, the instant lies 1 ms or more after the fetch and not
before the start of a live job, and the step is the one a restore has fixed, if one has. A PLAN_RETIRE of the active plan takes it out of
service from the next step on and completes with that step; one of any other plan completes with 0xE4. -/
def Obligations.PlanDescriptors : Prop :=
  (∀ (e : Env) (s₀ s : State) (q : Fin 16) (j : Nat) (d : Desc), applyEnv e s₀ = s → descAt s q j Op.planLoad d = true →
    let good := d.f 8 8 % 64 = 0 ∧ 128 ≤ d.f 16 4 ∧ d.f 16 4 ≤ 2097152
    let img := hostRead s (d.f 8 8) (d.f 16 4)
    let s' := count Reg.rsvdFields (planReserved img (audit s img (d.f 16 4))) s
    (good → (s.plans.armed.isSome && s.plans.standby.isSome) = false →
      (audit s img (d.f 16 4) = 0 → exec (.planLoad e q j) s₀ =
        .next (charge (traffic s) (complete q d { word := (planOf img).id, quad := d.f 16 4 } (takePlan (planOf img) s')))) ∧
      (audit s img (d.f 16 4) ≠ 0 → exec (.planLoad e q j) s₀ = .next (charge (traffic s) (complete q d
        (refusedWith (audit s img (d.f 16 4))) { s' with plans.standby := none, plans.dropStandbyAt := none })))) ∧
    (good → (s.plans.armed.isSome && s.plans.standby.isSome) = true →
      exec (.planLoad e q j) s₀ = .next (charge (traffic s) (complete q d (refusedWith 0x13) s))) ∧
    (¬ good → exec (.planLoad e q j) s₀ = .next (charge (traffic s) (complete q d (refusedWith 0xE3) s)))) ∧
  (∀ (e : Env) (s₀ s : State) (q : Fin 16) (j : Nat) (d : Desc), applyEnv e s₀ = s → descAt s q j Op.planArm d = true →
    (d.f 8 1 = 0 → armOk s d = true → exec (.planArm e q j) s₀ =
      .next (charge (traffic s) (complete q d { word := d.f 16 4 } { s with plans.armed := some (.atStep (d.f 16 4)) }))) ∧
    (d.f 8 1 = 1 → armOk s d = true → exec (.planArm e q j) s₀ =
      .next (charge (traffic s) (complete q d { word := d.f 16 4, quad := d.f 24 8 }
        { s with plans.armed := some (.atInstant (d.f 16 4) (d.f 24 8)), step.nextAt := d.f 24 8, restore.armStep := none }))) ∧
    (d.f 8 1 ≤ 1 → armOk s d = false → exec (.planArm e q j) s₀ = .next (charge (traffic s) (complete q d (refusedWith 0x14) s))) ∧
    (1 < d.f 8 1 → exec (.planArm e q j) s₀ = .next (charge (traffic s) (complete q d (refusedWith 0xE3) s)))) ∧
  (∀ (s : State) (d : Desc) (p : Plan), s.plans.standby = some p →
    (d.f 8 1 = 0 → (armOk s d = true ↔ p.id = d.f 12 4 ∧ planActive s = true ∧ stepNum s < d.f 16 4 ∧ s.restore.armStep = none)) ∧
    (d.f 8 1 = 1 → (armOk s d = true ↔ p.id = d.f 12 4 ∧ planActive s = false ∧ d.fetchedAt + 1000000 ≤ d.f 24 8 ∧ s.job.live = true ∧
      s.job.liveAt ≤ d.f 24 8 ∧ ∀ n, s.restore.armStep = some n → n = d.f 16 4))) ∧
  (∀ (e : Env) (s₀ s : State) (q : Fin 16) (j : Nat) (d : Desc), applyEnv e s₀ = s → descAt s q j Op.planRetire d = true →
    (∀ p, s.plans.active = some p → p.id = d.f 8 4 → exec (.planRetire e q j) s₀ = .next (charge (traffic s)
      (complete q d { word := u32 (stepNum s + 1) } { s with plans.retireAt := some (stepNum s + 1) }))) ∧
    ((∀ p, s.plans.active = some p → p.id ≠ d.f 8 4) → exec (.planRetire e q j) s₀ =
      .next (charge (traffic s) (complete q d (refusedWith 0xE4) s))))

/-- A COUNTER_READ of a good range writes the registers' values, in ascending order and little-endian, to the buffer, and with its clear
flag clears the counters among them; any other completes as refused with 0xE3. A HEALTH_READ of a good range writes the eight words of the
tensors asked for, word by word as they lie in the cistern, rewrites or escalates each page that could not be read, and completes with OK
where every page could be read, PAGE_UNRECOVERABLE otherwise; one of a bad range completes as refused with 0xE3, and with 0xE6 where no
cistern is declared. -/
def Obligations.HealthAndCounterReads : Prop :=
  (∀ (e : Env) (s₀ s : State) (q : Fin 16) (j : Nat) (d : Desc), applyEnv e s₀ = s → descAt s q j Op.counterRead d = true →
    let good := d.f 8 4 % 4 = 0 ∧ 0 < d.f 12 4 ∧ d.f 12 4 ≤ 4096 ∧ d.f 8 4 + 4 * d.f 12 4 ≤ 2 ^ 20 ∧ d.f 24 8 % 64 = 0
    let offs := (List.range (d.f 12 4)).map fun i => d.f 8 4 + 4 * i
    let s' := if bit 0 (d.f 16 1) then (offs.filter clearsOnWrite).foldl (fun s o => regPut o 0 s) s else s
    (good → exec (.counterRead e q j) s₀ = .next (charge (traffic s) (complete q d { word := d.f 12 4, quad := s.hostTime }
      (hostWrite (d.f 24 8) (offs.flatMap fun o => le 4 (readReg s o).toNat) s')))) ∧
    (¬ good → exec (.counterRead e q j) s₀ = .next (charge (traffic s) (complete q d (refusedWith 0xE3) s)))) ∧
  (∀ (e : Env) (s₀ s : State) (q : Fin 16) (j : Nat) (d : Desc), applyEnv e s₀ = s → descAt s q j Op.healthRead d = true →
    let area := roundUp (8 * d.f 16 4 * 32) 65536
    let good := 0 < d.f 12 4 ∧ d.f 12 4 ≤ 8192 ∧ d.f 8 4 + d.f 12 4 ≤ d.f 16 4 ∧ d.f 24 8 % 64 = 0 ∧ area ≤ regionSize s 3
    let base := cisternBase s + regionSize s 3 - area
    let got := (List.range 8).foldl (fun acc z =>
      let r := readSpan 3 (base + 32 * (z * d.f 16 4 + d.f 8 4)) (32 * d.f 12 4) { descriptor := true } acc.2.2
      (acc.1 ++ r.1, acc.2.1 ++ r.2.1, r.2.2)) (([], [], s) : Bytes × List Nat × State)
    (regionSize s 3 = 0 → exec (.healthRead e q j) s₀ = .next (charge (traffic s) (complete q d (refusedWith 0xE6) s))) ∧
    (regionSize s 3 ≠ 0 → good → exec (.healthRead e q j) s₀ = .next (charge (traffic s) (complete q d
      { status := if got.2.1.isEmpty then Code.ok else Code.pageUnrecoverable, word := 8 * d.f 12 4, quad := 8 * d.f 12 4 * 32 }
      (hostWrite (d.f 24 8) got.1 (got.2.1.foldl (fun s a => rewriteHealth a s) got.2.2))))) ∧
    (regionSize s 3 ≠ 0 → ¬ good → exec (.healthRead e q j) s₀ = .next (charge (traffic s) (complete q d (refusedWith 0xE3) s))))

/-- On a good range of whole chunks a SCRUB_RANGE not yet begun reads every page in order, counting those it corrects and escalating those
it cannot read, and a REPAIR_RANGE escalates every page in order, whether or not it decodes; a range with nothing left to wait for then
completes. A bad range completes as refused and no page is visited. One that has begun is not begun again. -/
def Obligations.ScrubAndRepairRanges : Prop :=
  ∀ (e : Env) (s₀ s : State) (q : Fin 16) (j : Nat) (d : Desc), applyEnv e s₀ = s →
    let waits := s.guard.ranges.any fun x => x.ring = q ∧ x.idx = j
    let bad := rangeBad s (d.f 8 1) (d.f 16 8) (d.f 24 8) 65536
    let page := fun n => regionBase s (d.f 8 1) + d.f 16 8 + n * 4096
    let begun := { s with guard.ranges := s.guard.ranges ++ [{ ring := q, idx := j }] }
    (descAt s q j Op.scrubRange d = true →
      (waits = false → bad = none → exec (.scrubRange e q j) s₀ = .next (charge (traffic s) (finishRanges
        ((List.range (d.f 24 8 / 4096)).foldl (fun s n => scrubPage (d.f 8 1) (page n) (.descriptor q j) s) begun)))) ∧
      (∀ c, waits = false → bad = some c → exec (.scrubRange e q j) s₀ = .next (charge (traffic s) (complete q d (refusedWith c) s))) ∧
      (waits = true → exec (.scrubRange e q j) s₀ = .next (charge (traffic s) s))) ∧
    (descAt s q j Op.repairRange d = true →
      (waits = false → bad = none → exec (.repairRange e q j) s₀ = .next (charge (traffic s) (finishRanges
        ((List.range (d.f 24 8 / 4096)).foldl (fun s n => escalate (d.f 8 1) (page n) (.descriptor q j) s) begun)))) ∧
      (∀ c, waits = false → bad = some c → exec (.repairRange e q j) s₀ = .next (charge (traffic s) (complete q d (refusedWith c) s))) ∧
      (waits = true → exec (.repairRange e q j) s₀ = .next (charge (traffic s) s)))

/-- SNAP_POND: refused with the code that applies; else, while the pond is held or a copy runs, it waits; else the copy begins.
SNAP_DRAIN, while no drain is in progress: with wait-for-next it is recorded and waits, with 0 it begins, with any other value it is
refused with 0xE3; while one is in progress it waits. SNAP_EXPORT of a written entry that fits copies the shard's bytes up to the first
unit of flash that cannot be read, and completes with OK where all could be read and fit their checksum, PAGE_UNRECOVERABLE otherwise; too
small a buffer is refused with 0xE5 and the length, an entry that is not written with 0xE4, a bad slot number or alignment with 0xE3.
SNAP_MANIFEST of a valid slot copies the manifest and its table; too small a buffer is refused with 0xE5, the length and the Sequence, a
bad number or alignment with 0xE3, and a slot that is not valid answers MANIFEST_INCOMPLETE. A good STREAM_WINDOW not yet begun is
recorded and goes on as background work; a bad one completes as refused. -/
def Obligations.SnapshotDescriptors : Prop :=
  (∀ (e : Env) (s₀ s : State) (q : Fin 16) (j : Nat) (d : Desc), applyEnv e s₀ = s → descAt s q j Op.snapPond d = true →
    (∀ c, snapPondBad s = some c → exec (.snapPond e q j) s₀ = .next (charge (traffic s) (complete q d (refusedWith c) s))) ∧
    (∀ p, snapPondBad s = none → s.plans.standby = some p → s.pond.held = false → s.pond.copy = none → exec (.snapPond e q j) s₀ =
      .next (charge (traffic s) { startCopy p s with pond.copy := some { turn := none, plan := some p, ring := q, idx := j } })) ∧
    (∀ p, snapPondBad s = none → s.plans.standby = some p → s.pond.held = true ∨ s.pond.copy.isSome = true →
      exec (.snapPond e q j) s₀ = .next (charge (traffic s) s))) ∧
  (∀ (e : Env) (s₀ s : State) (q : Fin 16) (j : Nat) (d : Desc), applyEnv e s₀ = s → descAt s q j Op.snapDrain d = true →
    (s.pond.drain = none →
      (d.f 8 1 = 1 → exec (.snapDrain e q j) s₀ =
        .next (charge (traffic s) { s with pond.drain := some { ring := q, idx := j, waitNext := true } })) ∧
      (d.f 8 1 = 0 → exec (.snapDrain e q j) s₀ = .next (charge (traffic s) (beginDrain { ring := q, idx := j, waitNext := false } s))) ∧
      (1 < d.f 8 1 → exec (.snapDrain e q j) s₀ = .next (charge (traffic s) (complete q d (refusedWith 0xE3) s)))) ∧
    (s.pond.drain.isSome = true → exec (.snapDrain e q j) s₀ = .next (charge (traffic s) s))) ∧
  (∀ (e : Env) (s₀ s : State) (q : Fin 16) (j : Nat) (d : Desc), applyEnv e s₀ = s → descAt s q j Op.snapExport d = true →
    let good := d.f 8 1 < 8 ∧ d.f 24 8 % 64 = 0 ∧ d.f 32 8 % 64 = 0
    let ends := fun (r : Result) (t : State) => exec (.snapExport e q j) s₀ = .next (charge (traffic s) (refreshSlots (complete q d r t)))
    (∀ off stored sum chunks, good → slotValid s (d.f 8 1) = true → writtenEntry s (d.f 8 1) (d.f 16 4) = some (off, stored, sum, chunks) →
      let a := slotBase s (d.f 8 1) + off
      let bs := flashRead s a stored
      (stored ≤ d.f 32 8 → ends
        { status := if unitsGood s a stored && crc32c bs = sum then Code.ok else Code.pageUnrecoverable,
          detail := d.f 8 1, word := d.f 16 4, quad := stored } (hostWrite (d.f 24 8) (bs.take (goodBytes s.badUnits a stored)) s)) ∧
      (d.f 32 8 < stored → ends { refusedWith 0xE5 with word := d.f 16 4, quad := stored } s)) ∧
    (good → slotValid s (d.f 8 1) = false ∨ writtenEntry s (d.f 8 1) (d.f 16 4) = none → ends (refusedWith 0xE4) s) ∧
    (¬ good → ends (refusedWith 0xE3) s)) ∧
  (∀ (e : Env) (s₀ s : State) (q : Fin 16) (j : Nat) (d : Desc), applyEnv e s₀ = s → descAt s q j Op.snapManifest d = true →
    let good := d.f 8 1 < 8 ∧ d.f 24 8 % 64 = 0 ∧ d.f 32 8 % 64 = 0
    let need := 4096 + roundUp (32 * tableCount (manifestOf s (d.f 8 1))) 4096
    let ends := fun (r : Result) (t : State) => exec (.snapManifest e q j) s₀ = .next (charge (traffic s) (complete q d r t))
    (good → slotValid s (d.f 8 1) = true →
      (need ≤ d.f 32 8 → ends { detail := d.f 8 1, word := need, quad := slotSeq s (d.f 8 1) }
        (hostWrite (d.f 24 8) (flashRead s (slotBase s (d.f 8 1)) need) s)) ∧
      (d.f 32 8 < need → ends { refusedWith 0xE5 with word := need, quad := slotSeq s (d.f 8 1) } s)) ∧
    (good → slotValid s (d.f 8 1) = false → ends { status := Code.manifestIncomplete, detail := d.f 8 1 } s) ∧
    (¬ good → ends (refusedWith 0xE3) s)) ∧
  (∀ (e : Env) (s₀ s : State) (q : Fin 16) (j : Nat) (d : Desc), applyEnv e s₀ = s → descAt s q j Op.streamWindow d = true →
    (s.pond.streams.any fun x => x.ring = q ∧ x.idx = j) = false →
    (streamBad s d = none → exec (.streamWindow e q j) s₀ =
      .next (charge (traffic s) { s with pond.streams := s.pond.streams ++ [{ ring := q, idx := j }] })) ∧
    (∀ c, streamBad s d = some c → exec (.streamWindow e q j) s₀ =
      .next (charge (traffic s) (refreshSlots (complete q d (refusedWith c) s)))))

/-- A RESTORE_SCAN whose catalogue fits writes it to the buffer and completes with its count and length; one that does not fit is refused
with 0xE5, the count and the length, and one that is misaligned or names more than 64 objects with 0xE3: neither changes anything else. A
RESTORE_LOAD while a plan is active or with no standby plan is refused with 0xE4, one whose logical table is incomplete with 0xE3; one of
which some run has no readable source completes with MIXED_STEP and the step, with its reads alone behind it; one whose runs all read lays
them down and completes with the step and the bytes written. A RESTORE_RESLICE refused before its map is read completes with the code and
all ones for the step; one whose map fails its checks completes with the status of the check and all ones; one whose map passes is in
force, with the vector of the candidates this chip can serve, and the choice begins. One that runs already is not begun again. -/
def Obligations.RestoreDescriptors : Prop :=
  (∀ (e : Env) (s₀ s : State) (q : Fin 16) (j : Nat) (d : Desc), applyEnv e s₀ = s → descAt s q j Op.restoreScan d = true →
    let good := d.f 8 8 % 64 = 0 ∧ d.f 16 8 % 64 = 0 ∧ d.f 24 8 % 64 = 0 ∧ d.f 32 1 ≤ 64
    let cat := catalogue s (scanObjects s d)
    (good → cat.2.length ≤ d.f 16 8 → exec (.restoreScan e q j) s₀ = .next (charge (traffic s) (complete q d
      { word := cat.1, quad := cat.2.length } (hostWrite (d.f 8 8) cat.2 { s with restore.state := 4, restore.status := Code.ok })))) ∧
    (good → d.f 16 8 < cat.2.length → exec (.restoreScan e q j) s₀ = .next (charge (traffic s) (complete q d
      { refusedWith 0xE5 with word := cat.1, quad := cat.2.length } s))) ∧
    (¬ good → exec (.restoreScan e q j) s₀ = .next (charge (traffic s) (complete q d (refusedWith 0xE3) s)))) ∧
  (∀ (e : Env) (s₀ s : State) (q : Fin 16) (j : Nat) (d : Desc), applyEnv e s₀ = s → descAt s q j Op.restoreLoad d = true →
    let from_ : State := { s with restore.spoiled := [], restore.writtenBytes := 0 }
    (planActive s = true ∨ s.plans.standby = none →
      exec (.restoreLoad e q j) s₀ = .next (charge (traffic s) (complete q d (refusedWith 0xE4) s))) ∧
    (∀ p, planActive s = false → s.plans.standby = some p →
      (logicalAll s p = false → exec (.restoreLoad e q j) s₀ = .next (charge (traffic s) (complete q d (refusedWith 0xE3) s))) ∧
      (∀ s', logicalAll s p = true → readRuns (ownSources s) (d.f 8 4) p (shardsOf s p) from_ = (none, s') →
        exec (.restoreLoad e q j) s₀ = .next (charge (traffic s) (complete q d { status := Code.mixedStep, word := d.f 8 4 }
          { s' with restore.state := 5, restore.status := Code.mixedStep, restore.lastStep := some (d.f 8 4) }))) ∧
      (∀ runs s', logicalAll s p = true → readRuns (ownSources s) (d.f 8 4) p (shardsOf s p) from_ = (some runs, s') →
        let done := loadRuns p (d.f 8 4) (ownSources s) runs s'
        exec (.restoreLoad e q j) s₀ = .next (charge (traffic s) (complete q d { word := d.f 8 4, quad := done.restore.writtenBytes }
          { done with restore.state := 4, restore.status := Code.ok }))))) ∧
  (∀ (e : Env) (s₀ s : State) (q : Fin 16) (j : Nat) (d : Desc), applyEnv e s₀ = s → descAt s q j Op.restoreReslice d = true →
    let m := hostRead s (d.f 8 8) (d.f 16 8)
    (s.restore.running = true → exec (.restoreReslice e q j) s₀ = .next (charge (traffic s) s)) ∧
    (∀ c, s.restore.running = false → resliceBad s d = some c → exec (.restoreReslice e q j) s₀ =
      .next (charge (traffic s) (complete q d { refusedWith c with word := 0xFFFFFFFF } s))) ∧
    (∀ st, s.restore.running = false → resliceBad s d = none → mapStatus s m (d.f 16 8) = (st, none) → exec (.restoreReslice e q j) s₀ =
      .next (charge (traffic s) (complete q d { status := st, detail := if st = Code.refusedPlan then 0xE3 else 1, word := 0xFFFFFFFF }
        { s with restore.state := 5, restore.status := st }))) ∧
    (∀ p, s.restore.running = false → resliceBad s d = none → mapStatus s m (d.f 16 8) = (Code.ok, some p) →
      let own := ownSources s
      let mine := (mapOf m).2.2.filter fun x => x.holder = here s
      let begun : State := { s with
        restore := { s.restore with
          running := true, state := 2, ring := q, idx := j, mapSum := field 16 4 m, candidates := (mapOf m).1, owners := (mapOf m).2.1,
          sources := (mapOf m).2.2, mapAddr := d.f 8 8, choiceAt := d.f 24 8, doneAt := d.f 32 8,
          vector := candidateVector s p (mapOf m).1 (mapOf m).2.1 (mapOf m).2.2, stale := !mine.all (sourceStands s own), kids := [],
          ownSent := false, verdictSent := false, missing := false, step := none, pieces := [], chunks := [], written := [], spoiled := [],
          recs := [], credits := [], credited := 0, writtenBytes := 0 },
        guard.scrubSuspended := true }
      exec (.restoreReslice e q j) s₀ =
        .next (charge (traffic s) (rebuildNow (refreshSlots begun) (pumpChoice false (refreshSlots begun))))))

/-- An FW_STAGE of a good package bound to this engine, with no activation pending, writes it at its place in the staging area of the
flash partition, where an image begins the list of parts anew and a patch joins it, and completes with the number of parts held and the
length; what was written reads back. One whose fields, header or segments are bad completes as refused with 0xE3, one met with an
activation pending with 0xE4, and one bound to another engine with IMAGE_BINDING and the check that failed: the flash and the list of
parts are then as before. Each leaves its status as the last one of OSE_FW_STATE. -/
def Obligations.PackageStaged : Prop :=
  (∀ (e : Env) (s₀ s : State) (q : Fin 16) (j : Nat) (d : Desc), applyEnv e s₀ = s → descAt s q j Op.fwStage d = true →
    let fields := d.f 8 8 % 64 = 0 ∧ d.f 16 4 % 4096 = 0 ∧ d.f 16 4 ≠ 0 ∧ d.f 16 4 ≤ 2 ^ 26 ∧
      (d.f 20 1 = 0 ∧ d.f 24 4 = 0 ∨ d.f 20 1 = 1 ∧ 1 ≤ d.f 24 4 ∧ d.f 24 4 ≤ 8)
    let b := hostRead s (d.f 8 8) (d.f 16 4)
    let whole := packOk b = true ∧ field 6 1 b = d.f 20 1 ∧ field 7 1 b = d.f 24 4 ∧ (d.f 20 1 = 0 → segmentsOk b = true)
    let parts := if d.f 24 4 = 0 then [0] else unionIdx s.fw.parts [d.f 24 4]
    let ends := fun (r : Result) (t : State) =>
      exec (.fwStageDesc e q j) s₀ = .next (charge (traffic s) (complete q d r { t with fw.lastStatus := r.status }))
    (fields → s.fw.activation = none → whole → bindFault s b = 0 →
      ends { detail := parts.length, word := d.f 16 4 } (flashWrite (partAddr 3 (d.f 24 4)) b { s with fw.parts := parts })) ∧
    (fields → s.fw.activation = none → whole → bindFault s b ≠ 0 → ends { status := Code.imageBinding, detail := bindFault s b } s) ∧
    (fields → s.fw.activation = none → ¬ whole → ends (refusedWith 0xE3) s) ∧
    (fields → s.fw.activation.isSome = true → ends (refusedWith 0xE4) s) ∧
    (¬ fields → ends (refusedWith 0xE3) s)) ∧
  (∀ (s : State) (a : Nat) (b : Bytes), Memory.wf s.flash = true → flashRead (flashWrite a b s) a b.length = b)

/-- A heard QUERY_STATUS queues a STATUS event that names its sequence number, and beyond that only the frame counters and the record of
the last frame change; a heard POLICY is recorded with its step; a heard FREEZE_JOB at an engine that is not frozen, with no commit
pending, freezes it: the instant and the phase are recorded, no turn is left accepted or waiting, the step in flight, the plans and the
basin code stay, no byte of HBM or host memory changes and no packet goes; at a frozen engine it only reports again. -/
def Obligations.StatusPolicyAndFreeze : Prop :=
  (∀ (e : Env) (s₀ s : State) (f : FrameHead), applyEnv e s₀ = s → heard s f .queryStatus = true →
    exec (.queryStatus e f) s₀ = .next (noted f .queryStatus (reportStatus f.seq (counted .queryStatus s)))) ∧
  (∀ (e : Env) (s₀ s : State) (f : FrameHead) (step pol : Nat), applyEnv e s₀ = s → heard s f (.policy step pol) = true →
    exec (.policy e f step pol) s₀ = .next (noted f (.policy step pol)
      { counted (.policy step pol) s with refill.policy := pol, refill.policyStep := step })) ∧
  (∀ (e : Env) (s₀ s : State) (f : FrameHead), applyEnv e s₀ = s → heard s f .freezeJob = true → s.refill.frozen = false → s.pendingCommit = false →
    NextWith (exec (.freezeJob e f) s₀) fun t =>
      t.refill.frozen = true ∧ t.refill.frozenAt = s.ht ∧ t.refill.phase = phaseOf s ∧ t.refill.state = 1 ∧ t.step.turns = [] ∧
      t.step.num = s.step.num ∧ t.hbm = s.hbm ∧ t.hostMem = s.hostMem ∧ t.sent = s.sent ∧ t.plans = s.plans ∧ t.basin = s.basin) ∧
  (∀ (e : Env) (s₀ s : State) (f : FrameHead), applyEnv e s₀ = s → heard s f .freezeJob = true → s.refill.frozen = true →
    exec (.freezeJob e f) s₀ = .next (noted f .freezeJob (reportFrozen f.seq (counted .freezeJob s))))

/-- A heard RELEASE_JOB that may take effect (releaseOk: then the engine is frozen, the instant lies 2 ms ahead or more, and kind 0 comes
before phase 4) is recorded for its instant; any other is ignored, with reason 3, and releases nothing. A heard BEGIN_REFILL of one part
with an ID that is not the one in force takes effect where it is valid, and is ignored with reason 2, cause 6 noted, where it is not; of
several parts the first to come is kept; a part that repeats the refill in force changes nothing but the frame counters. -/
def Obligations.ReleaseAndRefillMessages : Prop :=
  (∀ (e : Env) (s₀ s : State) (f : FrameHead) (id kind instant first : Nat), applyEnv e s₀ = s →
    heard s f (.releaseJob id kind instant first) = true →
    let m : CulMsg := .releaseJob id kind instant first
    (releaseOk id kind instant (counted m s) = true → exec (.releaseJob e f id kind instant first) s₀ =
      .next (noted f m { counted m s with refill.release := some (kind, instant, first) })) ∧
    (releaseOk id kind instant (counted m s) = false → exec (.releaseJob e f id kind instant first) s₀ =
      .next (ignored 0x04 3 0 0 f.seq (counted m s)))) ∧
  (∀ (id kind instant : Nat) (s : State), releaseOk id kind instant s = true →
    s.refill.frozen = true ∧ s.ht + 2000000 ≤ instant ∧ kind ≤ 1 ∧ (kind = 0 → s.refill.phase < 4)) ∧
  (∀ (e : Env) (s₀ s : State) (part parts id committed commitAt startAt deadline : Nat) (lost : List Coord), applyEnv e s₀ = s →
    let m : CulMsg := .beginRefill part parts id committed commitAt startAt deadline lost
    let head : FrameHead := { seq := 0, tag := 0 }
    let whole : RefillMsg := ⟨id, committed, commitAt, startAt, deadline, lost⟩
    heard s head m = true → id ≠ 0 →
    (part = 0 → parts = 1 → id ≠ s.refill.lastId → lost ≠ [] → lost.length ≤ 13 →
      (refillValid whole (counted m s) = true → exec (.beginRefill e part parts id committed commitAt startAt deadline lost) s₀ =
        .next (noted head m (acceptRefill whole (counted m s)))) ∧
      (refillValid whole (counted m s) = false → exec (.beginRefill e part parts id committed commitAt startAt deadline lost) s₀ =
        .next (noted head m (ignored 0x05 2 0 0 0 { counted m s with refill.cause := 6, refill.parts := none })))) ∧
    (2 ≤ parts → parts ≤ 5 → part < parts → id ≠ s.refill.lastId → lost ≠ [] → lost.length ≤ 13 → s.refill.parts = none →
      exec (.beginRefill e part parts id committed commitAt startAt deadline lost) s₀ = .next (noted head m { counted m s with
        refill.parts := some { id := id, parts := parts, head := if part = 0 then some (committed, commitAt, startAt, deadline) else none,
                               got := [(part, lost)] } })) ∧
    (id = s.refill.lastId → exec (.beginRefill e part parts id committed commitAt startAt deadline lost) s₀ =
      .next (noted head m (counted m s))))

/-- A heard BASIN_MAP with a good axis byte and no commit pending stages the tag it carries (none for tag 0), the extents, the coordinate,
the agreement tree and the geometry, records its plan ID and axis byte, and names the culvert as the last writer; no value in force and no
byte of HBM changes. One with another axis byte, or met while a commit is pending, is ignored with reason 7 and stages nothing. -/
def Obligations.BasinMapStages : Prop :=
  ∀ (e : Env) (s₀ s : State) (f : FrameHead) (extent coord tree geom axis planId : Nat), applyEnv e s₀ = s →
    let m : CulMsg := .basinMap extent coord tree geom axis planId
    heard s f m = true → f.tag < 2 ^ 16 →
    (s.pendingCommit = false → axis % 64 = 36 ∨ axis % 64 = 33 →
      NextWith (exec (.basinMap e f extent coord tree geom axis planId) s₀) fun t =>
        regNat t Reg.jobTag = (if f.tag = 0 then regNat s Reg.jobTag else f.tag) ∧ regNat t Reg.jobExtent = extent % 2 ^ 17 ∧
        regNat t Reg.jobCoord = coord % 2 ^ 14 ∧ regNat t Reg.agreeTree = tree % 65536 ∧ regNat t Reg.basinGeom = geom % 65536 ∧
        t.refill.mapPlanId = planId ∧ t.job.axisStaged = some (axis % 64) ∧ t.lastWriter = true ∧
        (∀ off ∈ shadowRegs, regGet t (inForce off) = regGet s (inForce off)) ∧ t.hbm = s.hbm) ∧
    (s.pendingCommit = true ∨ (axis % 64 ≠ 36 ∧ axis % 64 ≠ 33) →
      exec (.basinMap e f extent coord tree geom axis planId) s₀ = .next (ignored 0x02 7 0 0 f.seq (counted m s)))

/-- A heard MODE_CHANGE with a tag, of a higher epoch, mode 0 or 1 and an instant 1 ms ahead or more, at a live engine with none pending,
is pending for its instant; at an engine that is not live, one that fits the refill accepted there is kept as its companion and any other
is ignored with reason 6. A heard START that meets R336 makes this chip the root: it stages the start and broadcasts it; any other is
ignored with reason 4. A heard START_ABORT for the start staged undoes it, before its instant, at a chip that is not the root, and makes
the root, before its deadline and decision, broadcast ABORT; too late for that, or with no such start staged, it is ignored with reason 5. -/
def Obligations.StartAndModeMessages : Prop :=
  (∀ (e : Env) (s₀ s : State) (f : FrameHead) (epoch instant mode flags : Nat), applyEnv e s₀ = s →
    let m : CulMsg := .modeChange epoch instant mode flags
    let x : PendingMode := { epoch := epoch, instant := instant, mode := mode, flags := flags }
    heard s f m = true → f.tag ≠ 0 → s.job.pendingMode = none →
    (s.job.live = true → mode < 2 → s.job.epoch < epoch → s.ht + 1000000 ≤ instant → exec (.modeChange e f epoch instant mode flags) s₀ =
      .next (noted f m { counted m s with job.pendingMode := some x })) ∧
    (s.job.live = false →
      (companionOk x (counted m s) = true → exec (.modeChange e f epoch instant mode flags) s₀ =
        .next (noted f m { counted m s with job.pendingMode := some { x with companion := true } })) ∧
      (companionOk x (counted m s) = false → exec (.modeChange e f epoch instant mode flags) s₀ =
        .next (ignored 0x07 6 0 0 f.seq (counted m s))))) ∧
  (∀ (e : Env) (s₀ s : State) (f : FrameHead) (chips epoch instant deadline bound treeA treeB : Nat), applyEnv e s₀ = s →
    let m : CulMsg := .start chips epoch instant deadline bound treeA treeB
    let x : StartFields := ⟨chips, f.tag, here (counted m s), epoch, instant, deadline, bound, treeA, treeB⟩
    heard s f m = true →
    (rootOk (counted m s) f.tag x = true → exec (.start e f chips epoch instant deadline bound treeA treeB) s₀ =
      .next (noted f m (broadcastStart 0 x
        { counted m s with job := { s.job with staged := some { fields := x, isRoot := true, at_ := s.ht }, isRoot := true, conflicted := none } }))) ∧
    (rootOk (counted m s) f.tag x = false → exec (.start e f chips epoch instant deadline bound treeA treeB) s₀ =
      .next (ignored 0x08 4 0 0 f.seq (counted m s)))) ∧
  (∀ (e : Env) (s₀ s : State) (f : FrameHead), applyEnv e s₀ = s → heard s f .startAbort = true →
    let late := ignored 0x09 5 0 0 f.seq (counted .startAbort s)
    (∀ x, s.job.staged = some x → x.fields.tag = f.tag →
      (x.isRoot = false → s.ht < x.fields.instant → exec (.startAbort e f) s₀ =
        .next (noted f .startAbort { counted .startAbort s with job.staged := none })) ∧
      (x.isRoot = true → s.ht < x.fields.deadline → x.decided = false → exec (.startAbort e f) s₀ =
        .next (noted f .startAbort (broadcastStart 2 x.fields
          { counted .startAbort s with job.staged := some { x with decided := true, outcome := 2 } }))) ∧
      (x.isRoot = false → x.fields.instant ≤ s.ht → exec (.startAbort e f) s₀ = .next late) ∧
      (x.isRoot = true → x.fields.deadline ≤ s.ht ∨ x.decided = true → exec (.startAbort e f) s₀ = .next late)) ∧
    ((∀ x, s.job.staged = some x → x.fields.tag ≠ f.tag) → exec (.startAbort e f) s₀ = .next late))

/-- A heard FIRMWARE_STAGE, with no trial and no activation under way, whose checks pass writes the parts to the standby bank, which
becomes staged with the version named, and reports it; one during a trial or an activation, and one whose checks fail, leaves the flash
and the banks as they are. A heard FIRMWARE_ACTIVATE of the staged or previous version, with no trial and no activation under way, is
pending until its deadline; any other is ignored with reason 9. A heard FIRMWARE_CONFIRM of the version on trial confirms its bank and
keeps the other as the previous one; where none of that version is on trial it is ignored with reason 9. A CLEAR_DRY that reaches an
engine in dry mode with the engine's serial, and is no repeat, clears the start count and its cause and runs a start. -/
def Obligations.FirmwareMessages : Prop :=
  (∀ (e : Env) (s₀ s : State) (f : FrameHead) (action parts version : Nat) (digest : Bytes), applyEnv e s₀ = s →
    let m : CulMsg := .fwStage action parts version digest
    heard s f m = true →
    (∀ ps, inTrial (counted m s) = false → s.fw.activation = none → stageCheck (counted m s) action parts version digest = (0, ps) →
      let i := standbyIndex (counted m s)
      let written := (indexed 0 ps).foldl (fun s x => flashWrite (partAddr i x.1) x.2 s) (counted m s)
      exec (.firmwareStage e f action parts version digest) s₀ = .next (noted f m (fwEvent 0 action version 0 f.seq
        (writeJournal (setBank i { state := .staged, patches := ps.length - 1, version := version } written))))) ∧
    (inTrial (counted m s) = true ∨ s.fw.activation.isSome = true ∨ (stageCheck (counted m s) action parts version digest).1 ≠ 0 →
      NextWith (exec (.firmwareStage e f action parts version digest) s₀) fun t => t.flash = s.flash ∧ t.fw = s.fw)) ∧
  (∀ (e : Env) (s₀ s : State) (f : FrameHead) (version deadline : Nat), applyEnv e s₀ = s →
    let m : CulMsg := .fwActivate version deadline
    let b := bankAt (counted m s) (standbyIndex (counted m s))
    let may := (b.state = .staged ∨ b.state = .previous) ∧ b.version = version ∧ inTrial (counted m s) = false ∧ s.fw.activation = none
    heard s f m = true →
    (may → exec (.firmwareActivate e f version deadline) s₀ = .next (noted f m { counted m s with fw.activation := some (version, deadline) })) ∧
    (¬ may → exec (.firmwareActivate e f version deadline) s₀ = .next (ignored 0x0B 9 0 0 f.seq (counted m s)))) ∧
  (∀ (e : Env) (s₀ s : State) (f : FrameHead) (version : Nat) (a b : Bank), applyEnv e s₀ = s → heard s f (.fwConfirm version) = true →
    s.fw.banks = [a, b] → a.state = .confirmed →
    (b.state = .trial → b.version = version → NextWith (exec (.firmwareConfirm e f version) s₀) fun t =>
      t.fw.banks = [{ a with state := .previous }, { b with state := .confirmed }] ∧ t.fw.unconfirmed = false ∧ t.hbm = s.hbm) ∧
    (b.state ≠ .trial ∨ b.version ≠ version → exec (.firmwareConfirm e f version) s₀ =
      .next (ignored 0x0C 9 0 0 f.seq (counted (.fwConfirm version) s)))) ∧
  (∀ (e : Env) (s₀ s : State) (f : FrameHead) (serial : Nat) (st : StartIn), applyEnv e s₀ = s →
    let m : CulMsg := .clearDry serial
    awake s = true → s.dry = true → s.restarting = [] → f.format = 2 →
    (s.culvert.acted.find? fun a => a.1 = culType m) ≠ some (culType m, f.tag, m) → serial = s.fw.serial % 2 ^ 32 →
    let c := counted m s
    let u := runStart st (writeJournal { c with
      scratch := { c.scratch with count := 0, dry := false, cause := 0 }, culvert := { c.culvert with acted := [], heldFrames := [] } })
    exec (.clearDry e f serial st) s₀ = .next (if u.ready || u.dry then noted f m u else u))

/-- Outside E3 and outside a start, a frame with a bad CRC counts in OSE_CUL_BAD_CRC and one of an unknown type in OSE_CUL_UNKNOWN; a
frame of another format counts in OSE_CUL_UNKNOWN and queues an IGNORED event with reason 12 and its format byte. Each wakes the engine as
any frame does, and changes nothing else; an engine in E0 with no transition under way has nothing to wake from. -/
def Obligations.BadFramesCounted : Prop :=
  (∀ (e : Env) (s₀ s : State), applyEnv e s₀ = s → s.power.state ≠ 3 → s.ready = true ∨ s.dry = true →
    exec (.culvertBadFrame e .crc) s₀ = .next (count Reg.culBadCrc 1 (wakeFrame false s)) ∧
    (∀ type, exec (.culvertBadFrame e (.unknownType type)) s₀ = .next (count Reg.culUnknown 1 (wakeFrame false s))) ∧
    (∀ type format seq, exec (.culvertBadFrame e (.format type format seq)) s₀ =
      .next (ignored type 12 format 0 seq (count Reg.culUnknown 1 (wakeFrame (decide (type = 1)) s))))) ∧
  (∀ (s : State) (query : Bool), awake s = true → wakeFrame query s = s)

/-- While frames may go, the oldest queued event goes with the next sequence number and the number lost since the last, unless 20,000 went
in the last second; while heartbeats are on, one goes where 1 ms or more has passed since the last, with its own count and the engine's
status. Each counts in OSE_CUL_TX. In dry mode, in E0 and E1, a DRY event is queued again when 10 s have passed since the last. -/
def Obligations.FramesSent : Prop :=
  (∀ (e : Env) (s₀ s : State) (ev : Event) (rest : List Event), applyEnv e s₀ = s → culvertSends s = true → s.culvert.queue = ev :: rest →
    let recent := s.culvert.sentAt.filter fun t => decide (s.ht < t + 1000000000)
    (recent.length < 20000 → exec (.event e) s₀ = .next (count Reg.culTx 1 { s with culvert := { s.culvert with
      queue := rest, lost := 0, evSeq := (s.culvert.evSeq + 1) % 65536, sentAt := s.ht :: recent, txLast := 0x80,
      sent := s.culvert.sent ++ [.event ((s.culvert.evSeq + 1) % 65536) (min s.culvert.lost 65535) ev] } })) ∧
    (20000 ≤ recent.length → exec (.event e) s₀ = .next s)) ∧
  (∀ (e : Env) (s₀ s : State), applyEnv e s₀ = s → culvertSends s = true → s.culvert.heartbeats = true →
    (s.culvert.hbAt.all fun t => decide (t + 1000000 ≤ s.ht)) = true →
    let n := u32 (s.culvert.hbSeq + 1)
    exec (.heartbeat e) s₀ = .next (count Reg.culTx 1 { s with culvert := { s.culvert with
      hbSeq := n, hbAt := some s.ht, txLast := 0x81,
      sent := s.culvert.sent ++ [.heartbeat n s.ht (statusWord s) s.scratch.count (stepNum s) (committedWord s) s.culvert.evSeq s.job.epoch
        s.fw.runVersion (tagOf s)] } })) ∧
  (∀ (e : Env) (s₀ s : State), applyEnv e s₀ = s → s.dry = true → s.power.state < 2 → s.dryEventAt + 10000000000 ≤ s.ht →
    exec (.dryEventRepeat e) s₀ =
      .next (event 0x03 Code.dryMode 0 (le 1 s.scratch.count ++ le 1 s.scratch.cause) { s with dryEventAt := s.ht }))

/-- While the flume runs, a malformed packet (R50) counts in OSE_DROP_MALFORMED alone; a well-formed one of another job, or with no tag in
force, in OSE_DROP_FOREIGN; one of this job and another generation in OSE_DROP_STALE_GEN; one for a window from 57 up that no plan makes
valid, or for a window that does not exist, in OSE_DROP_UNMAPPED. No byte of memory changes, nothing is sent, and no other counter counts.
The drops after the first follow the order of R331. -/
def Obligations.IntakeDrops : Prop :=
  ∀ (e : Env) (s₀ s : State) (p : RawPkt), applyEnv e s₀ = s → flumeRuns s = true →
    let quiet := fun (reg : Nat) (t : State) =>
      regNat t reg = min (regNat s reg + 1) 0xFFFFFFFF ∧ RegsKept [reg, Reg.dropLastCause, Reg.dropLastLo, Reg.dropLastLo + 4] s t ∧
      wideGet t Reg.dropLastLo = headerQuad p.head p.cls p.len % 2 ^ 64 ∧ t.hbm = s.hbm ∧ t.check = s.check ∧ t.sent = s.sent ∧ t.basin = s.basin ∧ t.step = s.step
    (malformed p.cls p.len p.head.offset = true → NextWith (exec (.malformedPacket e p) s₀) (quiet Reg.dropMalformed)) ∧
    (malformed p.cls p.len p.head.offset = false →
      (tagOf s = 0 ∨ p.head.jobId ≠ jobIdOf s → NextWith (exec (.unmappedWindowPacket e p) s₀) (quiet Reg.dropForeign)) ∧
      (tagOf s ≠ 0 → p.head.jobId = jobIdOf s → p.head.gen ≠ genOf s →
        NextWith (exec (.unmappedWindowPacket e p) s₀) (quiet Reg.dropStaleGen)) ∧
      (tagOf s ≠ 0 → p.head.jobId = jobIdOf s → p.head.gen = genOf s → planActive s = false → (57 ≤ p.window ∨ p.window < 46) →
        NextWith (exec (.unmappedWindowPacket e p) s₀) (quiet Reg.dropUnmapped)))

/-- A delivered ACCUM_XOR page of the step in flight for a slot held for its sender: where the page has not come before, the slot is
present and the relay does not combine it, every byte of that page of HBM becomes its XOR with the payload, every other byte is as before,
the page is noted, and nothing is sent; where it has come before, or the chunk's bit is set, it only counts in OSE_BC_DUPLICATE; where the
step or the placement does not fit it only counts in OSE_BC_MISPLACED. -/
def Obligations.DeltaPageAccumulates : Prop :=
  ∀ (e : Env) (s₀ s : State) (h : PktHead) (bs : Bytes), applyEnv e s₀ = s → delivered s h 2 57 bs.length = true →
    let slot := h.offset / 65536
    let page := h.offset / 4096 % 16
    let fits := h.stepLow = stepNum s % 256 ∧ bs.length = 4096 ∧ h.offset % 4096 = 0 ∧ (unplace s slot).1 < plotChunks s
    (∀ c, fits → contribOf s slot h.sender = some c → arrived s slot c = false → (pendingOf s slot c).toNat.testBit page = false →
      isAbsent s slot = false → (basinMode s && isLocal s (unplace s slot).2) = false →
      NextWith (exec (.accumXor e h bs) s₀) fun t =>
        (∀ x, readByte t.hbm x = if bankAddr s slot page ≤ x ∧ x < bankAddr s slot page + 4096 then
            bs.getD (x - bankAddr s slot page) 0#8 ^^^ (readBytes s.hbm (bankAddr s slot page) 4096).getD (x - bankAddr s slot page) 0#8
          else readByte s.hbm x) ∧
        (pendingOf t slot c).toNat.testBit page = true ∧ t.sent = s.sent ∧ t.step = s.step ∧ t.hostMem = s.hostMem) ∧
    (∀ c, fits → contribOf s slot h.sender = some c → arrived s slot c = true ∨ (pendingOf s slot c).toNat.testBit page = true →
      exec (.accumXor e h bs) s₀ = .next (count Reg.bcDuplicate 1 s)) ∧
    (¬ fits ∨ contribOf s slot h.sender = none → exec (.accumXor e h bs) s₀ = .next (count Reg.bcMisplaced 1 s))

/-- A delivered CHUNK marker of the step in flight for a contribution whose pages are exactly its mask sets that arrival bit and owes the
sender an acknowledgement; a PROGRESS marker of a member sweeps its unmarked chunks below its position, where that is an advance; a FINAL
marker of a member sweeps them all and is noted, and a relay's likewise; an invalidate marker sets the bit and makes the slot absent, and
a local holder tells the global ones. A marker for a bit already set, and a CHUNK marker with another mask, only counts in
OSE_BC_DUPLICATE; a marker of another step, role or sender than these only in OSE_BC_MISPLACED. -/
def Obligations.MarkersSettleBits : Prop :=
  (∀ (e : Env) (s₀ s : State) (h : PktHead) (role : Nat) (mask : BitVec 16) (chunk position slot c : Nat), applyEnv e s₀ = s →
    delivered s h 6 59 16 = true → role ≤ 1 → markerSlot s (role = 1) chunk h.sender = some (slot, c) →
    (arrived s slot c = false → mask = pendingOf s slot c → exec (.chunkMarker e h (stepNum s) role mask chunk position) s₀ =
      .next (poke (checkComplete chunk (setArrived slot c { s with basin.owed := s.basin.owed ++ [((slot, c), h.sender, chunk)] })))) ∧
    (arrived s slot c = true ∨ mask ≠ pendingOf s slot c →
      exec (.chunkMarker e h (stepNum s) role mask chunk position) s₀ = .next (count Reg.bcDuplicate 1 s))) ∧
  (∀ (e : Env) (s₀ s : State) (h : PktHead) (position : Nat), applyEnv e s₀ = s → delivered s h 6 59 16 = true →
    memberSender s h.sender = true →
    (progressOf s (memberOf s h.sender) < min position (plotChunks s) →
      let u := sweepMember h.sender (min position (plotChunks s)) s
      exec (.progressMarker e h (stepNum s) 0 position) s₀ =
        .next (poke { u with basin.progress := putKey (memberOf s h.sender) (min position (plotChunks s)) u.basin.progress })) ∧
    (min position (plotChunks s) ≤ progressOf s (memberOf s h.sender) → exec (.progressMarker e h (stepNum s) 0 position) s₀ = .next (poke s)) ∧
    (∀ u, u = takeProgress h.sender (plotChunks s) s → exec (.finalMarker e h (stepNum s) 0) s₀ =
      .next (poke { u with basin.finals := unionIdx u.basin.finals [memberOf u h.sender] }))) ∧
  (∀ (e : Env) (s₀ s : State) (h : PktHead), applyEnv e s₀ = s → delivered s h 6 59 16 = true → basinMode s = true → isRowMate s h.sender = true →
    let u := sweepRelay h.sender s
    exec (.finalMarker e h (stepNum s) 1) s₀ =
      .next (poke { u with basin.relayFinals := unionIdx u.basin.relayFinals [memberOf u h.sender] })) ∧
  (∀ (e : Env) (s₀ s : State) (h : PktHead) (chunk position j slot c : Nat) (mask : BitVec 16), applyEnv e s₀ = s →
    delivered s h 6 59 16 = true → chunk < plotChunks s → heldParity s chunk = some (j, slot) → contribOf s slot h.sender = some c →
    (arrived s slot c = false →
      let u := makeAbsent slot (setArrived slot c s)
      let noted_ := { u with basin.invalid := unionIdx u.basin.invalid [chunk], refill.rebuildDue := true }
      let told := if basinMode noted_ && isLocal noted_ j then
        (List.range (geoG noted_)).foldl (fun s g => sendMarker (rowHolder s chunk (groupsOf s + g)) 0 2 0 chunk (posOf s chunk) s) noted_ else noted_
      exec (.invalidateMarker e h (stepNum s) chunk mask position) s₀ = .next (poke (checkComplete chunk told))) ∧
    (arrived s slot c = true → exec (.invalidateMarker e h (stepNum s) chunk mask position) s₀ = .next (count Reg.bcDuplicate 1 s))) ∧
  (∀ (e : Env) (s₀ s : State) (h : PktHead) (step role chunk position : Nat) (mask : BitVec 16), applyEnv e s₀ = s →
    delivered s h 6 59 16 = true →
    (step ≠ stepNum s ∨ 1 < role ∨ markerSlot s (role = 1) chunk h.sender = none →
      exec (.chunkMarker e h step role mask chunk position) s₀ = .next (count Reg.bcMisplaced 1 s)) ∧
    (step ≠ stepNum s ∨ role ≠ 0 ∨ memberSender s h.sender = false →
      exec (.progressMarker e h step role position) s₀ = .next (count Reg.bcMisplaced 1 s)) ∧
    (step ≠ stepNum s ∨ (role = 0 ∧ memberSender s h.sender = false) ∨ 1 < role ∨
      (role = 1 ∧ (basinMode s = false ∨ isRowMate s h.sender = false)) →
      exec (.finalMarker e h step role) s₀ = .next (count Reg.bcMisplaced 1 s)) ∧
    (step ≠ stepNum s ∨ plotChunks s ≤ chunk ∨ (∀ j slot, heldParity s chunk = some (j, slot) → contribOf s slot h.sender = none) →
      exec (.invalidateMarker e h step chunk mask position) s₀ = .next (count Reg.bcMisplaced 1 s)))

/-- A delivered ACK of the step in flight from a holder frees the issued undo entries it names and takes its limit; one from a chip of
this row that is no holder of this bank is noted on the relay's slots that it names; one of another step or from any other chip only
counts in OSE_BC_MISPLACED. When an entry for a chip that no hold keeps back has waited 4 microseconds, the flush sends that chip's
entries (flushAck); before that nothing happens. While the update of a coded step has begun and is not stopped, the progress timer sends
what a PROGRESS marker has to say (sendProgress). -/
def Obligations.AcknowledgementsAndTimers : Prop :=
  (∀ (e : Env) (s₀ s : State) (h : PktHead) (k : AckBody), applyEnv e s₀ = s → delivered s h 5 58 (ackBodyBytes k).length = true →
    (∀ b, k.step = stepNum s → bankPosition s h.sender = some b → exec (.ack e h k) s₀ = .next (poke { s with
      basin.undo := s.basin.undo.filter fun u => !(u.issued && k.entries.contains u.stripe &&
        (mirrorMode s || (place s u.stripe (memberOf s (here s) / 4)).1 == b)),
      basin.limits := if k.limit = 0xFFFFFFFF then s.basin.limits else putKey b k.limit s.basin.limits })) ∧
    (k.step = stepNum s → bankPosition s h.sender = none → isRowMate s h.sender = true → exec (.ack e h k) s₀ = .next (poke { s with
      basin.relays := s.basin.relays.map fun x =>
        if k.entries.contains x.stripe ∧ x.sentTo.contains (memberOf s h.sender) then
          { x with ackedBy := unionIdx x.ackedBy [memberOf s h.sender] } else x })) ∧
    (k.step ≠ stepNum s ∨ (bankPosition s h.sender = none ∧ isRowMate s h.sender = false) →
      exec (.ack e h k) s₀ = .next (count Reg.bcMisplaced 1 s))) ∧
  (∀ (e : Env) (s₀ s : State) (dest : Coord), applyEnv e s₀ = s → flumeRuns s = true → s.refill.frozen = false →
    ((s.basin.acks.any fun a => a.dest = dest && ackDue s a) = true → exec (.ackFlush e dest) s₀ = .next (flushAck dest s)) ∧
    ((s.basin.acks.any fun a => a.dest = dest && ackDue s a) = false → exec (.ackFlush e dest) s₀ = .next s)) ∧
  (∀ (s : State) (a : AckQueue), ackDue s a = true → ∃ x ∈ a.entries, x.2 + 4000 ≤ s.ht) ∧
  (∀ (e : Env) (s₀ s : State) (dest : Coord) (b : Nat), applyEnv e s₀ = s → flumeRuns s = true → s.refill.frozen = false → codedMode s = true →
    s.step.updBegun = true → s.basin.stopped = false → bankPosition s dest = some b →
    exec (.progressTimer e dest) s₀ = .next (sendProgress b false s))

/-- A delivered contribution of a child, before this chip's own has gone and in no step run again, is kept and the agreement goes on; one
of another chip, or after this chip's own has gone, changes nothing. A delivered committed verdict for the step in flight commits it with
the verdict's instant; an incomplete one, where no verdict is held, leaves it as it is and reports it; a catch-up for the step in flight
commits it without announcing a start, and for any other step changes nothing; a committed or incomplete verdict for another step changes
nothing. From its cut-off on a member's agreement goes on with what it holds, and from a route bound before the end on the root of an open
agreement sends its incomplete verdict. -/
def Obligations.AgreementPackets : Prop :=
  (∀ (e : Env) (s₀ s : State) (h : PktHead) (k : Contribution), applyEnv e s₀ = s → delivered s h 1 60 32 = true →
    ((agreeKids s).contains h.sender = true → s.agree.ownSent = false → s.step.released = false →
      exec (.agreementContribution e h k) s₀ = .next (pumpAgree false { s with agree.kids := putKey h.sender k s.agree.kids })) ∧
    ((agreeKids s).contains h.sender = false ∨ s.agree.ownSent = true → exec (.agreementContribution e h k) s₀ = .next s)) ∧
  (∀ (e : Env) (s₀ s : State) (h : PktHead) (v : Verdict), applyEnv e s₀ = s → delivered s h 7 60 32 = true →
    (v.step = stepNum s → v.verdict = 0 →
      exec (.agreeVerdict e h v) s₀ = .next (dropLease (commitStep v.commitAt true { s with agree.verdict := some v }))) ∧
    (v.step = stepNum s → v.verdict = 1 → s.agree.verdict = none →
      exec (.agreeVerdict e h v) s₀ = .next (dropLease (reportIncomplete v.firstInc { s with agree.verdict := some v }))) ∧
    (v.verdict = 2 → v.step = stepNum s → committedWord s + 1 = v.step → exec (.agreeVerdict e h v) s₀ = .next (dropLease (commitStep v.commitAt false s))) ∧
    (v.step ≠ stepNum s → exec (.agreeVerdict e h v) s₀ = .next (dropLease s))) ∧
  (∀ (e : Env) (s₀ s : State), applyEnv e s₀ = s → flumeRuns s = true →
    (agreeCutoff s ≤ s.ht → exec (.commitCutoff e) s₀ = .next (pumpAgree true s)) ∧
    (s.ht < agreeCutoff s → exec (.commitCutoff e) s₀ = .next s)) ∧
  (∀ (e : Env) (s₀ s : State), applyEnv e s₀ = s → flumeRuns s = true → s.agree.open_ = true → agreeParent s = none →
    s.agree.verdictSent = false → s.refill.frozen = false → s.agree.endAt - (hopOf s - 4000) ≤ s.ht →
    exec (.commitRootTimeout e) s₀ = .next (sendIncomplete s))

/-- The commit of step s with its next start announced: s is the committed step with the verdict's instant, s + 1 is in flight, the
polarity has turned, the start lies the plan's lead after the commit, the undo log and the reduction are empty, the live offer stands, and
no byte of the plot or of the bank shares has changed, where no refill and no deferred repair waits. -/
def Obligations.CommitOfAStep : Prop :=
  ∀ (s : State) (commitAt : Nat), s.refill.state = 0 → s.guard.attempts = [] → 
    let t := commitStep commitAt true s
    t.step.committed = some s.step.num ∧ t.step.commitAt = commitAt ∧ t.step.num = s.step.num + 1 ∧ t.step.polarity = !s.step.polarity ∧
    t.step.nextAt = commitAt + (s.plans.active.map Plan.lead).getD 0 ∧ t.step.announced = true ∧ t.basin.undo = [] ∧ t.red = {} ∧ t.upd = {} ∧
    t.restore.liveOffer = true ∧ t.plans.active = s.plans.active ∧ t.hbm = s.hbm

/-- A member that holds no verdict a route bound after the end of the agreement reports COMMIT_INCOMPLETE: the run of the COMMIT turn has
that outcome, OSE_BC_NO_VERDICT counts it, a STEP event is queued, bit 3 of OSE_EVENTS is set, and its state is left as R37 provides: the
step in flight, the committed step, the undo log and every byte of memory are as they were. -/
def Obligations.NoVerdict : Prop :=
  ∀ (e : Env) (s₀ s : State), applyEnv e s₀ = s → flumeRuns s = true → s.agree.open_ = true → s.agree.verdict = none →
    s.refill.frozen = false → s.agree.endAt + (hopOf s - 4000) ≤ s.ht → s.culvert.queue.length < 64 →
    NextWith (exec (.noVerdict e) s₀) fun t =>
      regNat t Reg.bcNoVerdict = min (regNat s Reg.bcNoVerdict + 1) 0xFFFFFFFF ∧ (regNat t Reg.events).testBit 3 = true ∧
      (∃ detail, t.culvert.queue = s.culvert.queue ++ [⟨0x09, Code.commitIncomplete, 0, s.ht, detail, tagOf s⟩]) ∧
      (∀ r ∈ t.step.turns, r.kind = Kind.commit → r.step = s.step.num → r.outcome = Code.commitIncomplete) ∧
      t.step.num = s.step.num ∧ t.step.committed = s.step.committed ∧ t.basin = s.basin ∧ t.upd = s.upd ∧ t.hbm = s.hbm ∧ t.check = s.check ∧
      t.agree.open_ = false

/-- A delivered upward frame that is judged good, of a collective that is not aborted: before its cut-off, with the reach not closed to
its sender and the frame not sent before, it is added into its frame with its count, its fault flag is kept with the reach, and the
reduction goes on; sent before, it changes nothing; late, it only counts in OSE_RED_LATE. An upward record likewise adds its members and
marks the child's record in. A path-1 root's final frame whose sender, reach and digest fit is held at the path-0 root with its count and
lanes, and the reach is settled as far as it can be; one held already changes nothing, and one that comes after the comparison counts as
late. An upward frame or record that is not judged good is counted or passed over (judgedAway). -/
def Obligations.ContributionsCombined : Prop :=
  (∀ (e : Env) (s₀ s : State) (h : PktHead) (body : Payload) (p : Prefix) (ls : List Lane) (es : List Int), applyEnv e s₀ = s →
    frameParts body = some (p, ls, es) → p.down = false → p.record = false → p.abort = false →
    delivered s h 4 (frameWindow p) (wireLen s body) = true →
    judgedAway p (judgePacket s p h.sender false h.offset) s (exec (.partialFrame e h body) s₀) ∧
    (∀ i f, judgePacket s p h.sender false h.offset = 3 → infoOf s { keyOf p with path1 := false, retry := false } = some i →
      s.red.aborted.contains p.coll = false → frameNamed s (keyOf p) i h.offset = some f →
      let k := keyOf p
      let m := memberIn s i.box h.sender
      let closed := (reachAt s k).any fun r => r.closed || r.cut.contains m
      let twice := (reachAt s k).any fun r => r.frames.any fun a => a.f = f && a.kids.contains m
      let added := addInto k f p.count (some m)
        (if k.scale then [] else fitTo (i.frameLen f) ⟨0, 0⟩ ls) (if k.scale then fitTo (i.frameLen f) 0 es else []) (openFor k i s)
      (closed = false → s.ht ≤ cutoffAt s k i → twice = false → exec (.partialFrame e h body) s₀ =
        .next (pumpReduction (if p.fault then updReach k (fun r => { r with fault := true }) added else added))) ∧
      (closed = false → s.ht ≤ cutoffAt s k i → twice = true → exec (.partialFrame e h body) s₀ = .next s) ∧
      (closed = true ∨ cutoffAt s k i < s.ht → exec (.partialFrame e h body) s₀ = .next (count Reg.redLate 1 s)))) ∧
  (∀ (e : Env) (s₀ s : State) (h : PktHead) (p : Prefix) (bitmap : List Nat), applyEnv e s₀ = s → p.down = false →
    p.record = true → p.abort = false → delivered s h 4 63 (wireLen s (.upRecord p bitmap)) = true →
    judgedAway p (judgePacket s p h.sender false 0) s (exec (.partialRecord e h p bitmap) s₀) ∧
    (∀ i, judgePacket s p h.sender false 0 = 3 → infoOf s { keyOf p with path1 := false, retry := false } = some i →
      s.red.aborted.contains p.coll = false →
      let k := keyOf p
      let m := memberIn s i.box h.sender
      let closed := (reachAt s k).any fun r => r.closed || r.cut.contains m
      (closed = false → s.ht ≤ cutoffAt s k i → exec (.partialRecord e h p bitmap) s₀ = .next (pumpReduction (updReach k (fun r => { r with
        records := unionIdx r.records [m], bitmap := unionIdx r.bitmap (bitmap.filter (· < i.box.size)), fault := r.fault || p.fault })
        (openFor k i s)))) ∧
      (closed = true ∨ cutoffAt s k i < s.ht → exec (.partialRecord e h p bitmap) s₀ = .next (count Reg.redLate 1 s)))) ∧
  (∀ (e : Env) (s₀ s : State) (h : PktHead) (p : Prefix) (ls : List Lane) (i : RInfo) (f : Nat), applyEnv e s₀ = s →
    p.path = true → p.down = false → p.record = false → p.abort = false → 1572864 ≤ h.offset →
    delivered s h 4 62 (wireLen s (.lanes p ls)) = true → s.red.checkStarted = false →
    let k := { keyOf p with path1 := false }
    infoOf s { k with retry := false } = some i → i.dual = true → i.rootChip s false = here s → h.sender = i.rootChip s true → p.digest = i.digest →
    frameNamed s { k with path1 := true } i h.offset = some f → s.red.aborted.contains p.coll = false →
    let over_ := if k.retry then (reachAt s k).any fun r => r.closed else s.red.settled.contains (k.coll, k.reach)
    let held := { s with red.path1 := s.red.path1 ++
      [{ coll := k.coll, reach := k.reach, f := f, count := p.count, lanes := fitTo (i.frameLen f) ⟨0, 0⟩ ls, retry := k.retry }] }
    let marked := if p.fault then updReach k (fun r => { r with fault := true }) held else held
    (over_ = false → path1Of s k f = none → exec (.path1FinalFrame e h p ls) s₀ =
      .next (pumpReduction (if k.retry then marked else settleReach false k i marked))) ∧
    (over_ = false → (path1Of s k f).isSome = true → exec (.path1FinalFrame e h p ls) s₀ = .next (pumpReduction s)) ∧
    (over_ = true → exec (.path1FinalFrame e h p ls) s₀ = .next (pumpReduction (count Reg.redLate 1 s))))

/-- A delivered result frame that is judged good, of a collective that is not aborted, is taken as a result at its place (takeResult); a
delivered result record that is judged good is taken (takeRecord) and the reduction, with its retries, goes on; a retried frame judged
good is taken as a result on its way down, and on its way up, in time and not sent before, added into its frame. What is not judged good
is counted or passed over (judgedAway). Before CHECK has started, a delivered abort of a known collective from the root discards the
collective here, and one from a chip that may send one upward goes up, a digest that does not fit being counted beside it; one from any
other chip, or of no known collective, only counts in OSE_RED_DIGEST; after CHECK has started an abort changes nothing of the reduction. -/
def Obligations.ResultsTaken : Prop :=
  (∀ (e : Env) (s₀ s : State) (h : PktHead) (body : Payload) (p : Prefix) (ls : List Lane) (es : List Int), applyEnv e s₀ = s →
    frameParts body = some (p, ls, es) → p.down = true → p.record = false → p.abort = false → delivered s h 4 61 (wireLen s body) = true →
    judgedAway p (judgePacket s p h.sender true h.offset) s (exec (.resultFrame e h body) s₀) ∧
    (∀ i f, judgePacket s p h.sender true h.offset = 3 → infoOf s { keyOf p with path1 := false, retry := false } = some i →
      s.red.aborted.contains p.coll = false → frameNamed s (keyOf p) i h.offset = some f →
      exec (.resultFrame e h body) s₀ = .next (takeResult (keyOf p) i f p.count p.fault
        (if (keyOf p).scale then [] else fitTo (i.frameLen f) ⟨0, 0⟩ ls) (if (keyOf p).scale then fitTo (i.frameLen f) 0 es else []) s))) ∧
  (∀ (e : Env) (s₀ s : State) (h : PktHead) (p : Prefix) (r : ResultRec), applyEnv e s₀ = s → p.down = true → p.record = true →
    p.abort = false → delivered s h 4 63 (wireLen s (.resultRecord p r)) = true →
    judgedAway p (judgePacket s p h.sender true 0) s (exec (.resultRecord e h p r) s₀) ∧
    (∀ i, judgePacket s p h.sender true 0 = 3 → infoOf s { keyOf p with path1 := false, retry := false } = some i →
      s.red.aborted.contains p.coll = false →
      exec (.resultRecord e h p r) s₀ = .next (pumpReduction (takeRecord (keyOf p) i r p.fault s)))) ∧
  (∀ (e : Env) (s₀ s : State) (h : PktHead) (p : Prefix) (ls : List Lane), applyEnv e s₀ = s → p.retry = true → p.record = false →
    p.abort = false →
    (p.down = true → delivered s h 4 61 (wireLen s (.lanes p ls)) = true →
      judgedAway p (judgePacket s p h.sender true h.offset) s (exec (.retryFrame e h p ls) s₀)) ∧
    (p.down = false → delivered s h 4 (frameWindow p) (wireLen s (.lanes p ls)) = true →
      judgedAway p (judgePacket s p h.sender false h.offset) s (exec (.retryFrame e h p ls) s₀)) ∧
    (∀ i f, (keyOf p).scale = false → infoOf s { keyOf p with path1 := false, retry := false } = some i → s.red.aborted.contains p.coll = false →
      frameNamed s (keyOf p) i h.offset = some f →
      let k := keyOf p
      let m := memberIn s i.box h.sender
      let added := addInto k f p.count (some m) (fitTo (i.frameLen f) ⟨0, 0⟩ ls) [] (openFor k i s)
      (p.down = true → delivered s h 4 61 (wireLen s (.lanes p ls)) = true → judgePacket s p h.sender true h.offset = 3 →
        exec (.retryFrame e h p ls) s₀ = .next (takeResult k i f p.count p.fault (fitTo (i.frameLen f) ⟨0, 0⟩ ls) [] s)) ∧
      (p.down = false → delivered s h 4 (frameWindow p) (wireLen s (.lanes p ls)) = true → judgePacket s p h.sender false h.offset = 3 →
        ((reachAt s k).any fun r => r.closed || r.cut.contains m) = false → s.ht ≤ cutoffAt s k i →
        ((reachAt s k).any fun r => r.frames.any fun a => a.f = f && a.kids.contains m) = false →
        exec (.retryFrame e h p ls) s₀ =
          .next (pumpReduction (if p.fault then updReach k (fun r => { r with fault := true }) added else added))))) ∧
  (∀ (e : Env) (s₀ s : State) (h : PktHead) (p : Prefix), applyEnv e s₀ = s → p.abort = true → p.record = true →
    delivered s h 4 63 (wireLen s (.abortRecord p)) = true →
    (s.red.checkStarted = true → exec (.abortRecord e h p) s₀ = .next (pumpReduction s)) ∧
    (s.red.checkStarted = false → infoOf s { keyOf p with path1 := false, retry := false } = none →
      exec (.abortRecord e h p) s₀ = .next (pumpReduction (count Reg.redDigest 1 s))) ∧
    (∀ i, s.red.checkStarted = false → infoOf s { keyOf p with path1 := false, retry := false } = some i →
      let fits := ((keyOf p).path1 && !i.dual) = false ∧
        (p.down = true ∧ h.sender = i.rootChip s false ∨ p.down = false ∧ abortSender s p i h.sender = true)
      let s' := if p.digest ≠ i.digest then count Reg.redDigest 1 s else s
      (fits → p.down = true → exec (.abortRecord e h p) s₀ = .next (pumpReduction (discardColl (keyOf p) s'))) ∧
      (fits → p.down = false → exec (.abortRecord e h p) s₀ = .next (pumpReduction (abortUp { keyOf p with retry := false } s'))) ∧
      (¬ fits → exec (.abortRecord e h p) s₀ = .next (pumpReduction (count Reg.redDigest 1 s)))))

/-- While the reduction runs at a chip, a cut-off sends what the reaches of its turn, path and root hold and a deadline closes the reaches
of its turn that are rooted here, in both cases only reaches whose instant has passed and whose collective is not aborted; then the
reduction goes on. The two results of a reach are settled at its path-0 root, for good from two route bounds after the deadline on. A
retry is closed at its path-0 root from its deadline on. When the reduction no longer runs, the four leave the state as it is. -/
def Obligations.CutoffsAndDeadlines : Prop :=
  (∀ (e : Env) (s₀ s : State) (i root coll reach : Nat) (path1 : Bool), applyEnv e s₀ = s →
    (reduceRuns s = true →
      exec (.reduceCutoff e i path1 root) s₀ = .next (pumpReduction (cutTurn i path1 (fun inf => inf.root = root) s)) ∧
      exec (.reduceDeadline e i) s₀ = .next (pumpReduction (cutTurn i false (fun inf => inf.rootChip s false = here s) s)) ∧
      exec (.retryDeadline e) s₀ = .next ((rootRetries s).foldl (fun s ki =>
        if s.ht < deadlineAt s ki.1 ki.2 then s else retryClose ki.1 ki.2 (openFor ki.1 ki.2 s)) s)) ∧
    (reduceRuns s = false →
      exec (.reduceCutoff e i path1 root) s₀ = .next s ∧ exec (.reduceDeadline e i) s₀ = .next s ∧ exec (.retryDeadline e) s₀ = .next s ∧
      exec (.dualPathSettle e coll reach) s₀ = .next s)) ∧
  (∀ (k : RKey) (i : RInfo) (s : State), s.ht < cutoffAt s k i ∨ s.red.aborted.contains k.coll = true → cutReach k i s = s) ∧
  (∀ (e : Env) (s₀ s : State) (coll reach : Nat) (i : RInfo), applyEnv e s₀ = s → reduceRuns s = true →
    infoOf s { scale := false, coll := coll, reach := reach } = some i → i.rootChip s false = here s → s.red.aborted.contains coll = false →
    exec (.dualPathSettle e coll reach) s₀ = .next (pumpReduction (settleReach
      (decide (deadlineAt s { scale := false, coll := coll, reach := reach } i + 2 * (s.plans.active.map Plan.routeBound).getD 0 ≤ s.ht))
      { scale := false, coll := coll, reach := reach } i s)))

/-- When the announced step start has come at an engine that is not frozen, with no commit pending, the step in flight has the announced
number and start, its polarity is that of its number, the last commit is kept, the reduction and the update are empty, and no byte of
memory changes; with no plan active the step has no turns' start. -/
def Obligations.StepBegins : Prop :=
  ∀ (e : Env) (s₀ s : State) (n at_ : Nat), applyEnv e s₀ = s → flumeRuns s = true → s.refill.frozen = false → s.pendingCommit = false →
    dueStart s = some (n, at_) →
    NextWith (exec (.stepStart e) s₀) fun t =>
      t.step.num = n ∧ t.step.nextAt = at_ ∧ t.step.startAt = (if planActive t then some at_ else none) ∧ t.step.polarity = decide (n % 2 = 1) ∧
      t.step.committed = s.step.committed ∧ t.step.check = 0 ∧ t.red = {} ∧ t.upd = {} ∧ t.agree.open_ = false ∧ t.hbm = s.hbm ∧ t.sent = s.sent

/-- For each of the nine kinds (an UPDATE once its DELTA has been met and not refused, where the plan has one): a turn of the active plan
whose planned start has come, that the sluice meets and does not refuse outright, is accepted and begins its work with the lease granted,
the admission margin above 0 and at its floor or above, the grant covering it and its time need within its planned end; it is refused with
REFUSED_FLOOR where one of these fails, and waits without the lease. Where a lost lock, a restarting controller or a conflict refuses it,
it is refused with REFUSED_TURN. A turn that the sluice does not meet changes nothing but the lease. From CHECK's start on, whatever
becomes of it, the reduction takes no packet; at REDUCE's start, whatever becomes of it, the collectives without a SCALE result are
settled. An UPDATE whose DELTA has been refused is refused with the same status, and one whose DELTA has not been met meets it first. -/
def Obligations.TurnsAdmitted : Prop :=
  ∀ (e : Env) (s₀ s : State) (i : Nat) (inputs : Bytes) (q : Planned), applyEnv e s₀ = s → flumeRuns s = true → s.refill.frozen = false →
    s.pendingCommit = false → plannedAt s i = some q → runOf s q.idx q.step = none →
    let k := q.entry.kind
    let come := if k = Kind.check then { s with red.checkStarted := true } else s
    let run := newRun come q (if k = Kind.mirror then inputs else [])
    let met := turnCome q { come with step.turns := come.step.turns ++ [run] }
    let low := lowestReplica met
    let m := min 0x1000 (low - regNat met Reg.marginGuard)
    let judged := { met with power.admMargin := m }
    let seen := { run with margin := m, lowest := low }
    let deltaMet := ∀ d, (deltaIdx s).bind (plannedAt s) = some d → (runOf s d.idx d.step).isSome = true
    let delta := s.step.turns.find? fun r => r.kind = Kind.delta ∧ r.step = q.step
    let ends := fun (t : State) =>
      (k = Kind.mirror → exec (.mirrorTurn e i inputs) s₀ = .next (dropLease t)) ∧ (k = Kind.scale → exec (.scaleTurn e i) s₀ = .next (dropLease t)) ∧
      (k = Kind.reduce → exec (.reduceTurn e i) s₀ = .next (dropLease t)) ∧ (k = Kind.gap → exec (.gapTurn e i) s₀ = .next (dropLease t)) ∧
      (k = Kind.check → exec (.checkTurn e i) s₀ = .next (dropLease t)) ∧
      (k = Kind.update → deltaMet → (∀ d, delta = some d → d.phase ≠ 3) → exec (.updateTurn e i) s₀ = .next (dropLease t)) ∧
      (k = Kind.delta → exec (.deltaTurn e i) s₀ = .next (dropLease t)) ∧ (k = Kind.commit → exec (.commitTurn e i) s₀ = .next (dropLease t)) ∧
      (k = Kind.pond → exec (.pondTurn e i) s₀ = .next (dropLease t))
    (meetsTurn s q = true →
      (refusedTurn met q = true → ends (refuseRun run Code.refusedTurn met)) ∧
      (refusedTurn met q = false → met.power.leaseGrant = false → ends met) ∧
      (refusedTurn met q = false → met.power.leaseGrant = true →
        (m = 0 ∨ m < regNat met Reg.marginFloor ∨ grantCovers judged q.entry = false → ends (refuseRun seen Code.refusedFloor judged)) ∧
        (∀ p, m ≠ 0 → regNat met Reg.marginFloor ≤ m → grantCovers judged q.entry = true → judged.plans.active = some p →
          (∀ n, needOf p (lowestCap judged) q.entry m = some n →
            (n ≤ q.startAt + q.entry.duration - judged.ht → ends (acceptRun { seen with need := n } judged)) ∧
            (q.startAt + q.entry.duration - judged.ht < n → ends (refuseRun { seen with need := n } Code.refusedFloor judged))) ∧
          (needOf p (lowestCap judged) q.entry m = none → ends (refuseRun { seen with need := 0xFFFFFFFF } Code.refusedFloor judged))))) ∧
    (meetsTurn s q = false → ends come) ∧
    (∀ d, k = Kind.update → deltaMet → meetsTurn s q = true → delta = some d → d.phase = 3 →
      exec (.updateTurn e i) s₀ = .next (dropLease (refuseRun run d.status { s with step.turns := s.step.turns ++ [run] }))) ∧
    (k = Kind.update → exec (.updateTurn e i) s₀ = .next (dropLease (meetUpdate q s)))

/-- While the controllers run, an accepted turn whose work is complete is finished with the energy measured (finishRun), and a power
request that waited is acted on; one whose work is not complete stays. At a turn's planned end, outside a freeze, a run that still waits
is evaluated a last time and passed over where it still waits; a MIRROR turn whose inputs have not come leaves its step marked, and a
CHECK not settled fails. When a wait of the update unit or of a queue outlasts the COMMIT turn, the unit and the queues stop; an UPDATE
turn that still runs is finished, and one that has ended is reported late. Without such a wait nothing happens. -/
def Obligations.EndsOfTurns : Prop :=
  (∀ (e : Env) (s₀ s : State) (i energy : Nat) (r : TurnRun), applyEnv e s₀ = s → ((runningTurns s).find? fun r => r.idx = i) = some r →
    (controllersRun s = true → workDone s r = true →
      exec (.turnWorkComplete e i energy) s₀ = .next (actOnRequest (finishRun r energy s))) ∧
    (controllersRun s = false ∨ workDone s r = false → exec (.turnWorkComplete e i energy) s₀ = .next s)) ∧
  (∀ (e : Env) (s₀ s : State) (i : Nat) (q : Planned), applyEnv e s₀ = s → flumeRuns s = true → s.refill.frozen = false →
    ((plannedTurns s).find? fun q => q.idx = i ∧ q.startAt + q.entry.duration ≤ s.ht) = some q →
    let past := match runOf s q.idx q.step with
      | some r => if r.phase = 0 then passTurn q (evalTurn r s) else s
      | none => s
    (q.entry.kind = Kind.mirror → exec (.turnPlannedEnd e i) s₀ = .next (dropLease (if past.step.mirrorGot.contains q.step then past else
      { past with step.mirrorMissing := unionIdx past.step.mirrorMissing [q.step] }))) ∧
    (q.entry.kind = Kind.check → exec (.turnPlannedEnd e i) s₀ = .next (dropLease (if past.step.check = 0 then failCheck past else past))) ∧
    (q.entry.kind ≠ Kind.mirror → q.entry.kind ≠ Kind.check → exec (.turnPlannedEnd e i) s₀ = .next (dropLease past))) ∧
  (∀ s : State, (failCheck s).step.check = 2 ∧ (failCheck s).red.checkStarted = true) ∧
  (∀ (e : Env) (s₀ s : State) (energy : Nat), applyEnv e s₀ = s → flumeRuns s = true → s.refill.frozen = false →
    ((plannedTurns s).any fun q => q.entry.kind = Kind.commit && decide (q.startAt + q.entry.duration ≤ s.ht)) = true →
    s.basin.stopped = false →
    let waits := (s.upd.started = true ∧ s.step.updDone = false ∧ s.upd.waiting = true) ∨ s.basin.queue ≠ []
    let stopped := { s with upd.started := s.upd.started && s.step.updDone, basin.stopped := true }
    let run := s.step.turns.find? fun r => r.kind = Kind.update ∧ r.step = stepNum s ∧ (r.phase = 1 ∨ r.phase = 2)
    (waits → (∀ r, run = some r → r.phase = 1 → exec (.updateWaitTimeout e energy) s₀ = .next (finishRun r energy stopped)) ∧
      (∀ r, run = some r → r.phase ≠ 1 → exec (.updateWaitTimeout e energy) s₀ = .next (lateRun r stopped)) ∧
      (run = none → exec (.updateWaitTimeout e energy) s₀ = .next stopped)) ∧
    (¬ waits → exec (.updateWaitTimeout e energy) s₀ = .next s))

/-- In E0, outside a freeze, lease hold rises from OSE_LEASE_LEAD before a turn that the sluice has not met, to its planned end; a grant
under the hold evaluates the turns that wait; a breach under a hold is counted and flagged, and no turn and no byte of HBM changes. While
the flume runs, a drop of lock is counted, flagged and, with room in the queue, reported by one event, and its return is recorded with its
instant. In E0 and E1 a replica sample is noted with its instant, lowered by the chain's trim; no other reading is new, no run's lowest
reading rises, and no byte of HBM changes. -/
def Obligations.LeaseLockAndMargin : Prop :=
  (∀ (e : Env) (s₀ s : State) (i : Nat) (q : Planned), applyEnv e s₀ = s → flumeRuns s = true → s.power.state = 0 → s.refill.frozen = false →
    q ∈ plannedTurns s ++ nextTurns s → q.idx = i → q.startAt ≤ s.ht + regNat s Reg.leaseLead → s.ht ≤ q.startAt + q.entry.duration →
    runOf s q.idx q.step = none → exec (.leaseRaise e i) s₀ = .next { s with power.leaseHold := true }) ∧
  (∀ (e : Env) (s₀ s : State), applyEnv e s₀ = s → s.power.leaseHold = true →
    exec (.leaseGrant e) s₀ = .next (dropLease ((s.step.turns.filter fun r => r.phase = 0).foldl (fun s r => evalTurn r s)
      { s with power.leaseGrant := true, power.breach := false })) ∧
    NextWith (exec (.breach e) s₀) fun t => t.power.breach = true ∧ (regNat t Reg.events).testBit 10 = true ∧
      regNat t Reg.breaches = min (regNat s Reg.breaches + 1) 0xFFFFFFFF ∧ t.step = s.step ∧ t.hbm = s.hbm) ∧
  (∀ (e : Env) (s₀ s : State), applyEnv e s₀ = s → flumeRuns s = true →
    (s.power.lock = true → NextWith (exec (.lockDrop e) s₀) fun t => t.power.lock = false ∧ (regNat t Reg.events).testBit 9 = true ∧
      regNat t Reg.htLockDrops = min (regNat s Reg.htLockDrops + 1) 0xFFFFFFFF ∧ t.step = s.step ∧ t.hbm = s.hbm ∧
      (s.culvert.queue.length < 64 → t.culvert.queue.length = s.culvert.queue.length + 1)) ∧
    (s.power.lock = false → NextWith (exec (.lockRegain e) s₀) fun t => t.power.lock = true ∧ t.power.lockBack = some s.ht ∧ t.step = s.step)) ∧
  (∀ (e : Env) (s₀ s : State) (c : Fin 24) (reading : Nat), applyEnv e s₀ = s → s.power.state < 2 →
    NextWith (exec (.replicaSample e c reading) s₀) fun t =>
      (c.val, reading % 65536 * s.fw.trims.getD c.val 0x1000 / 4096, s.ht) ∈ t.power.replicas ∧
      (∀ x ∈ t.power.replicas, x ∈ s.power.replicas ∨ x = (c.val, reading % 65536 * s.fw.trims.getD c.val 0x1000 / 4096, s.ht)) ∧
      (∀ k : Nat, (t.step.turns.map TurnRun.lowest).getD k 0 ≤ (s.step.turns.map TurnRun.lowest).getD k 0) ∧ t.hbm = s.hbm)

/-- A window tick, while the flume runs, takes the grant, the slot pins and the channel caps as written, and brings the ditch rider's
cycle up to date; while the controllers run it then begins the repairs that waited, shares, where the window permits background work, what
the turns leave of the grant among the background classes in their order, and lets the flash port take what waits for it; where the window
does not permit it, no background class gets any share. The oldest barrier's end is taken, and for a drain goes on to its manifest or its
completion; with no barrier open nothing happens. A flash write failure stops the drain that is writing (drainFailed). -/
def Obligations.WindowTickAndBarriers : Prop :=
  (∀ (e : Env) (s₀ s : State) (grant use : Nat), applyEnv e s₀ = s → flumeRuns s = true →
    let taken := tickCycle (capTick { s with power.grant := grant, pond.pins := regNat s Reg.snapPin })
    let ticked := startDeferred taken
    (controllersRun taken = true →
      (windowPermits ticked = true → exec (.allotmentWindowTick e grant use) s₀ =
        .next (poke (drainFlash (shareBudget (List.range 7) (grant - use) ticked)))) ∧
      (windowPermits ticked = false → exec (.allotmentWindowTick e grant use) s₀ = .next (poke (drainFlash ticked)))) ∧
    (controllersRun taken = false → exec (.allotmentWindowTick e grant use) s₀ = .next taken)) ∧
  (∀ (e : Env) (s₀ s : State) (rest : List Barrier), applyEnv e s₀ = s →
    (s.pond.barriers = .other :: rest → exec (.flashBarrierDone e) s₀ = .next { s with pond.barriers := rest }) ∧
    (s.pond.barriers = .drain :: rest → exec (.flashBarrierDone e) s₀ = .next (drainBarrier { s with pond.barriers := rest })) ∧
    (s.pond.barriers = [] → exec (.flashBarrierDone e) s₀ = .next s)) ∧
  (∀ (e : Env) (s₀ s : State), applyEnv e s₀ = s → exec (.flashWriteFailure e) s₀ = .next (drainFailed s))

/-- A delivered good start record at offset 0 for the tag in force, at a chip that is not live and has not undone such a start: with its
chip count and its instant at least 1 ms ahead it stages the start at a chip that holds none and sends the acknowledgements that are due;
a copy with the same fields as the one staged changes nothing; one with other fields undoes the start. An acknowledgement of a child of
the staged start, before this chip's own has gone on that tree and before the decision, adds its chips and sends what is then due; later
it only counts in OSE_DROP_UNMAPPED, and from a chip that is no child it changes nothing. A GO or an ABORT that matches the start staged
is held as the outcome, unless one is held. An acknowledgement, a GO or an ABORT that matches no staged start only counts in
OSE_DROP_UNMAPPED. -/
def Obligations.StartRecords : Prop :=
  (∀ (e : Env) (s₀ s : State) (h : PktHead) (r : StartRec), applyEnv e s₀ = s → delivered s h 7 46 (startRecBytes 0 r).length = true →
    h.offset = 0 → r.sumOk = true → r.fields.tag = tagOf s → s.job.conflicted ≠ some r.fields.tag → s.job.live = false →
    (s.job.staged = none → r.fields.jobChips = jobChips s → s.ht + 1000000 ≤ r.fields.instant → exec (.startRecord e h r) s₀ =
      .next (pumpAcks { s with job := { s.job with staged := some { fields := r.fields, isRoot := false, at_ := s.ht }, isRoot := false } })) ∧
    (∀ x, s.job.staged = some x → r.fields = x.fields → exec (.startRecord e h r) s₀ = .next s) ∧
    (∀ x, s.job.staged = some x → r.fields ≠ x.fields → exec (.startRecord e h r) s₀ =
      .next (ignored 0x08 10 0 0 0 { s with job := { s.job with staged := none, isRoot := false, conflicted := some r.fields.tag } }))) ∧
  (∀ (e : Env) (s₀ s : State) (h : PktHead) (r : StartRec) (x : StagedStart), applyEnv e s₀ = s → h.offset = 0 → s.job.staged = some x →
    r.sumOk = true → r.fields = x.fields →
    (delivered s h 1 46 (startRecBytes 3 r).length = true →
      (x.sent.contains r.tree = false → x.decided = false → (ackKids s x.fields r.tree).contains h.sender = true →
        exec (.startAckRecord e h r) s₀ = .next (pumpAck false r.tree { s with job.staged := some { x with
          bits := putKey r.tree (unionIdx (getKey r.tree [] x.bits) r.bitmap) x.bits,
          kids := putKey r.tree ((getKey r.tree [] x.kids).filter (· ≠ h.sender) ++ [h.sender]) x.kids } })) ∧
      (x.sent.contains r.tree = false → x.decided = false → (ackKids s x.fields r.tree).contains h.sender = false →
        exec (.startAckRecord e h r) s₀ = .next s) ∧
      (x.sent.contains r.tree = true ∨ x.decided = true → exec (.startAckRecord e h r) s₀ = .next (count Reg.dropUnmapped 1 s))) ∧
    (delivered s h 7 46 (startRecBytes 1 r).length = true →
      exec (.goRecord e h r) s₀ = .next (if x.outcome = 0 then { s with job.staged := some { x with outcome := 1 } } else s)) ∧
    (delivered s h 7 46 (startRecBytes 2 r).length = true →
      exec (.abortStartRecord e h r) s₀ = .next (if x.outcome = 0 then { s with job.staged := some { x with outcome := 2 } } else s))) ∧
  (∀ (e : Env) (s₀ s : State) (h : PktHead) (r : StartRec), applyEnv e s₀ = s → h.offset = 0 →
    (∀ x, s.job.staged = some x → r.sumOk = false ∨ r.fields ≠ x.fields) →
    (delivered s h 1 46 (startRecBytes 3 r).length = true → exec (.startAckRecord e h r) s₀ = .next (count Reg.dropUnmapped 1 s)) ∧
    (delivered s h 7 46 (startRecBytes 1 r).length = true → exec (.goRecord e h r) s₀ = .next (count Reg.dropUnmapped 1 s)) ∧
    (delivered s h 7 46 (startRecBytes 2 r).length = true → exec (.abortStartRecord e h r) s₀ = .next (count Reg.dropUnmapped 1 s)))

/-- While the controllers run: from its cut-off on a chip acts on its acknowledgement of a tree as it stands (pumpAck). From the deadline
on the root that has not decided decides GO when every chip of the job has acknowledged on some tree and ABORT otherwise, broadcasts it
and reports how many are missing. From the instant on a chip that holds GO is live, in the start's epoch and mode 0; one that holds ABORT
or nothing is not, and the latter is reported. From its instant on a pending mode change of a live chip that is not a companion and was
not missed, and carries no commit, sets the epoch and the mode, ends the hold and evaluates the turns that wait. Before these instants
nothing happens. -/
def Obligations.StartDecidedAndTaken : Prop :=
  (∀ (e : Env) (s₀ s : State) (x : StagedStart) (tree : Nat), applyEnv e s₀ = s → controllersRun s = true → s.job.staged = some x → tree < 2 →
    let cut := x.fields.routeBound + heightOf (here s) x.fields.root * (x.fields.routeBound + 4000)
    (x.fields.deadline ≤ s.ht + cut → exec (.startAckCutoff e tree) s₀ = .next (pumpAck true tree s)) ∧
    (s.ht + cut < x.fields.deadline → exec (.startAckCutoff e tree) s₀ = .next s)) ∧
  (∀ (e : Env) (s₀ s : State) (x : StagedStart), applyEnv e s₀ = s → controllersRun s = true → s.job.staged = some x → x.isRoot = true →
    x.decided = false →
    let missing := (List.range x.fields.jobChips).filter fun i => !(unionIdx (ackBits s x 0) (ackBits s x 1)).contains i
    let n : Nat := if missing = [] then 1 else 2
    (x.fields.deadline ≤ s.ht → exec (.startDeadline e) s₀ = .next (startEvent n missing.length ((minOf missing).getD 0xFFFF)
      (broadcastStart n x.fields { s with job.staged := some { x with decided := true, outcome := n } }))) ∧
    (s.ht < x.fields.deadline → exec (.startDeadline e) s₀ = .next s)) ∧
  (∀ (e : Env) (s₀ s : State) (x : StagedStart), applyEnv e s₀ = s → controllersRun s = true → s.job.staged = some x →
    (x.fields.instant ≤ s.ht →
      (x.outcome = 1 → exec (.startInstant e) s₀ = .next { s with job := { s.job with
        staged := none, outcome := 1, live := true, liveAt := x.fields.instant, epoch := x.fields.epoch, mode := 0, held := false,
        pendingMode := none } }) ∧
      (x.outcome = 2 → exec (.startInstant e) s₀ = .next { s with job := { s.job with staged := none, outcome := 2 } }) ∧
      (x.outcome = 0 → exec (.startInstant e) s₀ =
        .next (startEvent 3 0 0xFFFF { s with job := { s.job with staged := none, outcome := 3 } }))) ∧
    (s.ht < x.fields.instant → exec (.startInstant e) s₀ = .next s)) ∧
  (∀ (e : Env) (s₀ s : State) (m : PendingMode), applyEnv e s₀ = s → controllersRun s = true → s.job.pendingMode = some m → s.job.live = true →
    m.missed = false → m.companion = false →
    (m.instant ≤ s.ht → bit 0 m.flags = false → exec (.modeChangeInstant e) s₀ = .next (dropLease (evalAll
      { s with job := { s.job with epoch := m.epoch, mode := m.mode, pendingMode := none, held := false } }))) ∧
    (s.ht < m.instant → exec (.modeChangeInstant e) s₀ = .next s))

/-- From its start instant on a refill accepted here begins (beginRefill). From its deadline on a spare under refill that has not reported
reports OK_PARTIAL, with a cause that tells whether its partner was lost too; one that has reported reports nothing. From the instant of a
release on a frozen engine thaws: under kind 0 the step in flight runs again from the turn named, under another kind a recovery run
finishes it. Before these instants nothing happens. Thawing ends the freeze and the hold, leaves no turn met, and changes no byte of HBM. -/
def Obligations.RefillInstants : Prop :=
  (∀ (e : Env) (s₀ s : State) (m : RefillMsg), applyEnv e s₀ = s → flumeRuns s = true → s.refill.msg = some m →
    (s.refill.state = 2 → m.startAt ≤ s.ht → exec (.refillStart e) s₀ = .next (beginRefill m s)) ∧
    (s.refill.state ≠ 2 ∨ s.ht < m.startAt → exec (.refillStart e) s₀ = .next s) ∧
    (s.refill.isSpare = true → s.refill.reported = false → s.refill.state = 3 → m.deadline ≤ s.ht → exec (.refillDeadline e) s₀ =
      .next (reportRefilled Code.okPartial (if isLost s (partnerOf s (here s)) then 4 else 3) s)) ∧
    (s.refill.isSpare = false ∨ s.refill.reported = true ∨ s.refill.state ≠ 3 ∨ s.ht < m.deadline →
      exec (.refillDeadline e) s₀ = .next s)) ∧
  (∀ (e : Env) (s₀ s : State) (kind instant first : Nat), applyEnv e s₀ = s → flumeRuns s = true →
    s.refill.release = some (kind, instant, first) → s.refill.frozen = true →
    (instant ≤ s.ht → kind = 0 → exec (.releaseInstant e) s₀ = .next (dropLease (restartStep instant first s))) ∧
    (instant ≤ s.ht → kind ≠ 0 → exec (.releaseInstant e) s₀ = .next (dropLease (resumeStep instant s))) ∧
    (s.ht < instant → exec (.releaseInstant e) s₀ = .next s)) ∧
  (∀ s : State, (thaw s).refill.frozen = false ∧ (thaw s).job.held = false ∧ (thaw s).step.turns = [] ∧ (thaw s).hbm = s.hbm)

/-- A delivered mirrored input under an active plan is written in the mirrored inputs at its offset, and where it ends with its half's
last byte, that half's step counts as mirrored. A delivered page for the plot of a frozen spare is written there and noted as got (in
replicated mode a chunk got whole is classed at once); in a recovery run it is kept as a peer's copy; at a chip that is no spare it only
counts. Bytes for the cistern are handed to takeCistern, which writes what their sender owes. A whole page of a chain waits for its
record, and a part of one only counts. A whole page of an absent slot is written, and the slot is in force with the last of its sixteen
pages; for any other slot it only counts. Each of the refill's counts its bytes. -/
def Obligations.WindowStores : Prop :=
  (∀ (e : Env) (s₀ s : State) (h : PktHead) (bs : Bytes) (p : Plan), applyEnv e s₀ = s → delivered s h 1 47 bs.length = true →
    s.plans.active = some p →
    let half := h.offset / max p.inputHalf 1
    let t := storeBytes 3 (cisternBase s + 2 * p.inputHalf + h.offset) bs s
    (h.offset + bs.length ≠ (half + 1) * p.inputHalf → exec (.mirroredInputStore e h bs) s₀ = .next t) ∧
    (h.offset + bs.length = (half + 1) * p.inputHalf → exec (.mirroredInputStore e h bs) s₀ = .next { t with
      step.mirrorGot := unionIdx t.step.mirrorGot [if half % 2 = stepNum t % 2 then stepNum t else stepNum t - 1] })) ∧
  (∀ (e : Env) (s₀ s : State) (h : PktHead) (bs : Bytes), applyEnv e s₀ = s → delivered s h 1 52 bs.length = true →
    let b := { s with refill.bytes := s.refill.bytes + bs.length }
    let c := h.offset / 65536
    let n := h.offset % 65536 / 4096
    (s.refill.isSpare = false → exec (.refillPlotStore e h bs) s₀ = .next b) ∧
    (s.refill.isSpare = true → s.refill.frozen = true → h.offset % 4096 = 0 → bs.length = 4096 →
      let u := storeBytes 0 (plotBase b + h.offset) bs b
      let got := { u with refill.gotPages := putKey c (getKey c 0 u.refill.gotPages ||| BitVec.ofNat 16 (2 ^ n)) u.refill.gotPages }
      exec (.refillPlotStore e h bs) s₀ = .next (if !codedMode got && chunkGot got c then judgeSpare (noteClass c 1 0 true got) else got)) ∧
    (s.refill.isSpare = true → s.refill.frozen = false → s.step.recoveryAt.isSome = true → h.offset % 4096 = 0 → bs.length = 4096 →
      exec (.refillPlotStore e h bs) s₀ =
        .next (poke { b with refill.copies := (s.refill.copies.filter fun x => !(x.1 = c ∧ x.2.1 = n)) ++ [(c, n, bs)] }))) ∧
  (∀ (e : Env) (s₀ s : State) (h : PktHead) (bs : Bytes), applyEnv e s₀ = s → delivered s h 1 53 bs.length = true →
    exec (.refillCisternStore e h bs) s₀ = .next (takeCistern h.sender h.offset bs { s with refill.bytes := s.refill.bytes + bs.length })) ∧
  (∀ (e : Env) (s₀ s : State) (h : PktHead) (bs : Bytes), applyEnv e s₀ = s → delivered s h 1 54 bs.length = true →
    (h.offset % 4096 = 0 → bs.length = 4096 → exec (.chainPages e h bs) s₀ = .next { s with
      refill.bytes := s.refill.bytes + 4096,
      refill.chainBuf := (s.refill.chainBuf.filter fun b => !(b.1 = (h.sender, h.offset / 65536) ∧ b.2.1 = h.offset % 65536 / 4096)) ++
        [((h.sender, h.offset / 65536), h.offset % 65536 / 4096, bs)] }) ∧
    (h.offset % 4096 ≠ 0 ∨ bs.length ≠ 4096 → exec (.chainPages e h bs) s₀ = .next { s with refill.bytes := s.refill.bytes + bs.length })) ∧
  (∀ (e : Env) (s₀ s : State) (h : PktHead) (bs : Bytes), applyEnv e s₀ = s → delivered s h 1 56 bs.length = true →
    let slot := h.offset / 65536
    let b := { s with refill.bytes := s.refill.bytes + bs.length }
    (h.offset % 4096 = 0 → bs.length = 4096 → isAbsent s slot = true →
      let u := storePages 1 1 (bankAddr b slot (h.offset % 65536 / 4096)) bs b
      let got := getKey slot 0 u.refill.bankGot ||| BitVec.ofNat 16 (2 ^ (h.offset % 65536 / 4096))
      (got ≠ 0xFFFF#16 → exec (.bankShareStore e h bs) s₀ = .next { u with refill.bankGot := putKey slot got u.refill.bankGot }) ∧
      (got = 0xFFFF#16 → exec (.bankShareStore e h bs) s₀ =
        .next (placeSlot slot { u with refill.bankGot := u.refill.bankGot.filter fun x => x.1 ≠ slot }))) ∧
    (h.offset % 4096 ≠ 0 ∨ bs.length ≠ 4096 ∨ isAbsent s slot = false → exec (.bankShareStore e h bs) s₀ = .next b))

/-- A delivered record of the refill in force goes to its function, its bytes counted: repair, syndrome and remainder records to the chain
they name, rebuild records of the step in flight likewise, those of another step giving their chain up until the next commit; a credit
raises the sender's allowance and lets waiting chains go; a closure request joins those to be served; at a decoder an absent equation is
noted, with the takeover requests where it is the first of a stripe that local repair served, and the stripe solved if it can be; at a
spare a decoded record classifies its chunk and a no-gradient record is noted; a request, while frozen, starts the chain of the parity
that this chip holds, and otherwise, where it asks this chip for its part of a rebuild, opens the windows that this takes and joins it. At
chips of other roles these last change nothing but the bytes counted, and so does any record of another refill. -/
def Obligations.RefillRecords : Prop :=
  (∀ (e : Env) (s₀ s : State) (h : PktHead) (r : ChainRec), applyEnv e s₀ = s → asksRebuild h.sender r s = true →
    let opened := { s with refill.linkRebuild := true, refill.chainsSeen := true, refill.wins := unionIdx s.refill.wins [54, 55] }
    delivered opened h 1 55 32 = true → exec (.chainRequest e h r) s₀ =
      .next (joinChain r.stripe r.equation { opened with refill.bytes := s.refill.bytes + 32 })) ∧
  ∀ (e : Env) (s₀ s : State) (h : PktHead) (r : ChainRec), applyEnv e s₀ = s → delivered s h 1 55 32 = true →
    let b := { s with refill.bytes := s.refill.bytes + 32 }
    (r.refillId ≠ s.refill.lastId →
      (r.kind = 0 → exec (.localRepairRecord e h r) s₀ = .next b) ∧ (r.kind = 1 → exec (.syndromeRecord e h r) s₀ = .next b) ∧
      (r.kind = 2 → exec (.remainderRecord e h r) s₀ = .next b) ∧ (r.kind = 3 ∨ r.kind = 4 → exec (.bankRebuildRecord e h r) s₀ = .next b) ∧
      (r.kind = 5 → exec (.creditRecord e h r) s₀ = .next b) ∧ (r.kind = 6 → exec (.closureRequest e h r) s₀ = .next b) ∧
      (r.kind = 7 → exec (.absentRecord e h r) s₀ = .next b) ∧ (r.kind = 9 → exec (.decodedRecord e h r) s₀ = .next b) ∧
      (r.kind = 10 → exec (.noGradientRecord e h r) s₀ = .next b)) ∧
    (r.refillId = s.refill.lastId →
      (r.kind = 0 → exec (.localRepairRecord e h r) s₀ = .next (takeChain h.sender r b)) ∧
      (r.kind = 1 → exec (.syndromeRecord e h r) s₀ = .next (takeChain h.sender r b)) ∧
      (r.kind = 2 → exec (.remainderRecord e h r) s₀ = .next (takeChain h.sender r b)) ∧
      (r.kind = 3 ∨ r.kind = 4 →
        (r.holderStep = stepNum s → exec (.bankRebuildRecord e h r) s₀ = .next (takeChain h.sender r { b with refill.chainsSeen := true })) ∧
        (r.holderStep ≠ stepNum s → exec (.bankRebuildRecord e h r) s₀ =
          .next (giveUpChain r.stripe r.equation (takeChainPages h.sender (r.position % 64) b).2))) ∧
      (r.kind = 5 → exec (.creditRecord e h r) s₀ = .next (pumpJobs { b with
        refill.grants := putKey h.sender (max r.position (getKey h.sender 64 s.refill.grants)) s.refill.grants })) ∧
      (r.kind = 6 → exec (.closureRequest e h r) s₀ = .next (serveClosures { b with
        refill.closureReqs := s.refill.closureReqs ++ [(h.sender, r.position, r.stripe)] })) ∧
      (r.kind = 7 →
        let known := (absentOf b r.stripe).contains r.equation
        let noted_ := { b with refill.absentEqs := s.refill.absentEqs ++ [(r.stripe, r.equation)] }
        let first := localServes b (here b) r.stripe && (absentOf b r.stripe).isEmpty
        (s.refill.isDecoder = true → r.stripe < plotChunks b → known = false → exec (.absentRecord e h r) s₀ =
          .next (judgeSpare (trySolve r.stripe (if first then takeOver r.stripe r.equation noted_ else noted_)))) ∧
        (s.refill.isDecoder = false ∨ plotChunks b ≤ r.stripe ∨ known = true → exec (.absentRecord e h r) s₀ = .next b)) ∧
      (r.kind = 8 → s.refill.frozen = true →
        (∀ slot, r.stripe < plotChunks b → heldParity b r.stripe = some (r.equation, slot) →
          exec (.chainRequest e h r) s₀ = .next (pumpJobs (decoderSource r.stripe r.equation slot b))) ∧
        (plotChunks b ≤ r.stripe ∨ (∀ slot, heldParity b r.stripe ≠ some (r.equation, slot)) →
          exec (.chainRequest e h r) s₀ = .next b)) ∧
      (r.kind = 9 →
        let k := if mirrorMode b then 0 else memberOf b (here b) % 4
        let use_ := s.refill.isSpare = true ∧ r.stripe < plotChunks b ∧ (2 ≤ r.arrival ∨ chunkGot b r.stripe = true)
        (use_ → exec (.decodedRecord e h r) s₀ =
          .next (judgeSpare (noteClass r.stripe (min r.arrival 2) (r.pending.getD k 0) (chunkGot b r.stripe) b))) ∧
        (¬ use_ → exec (.decodedRecord e h r) s₀ = .next b)) ∧
      (r.kind = 10 →
        (s.refill.isSpare = true → exec (.noGradientRecord e h r) s₀ =
          .next (judgeSpare { b with refill.noGradient := unionIdx s.refill.noGradient [r.stripe] })) ∧
        (s.refill.isSpare = false → exec (.noGradientRecord e h r) s₀ = .next b)))

/-- A delivered repair request for a stripe whose parity this chip holds, from a member of its basin and, for a local parity, of its
group, starts the chain; one that does not fit is answered with a refused record. A chain record ends at its requester, and is passed on
by a chip that its route names; at any other chip it changes nothing. A push request for pages that this chip has no source of is answered
with a refused record; where all can be read they are pushed, a mirror copy of a plot page with the bits it was read under and the stripe
held; where one cannot, what could not be read is escalated and the request refused. A delivered page that a push request asked for ends
its attempt; one unasked is buffered, and a part of a page changes nothing. -/
def Obligations.RepairTraffic : Prop :=
  (∀ (e : Env) (s₀ s : State) (h : PktHead) (r : RepairRec), applyEnv e s₀ = s → delivered s h 1 51 32 = true → r.kind = 0 →
    let refused := sendRepair r.requester { r with kind := 5 } s
    (∀ j slot, r.stripe < plotChunks s → heldParity s r.stripe = some (j, slot) →
      (isOurMember s r.requester = true → (isLocal s j = true → memberOf s r.requester / 4 = j) →
        exec (.repairRequest e h r) s₀ = .next (startMend r j slot s)) ∧
      (isOurMember s r.requester = false ∨ (isLocal s j = true ∧ memberOf s r.requester / 4 ≠ j) →
        exec (.repairRequest e h r) s₀ = .next refused)) ∧
    (plotChunks s ≤ r.stripe ∨ heldParity s r.stripe = none → exec (.repairRequest e h r) s₀ = .next refused)) ∧
  (∀ (e : Env) (s₀ s : State) (h : PktHead) (r : RepairRec), applyEnv e s₀ = s → delivered s h 1 51 32 = true → r.kind = 1 ∨ r.kind = 2 →
    (r.requester = here s → exec (.repairChainRecord e h r) s₀ = .next (endMend r s)) ∧
    (r.requester ≠ here s → r.stripe < plotChunks s →
      (∀ rest, ((mendRoute s (here s) r).dropWhile fun c => c ≠ here s) = here s :: rest →
        exec (.repairChainRecord e h r) s₀ = .next (linkMend r rest s)) ∧
      (((mendRoute s (here s) r).dropWhile fun c => c ≠ here s) = [] → exec (.repairChainRecord e h r) s₀ = .next s)) ∧
    (r.requester ≠ here s → plotChunks s ≤ r.stripe → exec (.repairChainRecord e h r) s₀ = .next s)) ∧
  (∀ (e : Env) (s₀ s : State) (h : PktHead) (r : RepairRec), applyEnv e s₀ = s → delivered s h 1 51 32 = true → r.kind = 4 →
    let all := (pagesOf r.mask).all fun n => (pushSource s r n).isSome
    let read := gather (fun n s => match pushSource s r n with
      | some (region, a) => readPage region a {} s
      | none => (none, s)) (pagesOf r.mask) s
    (all = false → exec (.repairPushRequest e h r) s₀ = .next (sendRepair r.requester { r with kind := 5 } s)) ∧
    (∀ ps s', all = true → read = (some ps, s') →
      (r.target ≠ 0 → exec (.repairPushRequest e h r) s₀ = .next (sendPages r.requester 50 (r.tag % 64 * 65536) ps s')) ∧
      (r.target = 0 → exec (.repairPushRequest e h r) s₀ = .next (sendMend r.requester
        { r with kind := 1, arrival := arrivalOf s' r.stripe, pending := pendings s' r.stripe } ps (holdStripe r s')))) ∧
    (∀ s', all = true → read = (none, s') → exec (.repairPushRequest e h r) s₀ = .next (sendRepair r.requester { r with kind := 5 }
      ((pagesOf r.mask).foldl (fun s n => match pushSource s r n with
        | some (region, a) => escalateUnread region [a] .escalation s
        | none => s) s')))) ∧
  (∀ (e : Env) (s₀ s : State) (h : PktHead) (bs : Bytes), applyEnv e s₀ = s → delivered s h 1 50 bs.length = true →
    let slot := h.offset / 65536
    let n := h.offset % 65536 / 4096
    let asked := s.guard.attempts.find? fun a =>
      a.kind = 4 && !a.deferred && a.tag % 64 = slot && a.page = n && !(a.region = 0 && mirrorMode s)
    (h.offset % 4096 = 0 → bs.length = 4096 →
      (asked = none → exec (.repairPages e h bs) s₀ = .next { s with
        guard.buffer := (s.guard.buffer.filter fun b => !(b.1 = slot ∧ b.2.1 = n)) ++ [(slot, n, bs)] }) ∧
      (∀ a, asked = some a → exec (.repairPages e h bs) s₀ = .next (poke (attemptDone a bs s)))) ∧
    (h.offset % 4096 ≠ 0 ∨ bs.length ≠ 4096 → exec (.repairPages e h bs) s₀ = .next s))

/-- While the flume runs, an attempt whose deadline has come has failed (before its deadline the timeout changes nothing), and so has one
whose refused record arrives; a refused record with a tag that no attempt bears only counts in OSE_DROP_REPAIR_TAG, and a timeout with it
changes nothing. A done record ends the holds of its tag and requester, and the engine goes on. The time of an attempt is 20 ms. -/
def Obligations.RepairAttemptsEnd : Prop :=
  (∀ (e : Env) (s₀ s : State) (tag : Nat) (a : Attempt), applyEnv e s₀ = s → flumeRuns s = true → attemptOf s tag = some a →
    (a.deadline ≤ s.ht → exec (.repairTimeout e tag) s₀ = .next (poke (attemptFailed a s))) ∧
    (s.ht < a.deadline → exec (.repairTimeout e tag) s₀ = .next s)) ∧
  (∀ (e : Env) (s₀ s : State) (tag : Nat), applyEnv e s₀ = s → attemptOf s tag = none → exec (.repairTimeout e tag) s₀ = .next s) ∧
  (∀ (e : Env) (s₀ s : State) (h : PktHead) (r : RepairRec), applyEnv e s₀ = s → delivered s h 1 51 32 = true → r.kind = 5 →
    (∀ a, attemptOf s r.tag = some a → exec (.repairRefused e h r) s₀ = .next (poke (attemptFailed a s))) ∧
    (attemptOf s r.tag = none → exec (.repairRefused e h r) s₀ = .next (count Reg.dropRepairTag 1 s))) ∧
  (∀ (e : Env) (s₀ s : State) (h : PktHead) (r : RepairRec), applyEnv e s₀ = s → delivered s h 1 51 32 = true → r.kind = 3 →
    exec (.repairDone e h r) s₀ = .next (poke { s with
      guard.holds := s.guard.holds.filter fun x => !(x.tag = r.tag ∧ x.requester = h.sender) })) ∧
  repairTime = 20000000

/-- While a restore runs, a delivered record acts in its stage alone. A child's choice (stage 2) or end (stage 3) joins the counts, and
the agreement goes on. The verdict of the choice is applied in stage 2 where it gives a status or carries the map's checksum; the verdict
of the end in stage 3 where it carries that checksum. A credit, a withdrawal and a request act only with the map's checksum, the last two
in stage 3 alone: a credit raises the sender's allowance, a withdrawal by the holder of an open piece's source falls back to that piece's
next source, a request moves a piece of the sender to the source it names, where this chip holds that source. Bytes for the need land, in
stage 3, in the chunk that their slot stands for. In every other case the state stays as the packet found it. Where no restore runs, such
a packet of this job and generation only counts in OSE_RS_DROPS. -/
def Obligations.RestoreRecords : Prop :=
  (∀ (e : Env) (s₀ s : State) (h : PktHead) (bs : Bytes), applyEnv e s₀ = s → delivered s h 1 48 bs.length = true →
    (∀ l, s.restore.state = 3 → lowestIncomplete s = some l →
      let c := l + (h.offset / 65536 + 128 - l % 128) % 128
      exec (.restoreDataStore e h bs) s₀ =
        .next (rebuildNow s (pumpMove (finishChunk c (takeBytes c (h.offset % 65536) bs h.sender s))))) ∧
    (s.restore.state ≠ 3 ∨ lowestIncomplete s = none → exec (.restoreDataStore e h bs) s₀ = .next s)) ∧
  (∀ (e : Env) (s₀ s : State) (h : PktHead) (r : RestoreRec), applyEnv e s₀ = s → s.restore.running = true →
    (delivered s h 1 49 32 = true →
      (r.kind = 0 →
        (s.restore.state = 2 → exec (.restoreChoice e h r) s₀ = .next (rebuildNow s (pumpChoice false (takeKid h r s)))) ∧
        (s.restore.state ≠ 2 → exec (.restoreChoice e h r) s₀ = .next s)) ∧
      (r.kind = 2 →
        (r.digest = s.restore.mapSum → exec (.restoreCredit e h r) s₀ = .next (rebuildNow s (pumpMove { s with
          restore.credits := putKey h.sender (max r.position (getKey h.sender 0 s.restore.credits)) s.restore.credits }))) ∧
        (r.digest ≠ s.restore.mapSum → exec (.restoreCredit e h r) s₀ = .next s)) ∧
      (r.kind = 3 →
        let piece := (myPieces s).find? fun p => p.source = r.source ∧ p.at_ / 65536 = r.position ∧ !p.done ∧
          (mapSource s p.source).map Source.holder = some h.sender
        (∀ p, s.restore.state = 3 → r.digest = s.restore.mapSum → piece = some p → exec (.restoreWithdraw e h r) s₀ =
          .next (rebuildNow s (pumpMove (fallBack (s.restore.sources.length + 1) p s)))) ∧
        (s.restore.state ≠ 3 ∨ r.digest ≠ s.restore.mapSum ∨ piece = none → exec (.restoreWithdraw e h r) s₀ = .next s)) ∧
      (r.kind = 4 →
        (∀ x, s.restore.state = 3 → r.digest = s.restore.mapSum → mapSource s r.source = some x →
          let piece := s.restore.pieces.find? fun p =>
            p.dest = h.sender ∧ p.at_ / 65536 = r.position ∧ p.source ≠ r.source ∧ mayServe x p
          (∀ p, x.holder = here s → piece = some p → exec (.restoreRequest e h r) s₀ = .next (rebuildNow s (pumpMove
            (putPiece p { p with source := r.source, next := p.at_ / 65536, done := false } s)))) ∧
          (x.holder ≠ here s ∨ piece = none → exec (.restoreRequest e h r) s₀ = .next s)) ∧
        (s.restore.state ≠ 3 ∨ r.digest ≠ s.restore.mapSum ∨ mapSource s r.source = none →
          exec (.restoreRequest e h r) s₀ = .next s)) ∧
      (r.kind = 5 →
        (s.restore.state = 3 → exec (.restoreDone e h r) s₀ = .next (rebuildNow s (pumpDone false (takeKid h r s)))) ∧
        (s.restore.state ≠ 3 → exec (.restoreDone e h r) s₀ = .next s))) ∧
    (delivered s h 7 49 32 = true →
      (r.kind = 1 →
        (s.restore.state = 2 → r.status ≠ 0 ∨ r.digest = s.restore.mapSum →
          exec (.restoreChoiceVerdict e h r) s₀ = .next (rebuildNow s (applyChoice r s))) ∧
        (s.restore.state ≠ 2 ∨ (r.status = 0 ∧ r.digest ≠ s.restore.mapSum) → exec (.restoreChoiceVerdict e h r) s₀ = .next s)) ∧
      (r.kind = 6 →
        (s.restore.state = 3 → r.digest = s.restore.mapSum →
          exec (.restoreDoneVerdict e h r) s₀ = .next (rebuildNow s (applyDone r.status s))) ∧
        (s.restore.state ≠ 3 ∨ r.digest ≠ s.restore.mapSum → exec (.restoreDoneVerdict e h r) s₀ = .next s)))) ∧
  (∀ (e : Env) (s₀ s : State) (h : PktHead) (r : RestoreRec) (bs : Bytes), applyEnv e s₀ = s → s.restore.running = false → flumeRuns s = true →
    tagOf s ≠ 0 → h.jobId = jobIdOf s → h.gen = genOf s →
    let counted_ : Host.Outcome State Fault Refusal := .next (count Reg.rsDrops 1 s)
    (malformed 1 bs.length h.offset = false → exec (.restoreDataStore e h bs) s₀ = counted_) ∧
    (malformed 1 32 h.offset = false →
      (r.kind = 0 → exec (.restoreChoice e h r) s₀ = counted_) ∧ (r.kind = 2 → exec (.restoreCredit e h r) s₀ = counted_) ∧
      (r.kind = 3 → exec (.restoreWithdraw e h r) s₀ = counted_) ∧ (r.kind = 4 → exec (.restoreRequest e h r) s₀ = counted_) ∧
      (r.kind = 5 → exec (.restoreDone e h r) s₀ = counted_)) ∧
    (malformed 7 32 h.offset = false →
      (r.kind = 1 → exec (.restoreChoiceVerdict e h r) s₀ = counted_) ∧ (r.kind = 6 → exec (.restoreDoneVerdict e h r) s₀ = counted_)))

/-- At its cut-off (a route bound and one restore hop for each level of the tree above its leaves before the deadline of the stage) a chip
below the root gives its record with what it holds; before it, and at the root, the cut-off changes nothing. At the deadline of the
choice, and of the end, the root gives its verdict with what it has; a chip below it that has no verdict a route bound later ends the
restore with COMMIT_INCOMPLETE. Before that time, in another stage, and where no restore runs, the deadlines change nothing. -/
def Obligations.RestoreDeadlines : Prop :=
  (∀ (e : Env) (s₀ s : State), applyEnv e s₀ = s → controllersRun s = true → s.restore.running = true →
    (agreeParent s ≠ none → restoreEnd s ≤ s.ht + restoreBound s + agreeHeight s * restoreHop s →
      exec (.restoreCutoff e) s₀ = .next (pumpDone true (pumpChoice true s))) ∧
    (agreeParent s = none ∨ s.ht + restoreBound s + agreeHeight s * restoreHop s < restoreEnd s →
      exec (.restoreCutoff e) s₀ = .next s)) ∧
  (∀ (e : Env) (s₀ s : State), applyEnv e s₀ = s → controllersRun s = true → s.restore.running = true → agreeParent s = none →
    (s.restore.state = 2 → s.restore.choiceAt ≤ s.ht →
      exec (.restoreChoiceDeadline e) s₀ = .next (rebuildNow s (pumpChoice true s))) ∧
    (s.restore.state = 3 → s.restore.doneAt ≤ s.ht → exec (.restoreDoneDeadline e) s₀ = .next (rebuildNow s (pumpDone true s)))) ∧
  (∀ (e : Env) (s₀ s : State), applyEnv e s₀ = s → controllersRun s = true → s.restore.running = true → agreeParent s ≠ none →
    (s.restore.state = 2 → s.restore.choiceAt + restoreBound s ≤ s.ht → exec (.restoreChoiceDeadline e) s₀ =
      .next (rebuildNow s (endRestore Code.commitIncomplete 2 false s))) ∧
    (s.ht < s.restore.choiceAt + restoreBound s → exec (.restoreChoiceDeadline e) s₀ = .next s) ∧
    (s.restore.state = 3 → s.restore.doneAt + restoreBound s ≤ s.ht → exec (.restoreDoneDeadline e) s₀ =
      .next (rebuildNow s (endRestore Code.commitIncomplete 4 true s))) ∧
    (s.ht < s.restore.doneAt + restoreBound s → exec (.restoreDoneDeadline e) s₀ = .next s)) ∧
  (∀ (e : Env) (s₀ s : State), applyEnv e s₀ = s →
    (s.restore.running = false ∨ s.restore.state ≠ 2 ∨ s.ht < s.restore.choiceAt → exec (.restoreChoiceDeadline e) s₀ = .next s) ∧
    (s.restore.running = false ∨ s.restore.state ≠ 3 ∨ s.ht < s.restore.doneAt → exec (.restoreDoneDeadline e) s₀ = .next s) ∧
    (s.restore.running = false → exec (.restoreCutoff e) s₀ = .next s))

/-- At a handover point that the deadline of an activation has not passed, with the controllers running and bank 0 confirmed: an
activation whose image is ready ends with that image running, unconfirmed, in every controller (whose trap causes stay), bank 1 in trial
and last status 0; one whose image is not ready ends with the bank rejected, INTERNAL as last status and bit 7 of OSE_EVENTS set, and the
image that ran still runs in controllers left as they were. Each reports FIRMWARE action 3. With no handover point, or past the deadline,
the handover changes nothing. An activation past its deadline lapses with REFUSED_TURN, and no bank changes; before that the lapse changes
nothing. HBM does not change. -/
def Obligations.HandoverAndLapse : Prop :=
  (∀ (e : Env) (s₀ s : State) (v deadline : Nat) (a b : Bank), applyEnv e s₀ = s → s.fw.activation = some (v, deadline) → controllersRun s = true →
    (s.ht ≤ deadline → handoverPoint s = true → s.fw.banks = [a, b] → a.state = .confirmed → s.fw.settings.length = 2 →
      (NextWith (exec (.handover e true) s₀) fun t =>
        t.culvert = (fwEvent 0 3 v 0 0 s).culvert ∧
        t.fw.activation = none ∧ t.fw.banks = [a, { b with state := .trial }] ∧ t.fw.running = some 1 ∧ t.fw.runVersion = v ∧
        t.fw.unconfirmed = true ∧ t.fw.lastStatus = 0 ∧
        (∀ c : Fin 4, ctlOf t c = { ctlOf s c with state := 2, image := BitVec.ofNat 32 v }) ∧ t.hbm = s.hbm) ∧
      (NextWith (exec (.handover e false) s₀) fun t =>
        t.culvert = (fwEvent Code.internal 3 v 0 0 s).culvert ∧
        t.fw.activation = none ∧ t.fw.banks = [a, { b with state := .rejected }] ∧ t.fw.running = s.fw.running ∧
        t.fw.runVersion = s.fw.runVersion ∧ t.fw.lastStatus = Code.internal ∧
        t.ctl = s.ctl ∧ (regNat t Reg.events).testBit 7 = true ∧ t.hbm = s.hbm)) ∧
    (deadline < s.ht ∨ handoverPoint s = false → ∀ ready, exec (.handover e ready) s₀ = .next s)) ∧
  (∀ (e : Env) (s₀ s : State) (v deadline : Nat), applyEnv e s₀ = s → s.fw.activation = some (v, deadline) → controllersRun s = true →
    (deadline < s.ht → exec (.activationLapse e) s₀ =
        .next (fwEvent Code.refusedTurn 3 v 0 0 { s with fw.activation := none, fw.lastStatus := Code.refusedTurn }) ∧
      NextWith (exec (.activationLapse e) s₀) fun t =>
        t.fw.activation = none ∧ t.fw.banks = s.fw.banks ∧ t.fw.lastStatus = Code.refusedTurn ∧ t.hbm = s.hbm) ∧
    (s.ht ≤ deadline → exec (.activationLapse e) s₀ = .next s))

/-- With no activation, power transition or restart pending: a trap of a controller, or its watchdog with cause 4, counts in its trap
counter, records its address and cause, sets bit 8 of OSE_EVENTS and restarts that controller, all four for the main one. A restart by the
host in E0 restarts all four with cause 0; from E1 or E2 it first brings the engine to E0; in E3, in dry mode and before the start has
ended it changes nothing. When the restart is done the four run the image again, CONTROLLER_RESET is reported, what they held back is sent
in order, the region changes that waited end, and the restart is over. -/
def Obligations.ControllersTrapAndRestart : Prop :=
  (∀ (e : Env) (s₀ s : State) (c : Fin 4) (cause addr : Nat), applyEnv e s₀ = s → flumeRuns s = true → s.fw.activation = none →
    s.power.moving = none → s.restarting = [] → addr < 2 ^ 32 →
    let trapped := fun (cause : Nat) (t : State) =>
      regNat t (ctlReg c Reg.ctlTraps) = min (regNat s (ctlReg c Reg.ctlTraps) + 1) 0xFFFFFFFF ∧ regNat t (ctlReg c Reg.ctlTrapAt) = addr ∧
      (ctlOf t c).cause = cause ∧ (ctlOf t c).state = 1 ∧ (regNat t Reg.events).testBit 8 = true ∧ t.restartCause = cause ∧
      t.restarting = (if c = 0 then [0, 1, 2, 3] else [c]) ∧ t.hbm = s.hbm ∧ t.sent = s.sent
    NextWith (exec (.controllerTrap e c cause addr) s₀) (trapped cause) ∧ NextWith (exec (.watchdogExpiry e c addr) s₀) (trapped 4)) ∧
  (∀ (e : Env) (s₀ s : State), applyEnv e s₀ = s →
    (s.power.state < 3 → s.dry = false → s.ready = true → s.restarting = [] →
      NextWith (exec (.controllerRestart e) s₀) fun t =>
        t.restarting = [0, 1, 2, 3] ∧ (∀ c : Fin 4, (ctlOf t c).state = 1) ∧ t.restartCause = 0 ∧ t.power.state = 0 ∧ t.step = s.step ∧ t.hbm = s.hbm) ∧
    (s.dry = true ∨ s.ready = false ∨ s.power.state = 3 → exec (.controllerRestart e) s₀ = .next s)) ∧
  (∀ (e : Env) (s₀ s : State), applyEnv e s₀ = s →
    (s.restarting = [] → exec (.controllerRestartDone e) s₀ = .next s) ∧
    (s.restarting ≠ [] →
      let run := s.restarting.foldl (fun s c => setCtl c { ctlOf s c with state := 2, image := BitVec.ofNat 32 s.fw.runVersion } s) s
      exec (.controllerRestartDone e) s₀ = .next (poke (handleHeld noStart (finishRegions
        (event 0x11 0 0 (le 1 (sumOf (s.restarting.map fun c => 2 ^ c.val)) ++ le 1 s.restartCause)
          { run with restarting := [], sent := s.sent ++ s.delayed, delayed := [] }))))))

/-- A request for another state that R407 allows, with no transition running and, in E0, no accepted turn running, begins the transition;
one that it does not allow is refused: the request register returns to the state the engine is in. In E3 only a request for E0 is acted
on. An entry that is done leaves the engine in its state, an entry into E2 or E3 after the events that waited have gone. An entry into E2
or E3 whose conditions fail is abandoned by the command that finds it so (checkEntry): the engine stays in E0, or goes back to it. An exit
from E1 leaves the engine in E0, one from E2 reports POWER as well; an exit from E3 is a start from what E3 keeps. After each, the request
register is acted on again; with no transition running the end of one does only that. -/
def Obligations.PowerRequestsAndTransitions : Prop :=
  (∀ (e : Env) (s₀ s : State) (v : Word), applyEnv e s₀ = s →
    let asked := regPut Reg.pwrCtrl (v.toNat % 4) { s with power.refused := false }
    (s.power.state ≠ 3 ∨ v.toNat % 4 = 0 → s.power.moving = none → v.toNat % 4 ≠ s.power.state → (s.power.state = 0 → runningTurns s = []) →
      (mayMove s.power.state (v.toNat % 4) asked = true →
        exec (.powerRequest e v) s₀ = .next { asked with power.moving := some (v.toNat % 4) }) ∧
      (mayMove s.power.state (v.toNat % 4) asked = false →
        exec (.powerRequest e v) s₀ = .next (regPut Reg.pwrCtrl s.power.state { asked with power.refused := true }))) ∧
    (s.power.state ≠ 3 → s.power.moving ≠ none ∨ v.toNat % 4 = s.power.state ∨ (s.power.state = 0 ∧ runningTurns s ≠ []) →
      exec (.powerRequest e v) s₀ = .next asked) ∧
    (s.power.state = 3 → v.toNat % 4 ≠ 0 → exec (.powerRequest e v) s₀ = .next s)) ∧
  (∀ (e : Env) (s₀ s : State) (st : StartIn) (goal : Nat), applyEnv e s₀ = s → s.power.moving = some goal →
    (goal = 1 → exec (.powerTransitionDone e st) s₀ = .next (actOnRequest { s with power.state := 1, power.moving := none })) ∧
    (2 ≤ goal → mayMove s.power.state goal s = true →
      let p := powerEvent goal 0 s
      exec (.powerTransitionDone e st) s₀ = .next (actOnRequest
        { flushEvents p.culvert.queue.length p with power.state := goal, power.moving := none, power.replicas := [] })) ∧
    (goal = 0 → s.power.state = 1 → exec (.powerTransitionDone e st) s₀ =
      .next (actOnRequest (handleHeld st { s with power.state := 0, power.moving := none }))) ∧
    (goal = 0 → s.power.state = 2 → exec (.powerTransitionDone e st) s₀ =
      .next (actOnRequest (handleHeld st (powerEvent 2 1 { s with power.state := 0, power.moving := none, power.replicas := [] })))) ∧
    (goal = 0 → s.power.state = 3 →
      let u := runStart st (survivors 5 s)
      (u.ready = true ∨ u.dry = true → exec (.powerTransitionDone e st) s₀ = .next (actOnRequest (powerEvent 3 1 u))) ∧
      (u.ready = false → u.dry = false → exec (.powerTransitionDone e st) s₀ = .next (actOnRequest u)))) ∧
  (∀ (e : Env) (s₀ s : State) (st : StartIn), applyEnv e s₀ = s → s.power.moving = none →
    exec (.powerTransitionDone e st) s₀ = .next (actOnRequest s)) ∧
  (∀ (s : State) (goal : Nat), s.power.moving = some goal → 2 ≤ goal →
    (mayMove s.power.state goal s = true → checkEntry s = s) ∧
    (mayMove s.power.state goal s = false → checkEntry s = abandonMove s ∧ (checkEntry s).power.refused = true ∧
      (checkEntry s).power.moving = (if s.power.state = 0 then none else some 0) ∧ regNat (checkEntry s) Reg.pwrCtrl = 0))

/-- Each reset is a start from what it keeps: an engine reset (ignored in E3) retires the tag in force and keeps the memories and the
registers that survive it, an activation that waits being reported refused; a cold chip reset clears HBM; a warm one keeps it. A start
retry runs once its instant has come, in an engine that is neither ready nor dry nor in E3; at any other time it changes nothing. What the
resets keep is named: host memory, HBM but for a cold reset, flash but for the target slot of a drain that has not ended (which reads as
void), and of the registers those whose entry survives; plans, job and step are gone. -/
def Obligations.ResetsAndStarts : Prop :=
  (∀ (e : Env) (s₀ s : State) (st : StartIn), applyEnv e s₀ = s →
    (s.power.state ≠ 3 →
      (s.fw.activation = none → exec (.engineReset e st) s₀ = .next (runStart st (survivors 1 (retireTag s)))) ∧
      (∀ v d, s.fw.activation = some (v, d) →
        exec (.engineReset e st) s₀ = .next (runStart st (fwEvent Code.refusedTurn 3 v 0 0 (survivors 1 (retireTag s)))))) ∧
    (s.power.state = 3 → exec (.engineReset e st) s₀ = .next s) ∧
    exec (.chipColdReset e st) s₀ = .next (runStart st { afterChipReset 64 s with hbm := [], check := [], badBeats := [] }) ∧
    exec (.chipWarmReset e st) s₀ = .next (runStart st (afterChipReset 0 s)) ∧
    (∀ t, s.fw.retryAt = some t →
      (t ≤ s.ht → s.ready = false → s.dry = false → s.power.state < 3 → exec (.startRetry e st) s₀ = .next (runStart st s)) ∧
      (s.ht < t ∨ s.ready = true ∨ s.dry = true ∨ 3 ≤ s.power.state → exec (.startRetry e st) s₀ = .next s)) ∧
    (s.fw.retryAt = none → exec (.startRetry e st) s₀ = .next s)) ∧
  (∀ (code : Nat) (s : State), (survivors code s).hbm = s.hbm ∧ (survivors code s).flash = (voidTarget s).flash ∧
    (s.pond.drain = none → (survivors code s).flash = s.flash) ∧ (survivors code s).hostMem = s.hostMem ∧
    (survivors code s).plans = {} ∧ (survivors code s).job = {} ∧ (survivors code s).step = {} ∧
    (∀ off r n, rowAt off = some (r, n) → regGet (survivors code s) off = if r.surv.testBit code then regGet s off else resetAt off))
end

