-- ==== Sys2Proof/Laws/State.lean ====
section
/-! SUPPORT. What each named update leaves alone: one lemma per field of State per update, true by rfl. -/

namespace Sys2Proof.Machine

open Sys2Proof

@[simp] theorem setRing_pending (q : Fin 16) (r : Ring) (s : State) : (setRing q r s).pending = s.pending := rfl
@[simp] theorem setRing_ht (q : Fin 16) (r : Ring) (s : State) : (setRing q r s).ht = s.ht := rfl
@[simp] theorem setRing_hostTime (q : Fin 16) (r : Ring) (s : State) : (setRing q r s).hostTime = s.hostTime := rfl
@[simp] theorem setRing_regs (q : Fin 16) (r : Ring) (s : State) : (setRing q r s).regs = s.regs := rfl
@[simp] theorem setRing_wideCap (q : Fin 16) (r : Ring) (s : State) : (setRing q r s).wideCap = s.wideCap := rfl
@[simp] theorem setRing_intakeCap (q : Fin 16) (r : Ring) (s : State) : (setRing q r s).intakeCap = s.intakeCap := rfl
@[simp] theorem setRing_loHold (q : Fin 16) (r : Ring) (s : State) : (setRing q r s).loHold = s.loHold := rfl
@[simp] theorem setRing_lastRead (q : Fin 16) (r : Ring) (s : State) : (setRing q r s).lastRead = s.lastRead := rfl
@[simp] theorem setRing_hbm (q : Fin 16) (r : Ring) (s : State) : (setRing q r s).hbm = s.hbm := rfl
@[simp] theorem setRing_check (q : Fin 16) (r : Ring) (s : State) : (setRing q r s).check = s.check := rfl
@[simp] theorem setRing_badBeats (q : Fin 16) (r : Ring) (s : State) : (setRing q r s).badBeats = s.badBeats := rfl
@[simp] theorem setRing_badUnits (q : Fin 16) (r : Ring) (s : State) : (setRing q r s).badUnits = s.badUnits := rfl
@[simp] theorem setRing_selfFault (q : Fin 16) (r : Ring) (s : State) : (setRing q r s).selfFault = s.selfFault := rfl
@[simp] theorem setRing_hostMem (q : Fin 16) (r : Ring) (s : State) : (setRing q r s).hostMem = s.hostMem := rfl
@[simp] theorem setRing_flash (q : Fin 16) (r : Ring) (s : State) : (setRing q r s).flash = s.flash := rfl
@[simp] theorem setRing_regions (q : Fin 16) (r : Ring) (s : State) : (setRing q r s).regions = s.regions := rfl
@[simp] theorem setRing_windows (q : Fin 16) (r : Ring) (s : State) : (setRing q r s).windows = s.windows := rfl
@[simp] theorem setRing_regionWait (q : Fin 16) (r : Ring) (s : State) : (setRing q r s).regionWait = s.regionWait := rfl
@[simp] theorem setRing_takeCount (q : Fin 16) (r : Ring) (s : State) : (setRing q r s).takeCount = s.takeCount := rfl
@[simp] theorem setRing_plans (q : Fin 16) (r : Ring) (s : State) : (setRing q r s).plans = s.plans := rfl
@[simp] theorem setRing_step (q : Fin 16) (r : Ring) (s : State) : (setRing q r s).step = s.step := rfl
@[simp] theorem setRing_red (q : Fin 16) (r : Ring) (s : State) : (setRing q r s).red = s.red := rfl
@[simp] theorem setRing_grads (q : Fin 16) (r : Ring) (s : State) : (setRing q r s).grads = s.grads := rfl
@[simp] theorem setRing_upd (q : Fin 16) (r : Ring) (s : State) : (setRing q r s).upd = s.upd := rfl
@[simp] theorem setRing_basin (q : Fin 16) (r : Ring) (s : State) : (setRing q r s).basin = s.basin := rfl
@[simp] theorem setRing_agree (q : Fin 16) (r : Ring) (s : State) : (setRing q r s).agree = s.agree := rfl
@[simp] theorem setRing_refill (q : Fin 16) (r : Ring) (s : State) : (setRing q r s).refill = s.refill := rfl
@[simp] theorem setRing_guard (q : Fin 16) (r : Ring) (s : State) : (setRing q r s).guard = s.guard := rfl
@[simp] theorem setRing_pond (q : Fin 16) (r : Ring) (s : State) : (setRing q r s).pond = s.pond := rfl
@[simp] theorem setRing_restore (q : Fin 16) (r : Ring) (s : State) : (setRing q r s).restore = s.restore := rfl
@[simp] theorem setRing_job (q : Fin 16) (r : Ring) (s : State) : (setRing q r s).job = s.job := rfl
@[simp] theorem setRing_power (q : Fin 16) (r : Ring) (s : State) : (setRing q r s).power = s.power := rfl
@[simp] theorem setRing_ctl (q : Fin 16) (r : Ring) (s : State) : (setRing q r s).ctl = s.ctl := rfl
@[simp] theorem setRing_restarting (q : Fin 16) (r : Ring) (s : State) : (setRing q r s).restarting = s.restarting := rfl
@[simp] theorem setRing_restartCause (q : Fin 16) (r : Ring) (s : State) : (setRing q r s).restartCause = s.restartCause := rfl
@[simp] theorem setRing_fw (q : Fin 16) (r : Ring) (s : State) : (setRing q r s).fw = s.fw := rfl
@[simp] theorem setRing_scratch (q : Fin 16) (r : Ring) (s : State) : (setRing q r s).scratch = s.scratch := rfl
@[simp] theorem setRing_culvert (q : Fin 16) (r : Ring) (s : State) : (setRing q r s).culvert = s.culvert := rfl
@[simp] theorem setRing_ready (q : Fin 16) (r : Ring) (s : State) : (setRing q r s).ready = s.ready := rfl
@[simp] theorem setRing_dry (q : Fin 16) (r : Ring) (s : State) : (setRing q r s).dry = s.dry := rfl
@[simp] theorem setRing_pendingCommit (q : Fin 16) (r : Ring) (s : State) : (setRing q r s).pendingCommit = s.pendingCommit := rfl
@[simp] theorem setRing_staged (q : Fin 16) (r : Ring) (s : State) : (setRing q r s).staged = s.staged := rfl
@[simp] theorem setRing_cfgDone (q : Fin 16) (r : Ring) (s : State) : (setRing q r s).cfgDone = s.cfgDone := rfl
@[simp] theorem setRing_lastWriter (q : Fin 16) (r : Ring) (s : State) : (setRing q r s).lastWriter = s.lastWriter := rfl
@[simp] theorem setRing_dryEventAt (q : Fin 16) (r : Ring) (s : State) : (setRing q r s).dryEventAt = s.dryEventAt := rfl
@[simp] theorem setRing_sent (q : Fin 16) (r : Ring) (s : State) : (setRing q r s).sent = s.sent := rfl
@[simp] theorem setRing_delayed (q : Fin 16) (r : Ring) (s : State) : (setRing q r s).delayed = s.delayed := rfl
@[simp] theorem setRing_msix (q : Fin 16) (r : Ring) (s : State) : (setRing q r s).msix = s.msix := rfl
@[simp] theorem setRing_freeCtr (q : Fin 16) (r : Ring) (s : State) : (setRing q r s).freeCtr = s.freeCtr := rfl

@[simp] theorem setCtl_pending (c : Fin 4) (r : Controller) (s : State) : (setCtl c r s).pending = s.pending := rfl
@[simp] theorem setCtl_ht (c : Fin 4) (r : Controller) (s : State) : (setCtl c r s).ht = s.ht := rfl
@[simp] theorem setCtl_hostTime (c : Fin 4) (r : Controller) (s : State) : (setCtl c r s).hostTime = s.hostTime := rfl
@[simp] theorem setCtl_regs (c : Fin 4) (r : Controller) (s : State) : (setCtl c r s).regs = s.regs := rfl
@[simp] theorem setCtl_wideCap (c : Fin 4) (r : Controller) (s : State) : (setCtl c r s).wideCap = s.wideCap := rfl
@[simp] theorem setCtl_intakeCap (c : Fin 4) (r : Controller) (s : State) : (setCtl c r s).intakeCap = s.intakeCap := rfl
@[simp] theorem setCtl_loHold (c : Fin 4) (r : Controller) (s : State) : (setCtl c r s).loHold = s.loHold := rfl
@[simp] theorem setCtl_lastRead (c : Fin 4) (r : Controller) (s : State) : (setCtl c r s).lastRead = s.lastRead := rfl
@[simp] theorem setCtl_hbm (c : Fin 4) (r : Controller) (s : State) : (setCtl c r s).hbm = s.hbm := rfl
@[simp] theorem setCtl_check (c : Fin 4) (r : Controller) (s : State) : (setCtl c r s).check = s.check := rfl
@[simp] theorem setCtl_badBeats (c : Fin 4) (r : Controller) (s : State) : (setCtl c r s).badBeats = s.badBeats := rfl
@[simp] theorem setCtl_badUnits (c : Fin 4) (r : Controller) (s : State) : (setCtl c r s).badUnits = s.badUnits := rfl
@[simp] theorem setCtl_selfFault (c : Fin 4) (r : Controller) (s : State) : (setCtl c r s).selfFault = s.selfFault := rfl
@[simp] theorem setCtl_hostMem (c : Fin 4) (r : Controller) (s : State) : (setCtl c r s).hostMem = s.hostMem := rfl
@[simp] theorem setCtl_flash (c : Fin 4) (r : Controller) (s : State) : (setCtl c r s).flash = s.flash := rfl
@[simp] theorem setCtl_regions (c : Fin 4) (r : Controller) (s : State) : (setCtl c r s).regions = s.regions := rfl
@[simp] theorem setCtl_windows (c : Fin 4) (r : Controller) (s : State) : (setCtl c r s).windows = s.windows := rfl
@[simp] theorem setCtl_regionWait (c : Fin 4) (r : Controller) (s : State) : (setCtl c r s).regionWait = s.regionWait := rfl
@[simp] theorem setCtl_rings (c : Fin 4) (r : Controller) (s : State) : (setCtl c r s).rings = s.rings := rfl
@[simp] theorem setCtl_takeCount (c : Fin 4) (r : Controller) (s : State) : (setCtl c r s).takeCount = s.takeCount := rfl
@[simp] theorem setCtl_plans (c : Fin 4) (r : Controller) (s : State) : (setCtl c r s).plans = s.plans := rfl
@[simp] theorem setCtl_step (c : Fin 4) (r : Controller) (s : State) : (setCtl c r s).step = s.step := rfl
@[simp] theorem setCtl_red (c : Fin 4) (r : Controller) (s : State) : (setCtl c r s).red = s.red := rfl
@[simp] theorem setCtl_grads (c : Fin 4) (r : Controller) (s : State) : (setCtl c r s).grads = s.grads := rfl
@[simp] theorem setCtl_upd (c : Fin 4) (r : Controller) (s : State) : (setCtl c r s).upd = s.upd := rfl
@[simp] theorem setCtl_basin (c : Fin 4) (r : Controller) (s : State) : (setCtl c r s).basin = s.basin := rfl
@[simp] theorem setCtl_agree (c : Fin 4) (r : Controller) (s : State) : (setCtl c r s).agree = s.agree := rfl
@[simp] theorem setCtl_refill (c : Fin 4) (r : Controller) (s : State) : (setCtl c r s).refill = s.refill := rfl
@[simp] theorem setCtl_guard (c : Fin 4) (r : Controller) (s : State) : (setCtl c r s).guard = s.guard := rfl
@[simp] theorem setCtl_pond (c : Fin 4) (r : Controller) (s : State) : (setCtl c r s).pond = s.pond := rfl
@[simp] theorem setCtl_restore (c : Fin 4) (r : Controller) (s : State) : (setCtl c r s).restore = s.restore := rfl
@[simp] theorem setCtl_job (c : Fin 4) (r : Controller) (s : State) : (setCtl c r s).job = s.job := rfl
@[simp] theorem setCtl_power (c : Fin 4) (r : Controller) (s : State) : (setCtl c r s).power = s.power := rfl
@[simp] theorem setCtl_restarting (c : Fin 4) (r : Controller) (s : State) : (setCtl c r s).restarting = s.restarting := rfl
@[simp] theorem setCtl_restartCause (c : Fin 4) (r : Controller) (s : State) : (setCtl c r s).restartCause = s.restartCause := rfl
@[simp] theorem setCtl_fw (c : Fin 4) (r : Controller) (s : State) : (setCtl c r s).fw = s.fw := rfl
@[simp] theorem setCtl_scratch (c : Fin 4) (r : Controller) (s : State) : (setCtl c r s).scratch = s.scratch := rfl
@[simp] theorem setCtl_culvert (c : Fin 4) (r : Controller) (s : State) : (setCtl c r s).culvert = s.culvert := rfl
@[simp] theorem setCtl_ready (c : Fin 4) (r : Controller) (s : State) : (setCtl c r s).ready = s.ready := rfl
@[simp] theorem setCtl_dry (c : Fin 4) (r : Controller) (s : State) : (setCtl c r s).dry = s.dry := rfl
@[simp] theorem setCtl_pendingCommit (c : Fin 4) (r : Controller) (s : State) : (setCtl c r s).pendingCommit = s.pendingCommit := rfl
@[simp] theorem setCtl_staged (c : Fin 4) (r : Controller) (s : State) : (setCtl c r s).staged = s.staged := rfl
@[simp] theorem setCtl_cfgDone (c : Fin 4) (r : Controller) (s : State) : (setCtl c r s).cfgDone = s.cfgDone := rfl
@[simp] theorem setCtl_lastWriter (c : Fin 4) (r : Controller) (s : State) : (setCtl c r s).lastWriter = s.lastWriter := rfl
@[simp] theorem setCtl_dryEventAt (c : Fin 4) (r : Controller) (s : State) : (setCtl c r s).dryEventAt = s.dryEventAt := rfl
@[simp] theorem setCtl_sent (c : Fin 4) (r : Controller) (s : State) : (setCtl c r s).sent = s.sent := rfl
@[simp] theorem setCtl_delayed (c : Fin 4) (r : Controller) (s : State) : (setCtl c r s).delayed = s.delayed := rfl
@[simp] theorem setCtl_msix (c : Fin 4) (r : Controller) (s : State) : (setCtl c r s).msix = s.msix := rfl
@[simp] theorem setCtl_freeCtr (c : Fin 4) (r : Controller) (s : State) : (setCtl c r s).freeCtr = s.freeCtr := rfl

@[simp] theorem regSet_pending (off : Nat) (v : Word) (s : State) : (regSet off v s).pending = s.pending := rfl
@[simp] theorem regSet_ht (off : Nat) (v : Word) (s : State) : (regSet off v s).ht = s.ht := rfl
@[simp] theorem regSet_hostTime (off : Nat) (v : Word) (s : State) : (regSet off v s).hostTime = s.hostTime := rfl
@[simp] theorem regSet_wideCap (off : Nat) (v : Word) (s : State) : (regSet off v s).wideCap = s.wideCap := rfl
@[simp] theorem regSet_intakeCap (off : Nat) (v : Word) (s : State) : (regSet off v s).intakeCap = s.intakeCap := rfl
@[simp] theorem regSet_loHold (off : Nat) (v : Word) (s : State) : (regSet off v s).loHold = s.loHold := rfl
@[simp] theorem regSet_lastRead (off : Nat) (v : Word) (s : State) : (regSet off v s).lastRead = s.lastRead := rfl
@[simp] theorem regSet_hbm (off : Nat) (v : Word) (s : State) : (regSet off v s).hbm = s.hbm := rfl
@[simp] theorem regSet_check (off : Nat) (v : Word) (s : State) : (regSet off v s).check = s.check := rfl
@[simp] theorem regSet_badBeats (off : Nat) (v : Word) (s : State) : (regSet off v s).badBeats = s.badBeats := rfl
@[simp] theorem regSet_badUnits (off : Nat) (v : Word) (s : State) : (regSet off v s).badUnits = s.badUnits := rfl
@[simp] theorem regSet_selfFault (off : Nat) (v : Word) (s : State) : (regSet off v s).selfFault = s.selfFault := rfl
@[simp] theorem regSet_hostMem (off : Nat) (v : Word) (s : State) : (regSet off v s).hostMem = s.hostMem := rfl
@[simp] theorem regSet_flash (off : Nat) (v : Word) (s : State) : (regSet off v s).flash = s.flash := rfl
@[simp] theorem regSet_regions (off : Nat) (v : Word) (s : State) : (regSet off v s).regions = s.regions := rfl
@[simp] theorem regSet_windows (off : Nat) (v : Word) (s : State) : (regSet off v s).windows = s.windows := rfl
@[simp] theorem regSet_regionWait (off : Nat) (v : Word) (s : State) : (regSet off v s).regionWait = s.regionWait := rfl
@[simp] theorem regSet_rings (off : Nat) (v : Word) (s : State) : (regSet off v s).rings = s.rings := rfl
@[simp] theorem regSet_takeCount (off : Nat) (v : Word) (s : State) : (regSet off v s).takeCount = s.takeCount := rfl
@[simp] theorem regSet_plans (off : Nat) (v : Word) (s : State) : (regSet off v s).plans = s.plans := rfl
@[simp] theorem regSet_step (off : Nat) (v : Word) (s : State) : (regSet off v s).step = s.step := rfl
@[simp] theorem regSet_red (off : Nat) (v : Word) (s : State) : (regSet off v s).red = s.red := rfl
@[simp] theorem regSet_grads (off : Nat) (v : Word) (s : State) : (regSet off v s).grads = s.grads := rfl
@[simp] theorem regSet_upd (off : Nat) (v : Word) (s : State) : (regSet off v s).upd = s.upd := rfl
@[simp] theorem regSet_basin (off : Nat) (v : Word) (s : State) : (regSet off v s).basin = s.basin := rfl
@[simp] theorem regSet_agree (off : Nat) (v : Word) (s : State) : (regSet off v s).agree = s.agree := rfl
@[simp] theorem regSet_refill (off : Nat) (v : Word) (s : State) : (regSet off v s).refill = s.refill := rfl
@[simp] theorem regSet_guard (off : Nat) (v : Word) (s : State) : (regSet off v s).guard = s.guard := rfl
@[simp] theorem regSet_pond (off : Nat) (v : Word) (s : State) : (regSet off v s).pond = s.pond := rfl
@[simp] theorem regSet_restore (off : Nat) (v : Word) (s : State) : (regSet off v s).restore = s.restore := rfl
@[simp] theorem regSet_job (off : Nat) (v : Word) (s : State) : (regSet off v s).job = s.job := rfl
@[simp] theorem regSet_power (off : Nat) (v : Word) (s : State) : (regSet off v s).power = s.power := rfl
@[simp] theorem regSet_ctl (off : Nat) (v : Word) (s : State) : (regSet off v s).ctl = s.ctl := rfl
@[simp] theorem regSet_restarting (off : Nat) (v : Word) (s : State) : (regSet off v s).restarting = s.restarting := rfl
@[simp] theorem regSet_restartCause (off : Nat) (v : Word) (s : State) : (regSet off v s).restartCause = s.restartCause := rfl
@[simp] theorem regSet_fw (off : Nat) (v : Word) (s : State) : (regSet off v s).fw = s.fw := rfl
@[simp] theorem regSet_scratch (off : Nat) (v : Word) (s : State) : (regSet off v s).scratch = s.scratch := rfl
@[simp] theorem regSet_culvert (off : Nat) (v : Word) (s : State) : (regSet off v s).culvert = s.culvert := rfl
@[simp] theorem regSet_ready (off : Nat) (v : Word) (s : State) : (regSet off v s).ready = s.ready := rfl
@[simp] theorem regSet_dry (off : Nat) (v : Word) (s : State) : (regSet off v s).dry = s.dry := rfl
@[simp] theorem regSet_pendingCommit (off : Nat) (v : Word) (s : State) : (regSet off v s).pendingCommit = s.pendingCommit := rfl
@[simp] theorem regSet_staged (off : Nat) (v : Word) (s : State) : (regSet off v s).staged = s.staged := rfl
@[simp] theorem regSet_cfgDone (off : Nat) (v : Word) (s : State) : (regSet off v s).cfgDone = s.cfgDone := rfl
@[simp] theorem regSet_lastWriter (off : Nat) (v : Word) (s : State) : (regSet off v s).lastWriter = s.lastWriter := rfl
@[simp] theorem regSet_dryEventAt (off : Nat) (v : Word) (s : State) : (regSet off v s).dryEventAt = s.dryEventAt := rfl
@[simp] theorem regSet_sent (off : Nat) (v : Word) (s : State) : (regSet off v s).sent = s.sent := rfl
@[simp] theorem regSet_delayed (off : Nat) (v : Word) (s : State) : (regSet off v s).delayed = s.delayed := rfl
@[simp] theorem regSet_msix (off : Nat) (v : Word) (s : State) : (regSet off v s).msix = s.msix := rfl
@[simp] theorem regSet_freeCtr (off : Nat) (v : Word) (s : State) : (regSet off v s).freeCtr = s.freeCtr := rfl

@[simp] theorem regPut_pending (off n : Nat) (s : State) : (regPut off n s).pending = s.pending := rfl
@[simp] theorem regPut_ht (off n : Nat) (s : State) : (regPut off n s).ht = s.ht := rfl
@[simp] theorem regPut_hostTime (off n : Nat) (s : State) : (regPut off n s).hostTime = s.hostTime := rfl
@[simp] theorem regPut_wideCap (off n : Nat) (s : State) : (regPut off n s).wideCap = s.wideCap := rfl
@[simp] theorem regPut_intakeCap (off n : Nat) (s : State) : (regPut off n s).intakeCap = s.intakeCap := rfl
@[simp] theorem regPut_loHold (off n : Nat) (s : State) : (regPut off n s).loHold = s.loHold := rfl
@[simp] theorem regPut_lastRead (off n : Nat) (s : State) : (regPut off n s).lastRead = s.lastRead := rfl
@[simp] theorem regPut_hbm (off n : Nat) (s : State) : (regPut off n s).hbm = s.hbm := rfl
@[simp] theorem regPut_check (off n : Nat) (s : State) : (regPut off n s).check = s.check := rfl
@[simp] theorem regPut_badBeats (off n : Nat) (s : State) : (regPut off n s).badBeats = s.badBeats := rfl
@[simp] theorem regPut_badUnits (off n : Nat) (s : State) : (regPut off n s).badUnits = s.badUnits := rfl
@[simp] theorem regPut_selfFault (off n : Nat) (s : State) : (regPut off n s).selfFault = s.selfFault := rfl
@[simp] theorem regPut_hostMem (off n : Nat) (s : State) : (regPut off n s).hostMem = s.hostMem := rfl
@[simp] theorem regPut_flash (off n : Nat) (s : State) : (regPut off n s).flash = s.flash := rfl
@[simp] theorem regPut_regions (off n : Nat) (s : State) : (regPut off n s).regions = s.regions := rfl
@[simp] theorem regPut_windows (off n : Nat) (s : State) : (regPut off n s).windows = s.windows := rfl
@[simp] theorem regPut_regionWait (off n : Nat) (s : State) : (regPut off n s).regionWait = s.regionWait := rfl
@[simp] theorem regPut_rings (off n : Nat) (s : State) : (regPut off n s).rings = s.rings := rfl
@[simp] theorem regPut_takeCount (off n : Nat) (s : State) : (regPut off n s).takeCount = s.takeCount := rfl
@[simp] theorem regPut_plans (off n : Nat) (s : State) : (regPut off n s).plans = s.plans := rfl
@[simp] theorem regPut_step (off n : Nat) (s : State) : (regPut off n s).step = s.step := rfl
@[simp] theorem regPut_red (off n : Nat) (s : State) : (regPut off n s).red = s.red := rfl
@[simp] theorem regPut_grads (off n : Nat) (s : State) : (regPut off n s).grads = s.grads := rfl
@[simp] theorem regPut_upd (off n : Nat) (s : State) : (regPut off n s).upd = s.upd := rfl
@[simp] theorem regPut_basin (off n : Nat) (s : State) : (regPut off n s).basin = s.basin := rfl
@[simp] theorem regPut_agree (off n : Nat) (s : State) : (regPut off n s).agree = s.agree := rfl
@[simp] theorem regPut_refill (off n : Nat) (s : State) : (regPut off n s).refill = s.refill := rfl
@[simp] theorem regPut_guard (off n : Nat) (s : State) : (regPut off n s).guard = s.guard := rfl
@[simp] theorem regPut_pond (off n : Nat) (s : State) : (regPut off n s).pond = s.pond := rfl
@[simp] theorem regPut_restore (off n : Nat) (s : State) : (regPut off n s).restore = s.restore := rfl
@[simp] theorem regPut_job (off n : Nat) (s : State) : (regPut off n s).job = s.job := rfl
@[simp] theorem regPut_power (off n : Nat) (s : State) : (regPut off n s).power = s.power := rfl
@[simp] theorem regPut_ctl (off n : Nat) (s : State) : (regPut off n s).ctl = s.ctl := rfl
@[simp] theorem regPut_restarting (off n : Nat) (s : State) : (regPut off n s).restarting = s.restarting := rfl
@[simp] theorem regPut_restartCause (off n : Nat) (s : State) : (regPut off n s).restartCause = s.restartCause := rfl
@[simp] theorem regPut_fw (off n : Nat) (s : State) : (regPut off n s).fw = s.fw := rfl
@[simp] theorem regPut_scratch (off n : Nat) (s : State) : (regPut off n s).scratch = s.scratch := rfl
@[simp] theorem regPut_culvert (off n : Nat) (s : State) : (regPut off n s).culvert = s.culvert := rfl
@[simp] theorem regPut_ready (off n : Nat) (s : State) : (regPut off n s).ready = s.ready := rfl
@[simp] theorem regPut_dry (off n : Nat) (s : State) : (regPut off n s).dry = s.dry := rfl
@[simp] theorem regPut_pendingCommit (off n : Nat) (s : State) : (regPut off n s).pendingCommit = s.pendingCommit := rfl
@[simp] theorem regPut_staged (off n : Nat) (s : State) : (regPut off n s).staged = s.staged := rfl
@[simp] theorem regPut_cfgDone (off n : Nat) (s : State) : (regPut off n s).cfgDone = s.cfgDone := rfl
@[simp] theorem regPut_lastWriter (off n : Nat) (s : State) : (regPut off n s).lastWriter = s.lastWriter := rfl
@[simp] theorem regPut_dryEventAt (off n : Nat) (s : State) : (regPut off n s).dryEventAt = s.dryEventAt := rfl
@[simp] theorem regPut_sent (off n : Nat) (s : State) : (regPut off n s).sent = s.sent := rfl
@[simp] theorem regPut_delayed (off n : Nat) (s : State) : (regPut off n s).delayed = s.delayed := rfl
@[simp] theorem regPut_msix (off n : Nat) (s : State) : (regPut off n s).msix = s.msix := rfl
@[simp] theorem regPut_freeCtr (off n : Nat) (s : State) : (regPut off n s).freeCtr = s.freeCtr := rfl

@[simp] theorem count_pending (off n : Nat) (s : State) : (count off n s).pending = s.pending := rfl
@[simp] theorem count_ht (off n : Nat) (s : State) : (count off n s).ht = s.ht := rfl
@[simp] theorem count_hostTime (off n : Nat) (s : State) : (count off n s).hostTime = s.hostTime := rfl
@[simp] theorem count_wideCap (off n : Nat) (s : State) : (count off n s).wideCap = s.wideCap := rfl
@[simp] theorem count_intakeCap (off n : Nat) (s : State) : (count off n s).intakeCap = s.intakeCap := rfl
@[simp] theorem count_loHold (off n : Nat) (s : State) : (count off n s).loHold = s.loHold := rfl
@[simp] theorem count_lastRead (off n : Nat) (s : State) : (count off n s).lastRead = s.lastRead := rfl
@[simp] theorem count_hbm (off n : Nat) (s : State) : (count off n s).hbm = s.hbm := rfl
@[simp] theorem count_check (off n : Nat) (s : State) : (count off n s).check = s.check := rfl
@[simp] theorem count_badBeats (off n : Nat) (s : State) : (count off n s).badBeats = s.badBeats := rfl
@[simp] theorem count_badUnits (off n : Nat) (s : State) : (count off n s).badUnits = s.badUnits := rfl
@[simp] theorem count_selfFault (off n : Nat) (s : State) : (count off n s).selfFault = s.selfFault := rfl
@[simp] theorem count_hostMem (off n : Nat) (s : State) : (count off n s).hostMem = s.hostMem := rfl
@[simp] theorem count_flash (off n : Nat) (s : State) : (count off n s).flash = s.flash := rfl
@[simp] theorem count_regions (off n : Nat) (s : State) : (count off n s).regions = s.regions := rfl
@[simp] theorem count_windows (off n : Nat) (s : State) : (count off n s).windows = s.windows := rfl
@[simp] theorem count_regionWait (off n : Nat) (s : State) : (count off n s).regionWait = s.regionWait := rfl
@[simp] theorem count_rings (off n : Nat) (s : State) : (count off n s).rings = s.rings := rfl
@[simp] theorem count_takeCount (off n : Nat) (s : State) : (count off n s).takeCount = s.takeCount := rfl
@[simp] theorem count_plans (off n : Nat) (s : State) : (count off n s).plans = s.plans := rfl
@[simp] theorem count_step (off n : Nat) (s : State) : (count off n s).step = s.step := rfl
@[simp] theorem count_red (off n : Nat) (s : State) : (count off n s).red = s.red := rfl
@[simp] theorem count_grads (off n : Nat) (s : State) : (count off n s).grads = s.grads := rfl
@[simp] theorem count_upd (off n : Nat) (s : State) : (count off n s).upd = s.upd := rfl
@[simp] theorem count_basin (off n : Nat) (s : State) : (count off n s).basin = s.basin := rfl
@[simp] theorem count_agree (off n : Nat) (s : State) : (count off n s).agree = s.agree := rfl
@[simp] theorem count_refill (off n : Nat) (s : State) : (count off n s).refill = s.refill := rfl
@[simp] theorem count_guard (off n : Nat) (s : State) : (count off n s).guard = s.guard := rfl
@[simp] theorem count_pond (off n : Nat) (s : State) : (count off n s).pond = s.pond := rfl
@[simp] theorem count_restore (off n : Nat) (s : State) : (count off n s).restore = s.restore := rfl
@[simp] theorem count_job (off n : Nat) (s : State) : (count off n s).job = s.job := rfl
@[simp] theorem count_power (off n : Nat) (s : State) : (count off n s).power = s.power := rfl
@[simp] theorem count_ctl (off n : Nat) (s : State) : (count off n s).ctl = s.ctl := rfl
@[simp] theorem count_restarting (off n : Nat) (s : State) : (count off n s).restarting = s.restarting := rfl
@[simp] theorem count_restartCause (off n : Nat) (s : State) : (count off n s).restartCause = s.restartCause := rfl
@[simp] theorem count_fw (off n : Nat) (s : State) : (count off n s).fw = s.fw := rfl
@[simp] theorem count_scratch (off n : Nat) (s : State) : (count off n s).scratch = s.scratch := rfl
@[simp] theorem count_culvert (off n : Nat) (s : State) : (count off n s).culvert = s.culvert := rfl
@[simp] theorem count_ready (off n : Nat) (s : State) : (count off n s).ready = s.ready := rfl
@[simp] theorem count_dry (off n : Nat) (s : State) : (count off n s).dry = s.dry := rfl
@[simp] theorem count_pendingCommit (off n : Nat) (s : State) : (count off n s).pendingCommit = s.pendingCommit := rfl
@[simp] theorem count_staged (off n : Nat) (s : State) : (count off n s).staged = s.staged := rfl
@[simp] theorem count_cfgDone (off n : Nat) (s : State) : (count off n s).cfgDone = s.cfgDone := rfl
@[simp] theorem count_lastWriter (off n : Nat) (s : State) : (count off n s).lastWriter = s.lastWriter := rfl
@[simp] theorem count_dryEventAt (off n : Nat) (s : State) : (count off n s).dryEventAt = s.dryEventAt := rfl
@[simp] theorem count_sent (off n : Nat) (s : State) : (count off n s).sent = s.sent := rfl
@[simp] theorem count_delayed (off n : Nat) (s : State) : (count off n s).delayed = s.delayed := rfl
@[simp] theorem count_msix (off n : Nat) (s : State) : (count off n s).msix = s.msix := rfl
@[simp] theorem count_freeCtr (off n : Nat) (s : State) : (count off n s).freeCtr = s.freeCtr := rfl

@[simp] theorem widePut_pending (lo n : Nat) (s : State) : (widePut lo n s).pending = s.pending := rfl
@[simp] theorem widePut_ht (lo n : Nat) (s : State) : (widePut lo n s).ht = s.ht := rfl
@[simp] theorem widePut_hostTime (lo n : Nat) (s : State) : (widePut lo n s).hostTime = s.hostTime := rfl
@[simp] theorem widePut_wideCap (lo n : Nat) (s : State) : (widePut lo n s).wideCap = s.wideCap := rfl
@[simp] theorem widePut_intakeCap (lo n : Nat) (s : State) : (widePut lo n s).intakeCap = s.intakeCap := rfl
@[simp] theorem widePut_loHold (lo n : Nat) (s : State) : (widePut lo n s).loHold = s.loHold := rfl
@[simp] theorem widePut_lastRead (lo n : Nat) (s : State) : (widePut lo n s).lastRead = s.lastRead := rfl
@[simp] theorem widePut_hbm (lo n : Nat) (s : State) : (widePut lo n s).hbm = s.hbm := rfl
@[simp] theorem widePut_check (lo n : Nat) (s : State) : (widePut lo n s).check = s.check := rfl
@[simp] theorem widePut_badBeats (lo n : Nat) (s : State) : (widePut lo n s).badBeats = s.badBeats := rfl
@[simp] theorem widePut_badUnits (lo n : Nat) (s : State) : (widePut lo n s).badUnits = s.badUnits := rfl
@[simp] theorem widePut_selfFault (lo n : Nat) (s : State) : (widePut lo n s).selfFault = s.selfFault := rfl
@[simp] theorem widePut_hostMem (lo n : Nat) (s : State) : (widePut lo n s).hostMem = s.hostMem := rfl
@[simp] theorem widePut_flash (lo n : Nat) (s : State) : (widePut lo n s).flash = s.flash := rfl
@[simp] theorem widePut_regions (lo n : Nat) (s : State) : (widePut lo n s).regions = s.regions := rfl
@[simp] theorem widePut_windows (lo n : Nat) (s : State) : (widePut lo n s).windows = s.windows := rfl
@[simp] theorem widePut_regionWait (lo n : Nat) (s : State) : (widePut lo n s).regionWait = s.regionWait := rfl
@[simp] theorem widePut_rings (lo n : Nat) (s : State) : (widePut lo n s).rings = s.rings := rfl
@[simp] theorem widePut_takeCount (lo n : Nat) (s : State) : (widePut lo n s).takeCount = s.takeCount := rfl
@[simp] theorem widePut_plans (lo n : Nat) (s : State) : (widePut lo n s).plans = s.plans := rfl
@[simp] theorem widePut_step (lo n : Nat) (s : State) : (widePut lo n s).step = s.step := rfl
@[simp] theorem widePut_red (lo n : Nat) (s : State) : (widePut lo n s).red = s.red := rfl
@[simp] theorem widePut_grads (lo n : Nat) (s : State) : (widePut lo n s).grads = s.grads := rfl
@[simp] theorem widePut_upd (lo n : Nat) (s : State) : (widePut lo n s).upd = s.upd := rfl
@[simp] theorem widePut_basin (lo n : Nat) (s : State) : (widePut lo n s).basin = s.basin := rfl
@[simp] theorem widePut_agree (lo n : Nat) (s : State) : (widePut lo n s).agree = s.agree := rfl
@[simp] theorem widePut_refill (lo n : Nat) (s : State) : (widePut lo n s).refill = s.refill := rfl
@[simp] theorem widePut_guard (lo n : Nat) (s : State) : (widePut lo n s).guard = s.guard := rfl
@[simp] theorem widePut_pond (lo n : Nat) (s : State) : (widePut lo n s).pond = s.pond := rfl
@[simp] theorem widePut_restore (lo n : Nat) (s : State) : (widePut lo n s).restore = s.restore := rfl
@[simp] theorem widePut_job (lo n : Nat) (s : State) : (widePut lo n s).job = s.job := rfl
@[simp] theorem widePut_power (lo n : Nat) (s : State) : (widePut lo n s).power = s.power := rfl
@[simp] theorem widePut_ctl (lo n : Nat) (s : State) : (widePut lo n s).ctl = s.ctl := rfl
@[simp] theorem widePut_restarting (lo n : Nat) (s : State) : (widePut lo n s).restarting = s.restarting := rfl
@[simp] theorem widePut_restartCause (lo n : Nat) (s : State) : (widePut lo n s).restartCause = s.restartCause := rfl
@[simp] theorem widePut_fw (lo n : Nat) (s : State) : (widePut lo n s).fw = s.fw := rfl
@[simp] theorem widePut_scratch (lo n : Nat) (s : State) : (widePut lo n s).scratch = s.scratch := rfl
@[simp] theorem widePut_culvert (lo n : Nat) (s : State) : (widePut lo n s).culvert = s.culvert := rfl
@[simp] theorem widePut_ready (lo n : Nat) (s : State) : (widePut lo n s).ready = s.ready := rfl
@[simp] theorem widePut_dry (lo n : Nat) (s : State) : (widePut lo n s).dry = s.dry := rfl
@[simp] theorem widePut_pendingCommit (lo n : Nat) (s : State) : (widePut lo n s).pendingCommit = s.pendingCommit := rfl
@[simp] theorem widePut_staged (lo n : Nat) (s : State) : (widePut lo n s).staged = s.staged := rfl
@[simp] theorem widePut_cfgDone (lo n : Nat) (s : State) : (widePut lo n s).cfgDone = s.cfgDone := rfl
@[simp] theorem widePut_lastWriter (lo n : Nat) (s : State) : (widePut lo n s).lastWriter = s.lastWriter := rfl
@[simp] theorem widePut_dryEventAt (lo n : Nat) (s : State) : (widePut lo n s).dryEventAt = s.dryEventAt := rfl
@[simp] theorem widePut_sent (lo n : Nat) (s : State) : (widePut lo n s).sent = s.sent := rfl
@[simp] theorem widePut_delayed (lo n : Nat) (s : State) : (widePut lo n s).delayed = s.delayed := rfl
@[simp] theorem widePut_msix (lo n : Nat) (s : State) : (widePut lo n s).msix = s.msix := rfl
@[simp] theorem widePut_freeCtr (lo n : Nat) (s : State) : (widePut lo n s).freeCtr = s.freeCtr := rfl

@[simp] theorem flagEvent_pending (n : Nat) (s : State) : (flagEvent n s).pending = s.pending := rfl
@[simp] theorem flagEvent_ht (n : Nat) (s : State) : (flagEvent n s).ht = s.ht := rfl
@[simp] theorem flagEvent_hostTime (n : Nat) (s : State) : (flagEvent n s).hostTime = s.hostTime := rfl
@[simp] theorem flagEvent_wideCap (n : Nat) (s : State) : (flagEvent n s).wideCap = s.wideCap := rfl
@[simp] theorem flagEvent_intakeCap (n : Nat) (s : State) : (flagEvent n s).intakeCap = s.intakeCap := rfl
@[simp] theorem flagEvent_loHold (n : Nat) (s : State) : (flagEvent n s).loHold = s.loHold := rfl
@[simp] theorem flagEvent_lastRead (n : Nat) (s : State) : (flagEvent n s).lastRead = s.lastRead := rfl
@[simp] theorem flagEvent_hbm (n : Nat) (s : State) : (flagEvent n s).hbm = s.hbm := rfl
@[simp] theorem flagEvent_check (n : Nat) (s : State) : (flagEvent n s).check = s.check := rfl
@[simp] theorem flagEvent_badBeats (n : Nat) (s : State) : (flagEvent n s).badBeats = s.badBeats := rfl
@[simp] theorem flagEvent_badUnits (n : Nat) (s : State) : (flagEvent n s).badUnits = s.badUnits := rfl
@[simp] theorem flagEvent_selfFault (n : Nat) (s : State) : (flagEvent n s).selfFault = s.selfFault := rfl
@[simp] theorem flagEvent_hostMem (n : Nat) (s : State) : (flagEvent n s).hostMem = s.hostMem := rfl
@[simp] theorem flagEvent_flash (n : Nat) (s : State) : (flagEvent n s).flash = s.flash := rfl
@[simp] theorem flagEvent_regions (n : Nat) (s : State) : (flagEvent n s).regions = s.regions := rfl
@[simp] theorem flagEvent_windows (n : Nat) (s : State) : (flagEvent n s).windows = s.windows := rfl
@[simp] theorem flagEvent_regionWait (n : Nat) (s : State) : (flagEvent n s).regionWait = s.regionWait := rfl
@[simp] theorem flagEvent_rings (n : Nat) (s : State) : (flagEvent n s).rings = s.rings := rfl
@[simp] theorem flagEvent_takeCount (n : Nat) (s : State) : (flagEvent n s).takeCount = s.takeCount := rfl
@[simp] theorem flagEvent_plans (n : Nat) (s : State) : (flagEvent n s).plans = s.plans := rfl
@[simp] theorem flagEvent_step (n : Nat) (s : State) : (flagEvent n s).step = s.step := rfl
@[simp] theorem flagEvent_red (n : Nat) (s : State) : (flagEvent n s).red = s.red := rfl
@[simp] theorem flagEvent_grads (n : Nat) (s : State) : (flagEvent n s).grads = s.grads := rfl
@[simp] theorem flagEvent_upd (n : Nat) (s : State) : (flagEvent n s).upd = s.upd := rfl
@[simp] theorem flagEvent_basin (n : Nat) (s : State) : (flagEvent n s).basin = s.basin := rfl
@[simp] theorem flagEvent_agree (n : Nat) (s : State) : (flagEvent n s).agree = s.agree := rfl
@[simp] theorem flagEvent_refill (n : Nat) (s : State) : (flagEvent n s).refill = s.refill := rfl
@[simp] theorem flagEvent_guard (n : Nat) (s : State) : (flagEvent n s).guard = s.guard := rfl
@[simp] theorem flagEvent_pond (n : Nat) (s : State) : (flagEvent n s).pond = s.pond := rfl
@[simp] theorem flagEvent_restore (n : Nat) (s : State) : (flagEvent n s).restore = s.restore := rfl
@[simp] theorem flagEvent_job (n : Nat) (s : State) : (flagEvent n s).job = s.job := rfl
@[simp] theorem flagEvent_power (n : Nat) (s : State) : (flagEvent n s).power = s.power := rfl
@[simp] theorem flagEvent_ctl (n : Nat) (s : State) : (flagEvent n s).ctl = s.ctl := rfl
@[simp] theorem flagEvent_restarting (n : Nat) (s : State) : (flagEvent n s).restarting = s.restarting := rfl
@[simp] theorem flagEvent_restartCause (n : Nat) (s : State) : (flagEvent n s).restartCause = s.restartCause := rfl
@[simp] theorem flagEvent_fw (n : Nat) (s : State) : (flagEvent n s).fw = s.fw := rfl
@[simp] theorem flagEvent_scratch (n : Nat) (s : State) : (flagEvent n s).scratch = s.scratch := rfl
@[simp] theorem flagEvent_culvert (n : Nat) (s : State) : (flagEvent n s).culvert = s.culvert := rfl
@[simp] theorem flagEvent_ready (n : Nat) (s : State) : (flagEvent n s).ready = s.ready := rfl
@[simp] theorem flagEvent_dry (n : Nat) (s : State) : (flagEvent n s).dry = s.dry := rfl
@[simp] theorem flagEvent_pendingCommit (n : Nat) (s : State) : (flagEvent n s).pendingCommit = s.pendingCommit := rfl
@[simp] theorem flagEvent_staged (n : Nat) (s : State) : (flagEvent n s).staged = s.staged := rfl
@[simp] theorem flagEvent_cfgDone (n : Nat) (s : State) : (flagEvent n s).cfgDone = s.cfgDone := rfl
@[simp] theorem flagEvent_lastWriter (n : Nat) (s : State) : (flagEvent n s).lastWriter = s.lastWriter := rfl
@[simp] theorem flagEvent_dryEventAt (n : Nat) (s : State) : (flagEvent n s).dryEventAt = s.dryEventAt := rfl
@[simp] theorem flagEvent_sent (n : Nat) (s : State) : (flagEvent n s).sent = s.sent := rfl
@[simp] theorem flagEvent_delayed (n : Nat) (s : State) : (flagEvent n s).delayed = s.delayed := rfl
@[simp] theorem flagEvent_msix (n : Nat) (s : State) : (flagEvent n s).msix = s.msix := rfl
@[simp] theorem flagEvent_freeCtr (n : Nat) (s : State) : (flagEvent n s).freeCtr = s.freeCtr := rfl

@[simp] theorem hostWrite_pending (a : Nat) (bs : Bytes) (s : State) : (hostWrite a bs s).pending = s.pending := rfl
@[simp] theorem hostWrite_ht (a : Nat) (bs : Bytes) (s : State) : (hostWrite a bs s).ht = s.ht := rfl
@[simp] theorem hostWrite_hostTime (a : Nat) (bs : Bytes) (s : State) : (hostWrite a bs s).hostTime = s.hostTime := rfl
@[simp] theorem hostWrite_regs (a : Nat) (bs : Bytes) (s : State) : (hostWrite a bs s).regs = s.regs := rfl
@[simp] theorem hostWrite_wideCap (a : Nat) (bs : Bytes) (s : State) : (hostWrite a bs s).wideCap = s.wideCap := rfl
@[simp] theorem hostWrite_intakeCap (a : Nat) (bs : Bytes) (s : State) : (hostWrite a bs s).intakeCap = s.intakeCap := rfl
@[simp] theorem hostWrite_loHold (a : Nat) (bs : Bytes) (s : State) : (hostWrite a bs s).loHold = s.loHold := rfl
@[simp] theorem hostWrite_lastRead (a : Nat) (bs : Bytes) (s : State) : (hostWrite a bs s).lastRead = s.lastRead := rfl
@[simp] theorem hostWrite_hbm (a : Nat) (bs : Bytes) (s : State) : (hostWrite a bs s).hbm = s.hbm := rfl
@[simp] theorem hostWrite_check (a : Nat) (bs : Bytes) (s : State) : (hostWrite a bs s).check = s.check := rfl
@[simp] theorem hostWrite_badBeats (a : Nat) (bs : Bytes) (s : State) : (hostWrite a bs s).badBeats = s.badBeats := rfl
@[simp] theorem hostWrite_badUnits (a : Nat) (bs : Bytes) (s : State) : (hostWrite a bs s).badUnits = s.badUnits := rfl
@[simp] theorem hostWrite_selfFault (a : Nat) (bs : Bytes) (s : State) : (hostWrite a bs s).selfFault = s.selfFault := rfl
@[simp] theorem hostWrite_flash (a : Nat) (bs : Bytes) (s : State) : (hostWrite a bs s).flash = s.flash := rfl
@[simp] theorem hostWrite_regions (a : Nat) (bs : Bytes) (s : State) : (hostWrite a bs s).regions = s.regions := rfl
@[simp] theorem hostWrite_windows (a : Nat) (bs : Bytes) (s : State) : (hostWrite a bs s).windows = s.windows := rfl
@[simp] theorem hostWrite_regionWait (a : Nat) (bs : Bytes) (s : State) : (hostWrite a bs s).regionWait = s.regionWait := rfl
@[simp] theorem hostWrite_rings (a : Nat) (bs : Bytes) (s : State) : (hostWrite a bs s).rings = s.rings := rfl
@[simp] theorem hostWrite_takeCount (a : Nat) (bs : Bytes) (s : State) : (hostWrite a bs s).takeCount = s.takeCount := rfl
@[simp] theorem hostWrite_plans (a : Nat) (bs : Bytes) (s : State) : (hostWrite a bs s).plans = s.plans := rfl
@[simp] theorem hostWrite_step (a : Nat) (bs : Bytes) (s : State) : (hostWrite a bs s).step = s.step := rfl
@[simp] theorem hostWrite_red (a : Nat) (bs : Bytes) (s : State) : (hostWrite a bs s).red = s.red := rfl
@[simp] theorem hostWrite_grads (a : Nat) (bs : Bytes) (s : State) : (hostWrite a bs s).grads = s.grads := rfl
@[simp] theorem hostWrite_upd (a : Nat) (bs : Bytes) (s : State) : (hostWrite a bs s).upd = s.upd := rfl
@[simp] theorem hostWrite_basin (a : Nat) (bs : Bytes) (s : State) : (hostWrite a bs s).basin = s.basin := rfl
@[simp] theorem hostWrite_agree (a : Nat) (bs : Bytes) (s : State) : (hostWrite a bs s).agree = s.agree := rfl
@[simp] theorem hostWrite_refill (a : Nat) (bs : Bytes) (s : State) : (hostWrite a bs s).refill = s.refill := rfl
@[simp] theorem hostWrite_guard (a : Nat) (bs : Bytes) (s : State) : (hostWrite a bs s).guard = s.guard := rfl
@[simp] theorem hostWrite_pond (a : Nat) (bs : Bytes) (s : State) : (hostWrite a bs s).pond = s.pond := rfl
@[simp] theorem hostWrite_restore (a : Nat) (bs : Bytes) (s : State) : (hostWrite a bs s).restore = s.restore := rfl
@[simp] theorem hostWrite_job (a : Nat) (bs : Bytes) (s : State) : (hostWrite a bs s).job = s.job := rfl
@[simp] theorem hostWrite_power (a : Nat) (bs : Bytes) (s : State) : (hostWrite a bs s).power = s.power := rfl
@[simp] theorem hostWrite_ctl (a : Nat) (bs : Bytes) (s : State) : (hostWrite a bs s).ctl = s.ctl := rfl
@[simp] theorem hostWrite_restarting (a : Nat) (bs : Bytes) (s : State) : (hostWrite a bs s).restarting = s.restarting := rfl
@[simp] theorem hostWrite_restartCause (a : Nat) (bs : Bytes) (s : State) : (hostWrite a bs s).restartCause = s.restartCause := rfl
@[simp] theorem hostWrite_fw (a : Nat) (bs : Bytes) (s : State) : (hostWrite a bs s).fw = s.fw := rfl
@[simp] theorem hostWrite_scratch (a : Nat) (bs : Bytes) (s : State) : (hostWrite a bs s).scratch = s.scratch := rfl
@[simp] theorem hostWrite_culvert (a : Nat) (bs : Bytes) (s : State) : (hostWrite a bs s).culvert = s.culvert := rfl
@[simp] theorem hostWrite_ready (a : Nat) (bs : Bytes) (s : State) : (hostWrite a bs s).ready = s.ready := rfl
@[simp] theorem hostWrite_dry (a : Nat) (bs : Bytes) (s : State) : (hostWrite a bs s).dry = s.dry := rfl
@[simp] theorem hostWrite_pendingCommit (a : Nat) (bs : Bytes) (s : State) : (hostWrite a bs s).pendingCommit = s.pendingCommit := rfl
@[simp] theorem hostWrite_staged (a : Nat) (bs : Bytes) (s : State) : (hostWrite a bs s).staged = s.staged := rfl
@[simp] theorem hostWrite_cfgDone (a : Nat) (bs : Bytes) (s : State) : (hostWrite a bs s).cfgDone = s.cfgDone := rfl
@[simp] theorem hostWrite_lastWriter (a : Nat) (bs : Bytes) (s : State) : (hostWrite a bs s).lastWriter = s.lastWriter := rfl
@[simp] theorem hostWrite_dryEventAt (a : Nat) (bs : Bytes) (s : State) : (hostWrite a bs s).dryEventAt = s.dryEventAt := rfl
@[simp] theorem hostWrite_sent (a : Nat) (bs : Bytes) (s : State) : (hostWrite a bs s).sent = s.sent := rfl
@[simp] theorem hostWrite_delayed (a : Nat) (bs : Bytes) (s : State) : (hostWrite a bs s).delayed = s.delayed := rfl
@[simp] theorem hostWrite_msix (a : Nat) (bs : Bytes) (s : State) : (hostWrite a bs s).msix = s.msix := rfl
@[simp] theorem hostWrite_freeCtr (a : Nat) (bs : Bytes) (s : State) : (hostWrite a bs s).freeCtr = s.freeCtr := rfl

@[simp] theorem hbmPut_pending (a : Nat) (bs : Bytes) (s : State) : (hbmPut a bs s).pending = s.pending := rfl
@[simp] theorem hbmPut_ht (a : Nat) (bs : Bytes) (s : State) : (hbmPut a bs s).ht = s.ht := rfl
@[simp] theorem hbmPut_hostTime (a : Nat) (bs : Bytes) (s : State) : (hbmPut a bs s).hostTime = s.hostTime := rfl
@[simp] theorem hbmPut_regs (a : Nat) (bs : Bytes) (s : State) : (hbmPut a bs s).regs = s.regs := rfl
@[simp] theorem hbmPut_wideCap (a : Nat) (bs : Bytes) (s : State) : (hbmPut a bs s).wideCap = s.wideCap := rfl
@[simp] theorem hbmPut_intakeCap (a : Nat) (bs : Bytes) (s : State) : (hbmPut a bs s).intakeCap = s.intakeCap := rfl
@[simp] theorem hbmPut_loHold (a : Nat) (bs : Bytes) (s : State) : (hbmPut a bs s).loHold = s.loHold := rfl
@[simp] theorem hbmPut_lastRead (a : Nat) (bs : Bytes) (s : State) : (hbmPut a bs s).lastRead = s.lastRead := rfl
@[simp] theorem hbmPut_check (a : Nat) (bs : Bytes) (s : State) : (hbmPut a bs s).check = s.check := rfl
@[simp] theorem hbmPut_badBeats (a : Nat) (bs : Bytes) (s : State) : (hbmPut a bs s).badBeats = s.badBeats := rfl
@[simp] theorem hbmPut_badUnits (a : Nat) (bs : Bytes) (s : State) : (hbmPut a bs s).badUnits = s.badUnits := rfl
@[simp] theorem hbmPut_selfFault (a : Nat) (bs : Bytes) (s : State) : (hbmPut a bs s).selfFault = s.selfFault := rfl
@[simp] theorem hbmPut_hostMem (a : Nat) (bs : Bytes) (s : State) : (hbmPut a bs s).hostMem = s.hostMem := rfl
@[simp] theorem hbmPut_flash (a : Nat) (bs : Bytes) (s : State) : (hbmPut a bs s).flash = s.flash := rfl
@[simp] theorem hbmPut_regions (a : Nat) (bs : Bytes) (s : State) : (hbmPut a bs s).regions = s.regions := rfl
@[simp] theorem hbmPut_windows (a : Nat) (bs : Bytes) (s : State) : (hbmPut a bs s).windows = s.windows := rfl
@[simp] theorem hbmPut_regionWait (a : Nat) (bs : Bytes) (s : State) : (hbmPut a bs s).regionWait = s.regionWait := rfl
@[simp] theorem hbmPut_rings (a : Nat) (bs : Bytes) (s : State) : (hbmPut a bs s).rings = s.rings := rfl
@[simp] theorem hbmPut_takeCount (a : Nat) (bs : Bytes) (s : State) : (hbmPut a bs s).takeCount = s.takeCount := rfl
@[simp] theorem hbmPut_plans (a : Nat) (bs : Bytes) (s : State) : (hbmPut a bs s).plans = s.plans := rfl
@[simp] theorem hbmPut_step (a : Nat) (bs : Bytes) (s : State) : (hbmPut a bs s).step = s.step := rfl
@[simp] theorem hbmPut_red (a : Nat) (bs : Bytes) (s : State) : (hbmPut a bs s).red = s.red := rfl
@[simp] theorem hbmPut_grads (a : Nat) (bs : Bytes) (s : State) : (hbmPut a bs s).grads = s.grads := rfl
@[simp] theorem hbmPut_upd (a : Nat) (bs : Bytes) (s : State) : (hbmPut a bs s).upd = s.upd := rfl
@[simp] theorem hbmPut_basin (a : Nat) (bs : Bytes) (s : State) : (hbmPut a bs s).basin = s.basin := rfl
@[simp] theorem hbmPut_agree (a : Nat) (bs : Bytes) (s : State) : (hbmPut a bs s).agree = s.agree := rfl
@[simp] theorem hbmPut_refill (a : Nat) (bs : Bytes) (s : State) : (hbmPut a bs s).refill = s.refill := rfl
@[simp] theorem hbmPut_guard (a : Nat) (bs : Bytes) (s : State) : (hbmPut a bs s).guard = s.guard := rfl
@[simp] theorem hbmPut_pond (a : Nat) (bs : Bytes) (s : State) : (hbmPut a bs s).pond = s.pond := rfl
@[simp] theorem hbmPut_restore (a : Nat) (bs : Bytes) (s : State) : (hbmPut a bs s).restore = s.restore := rfl
@[simp] theorem hbmPut_job (a : Nat) (bs : Bytes) (s : State) : (hbmPut a bs s).job = s.job := rfl
@[simp] theorem hbmPut_power (a : Nat) (bs : Bytes) (s : State) : (hbmPut a bs s).power = s.power := rfl
@[simp] theorem hbmPut_ctl (a : Nat) (bs : Bytes) (s : State) : (hbmPut a bs s).ctl = s.ctl := rfl
@[simp] theorem hbmPut_restarting (a : Nat) (bs : Bytes) (s : State) : (hbmPut a bs s).restarting = s.restarting := rfl
@[simp] theorem hbmPut_restartCause (a : Nat) (bs : Bytes) (s : State) : (hbmPut a bs s).restartCause = s.restartCause := rfl
@[simp] theorem hbmPut_fw (a : Nat) (bs : Bytes) (s : State) : (hbmPut a bs s).fw = s.fw := rfl
@[simp] theorem hbmPut_scratch (a : Nat) (bs : Bytes) (s : State) : (hbmPut a bs s).scratch = s.scratch := rfl
@[simp] theorem hbmPut_culvert (a : Nat) (bs : Bytes) (s : State) : (hbmPut a bs s).culvert = s.culvert := rfl
@[simp] theorem hbmPut_ready (a : Nat) (bs : Bytes) (s : State) : (hbmPut a bs s).ready = s.ready := rfl
@[simp] theorem hbmPut_dry (a : Nat) (bs : Bytes) (s : State) : (hbmPut a bs s).dry = s.dry := rfl
@[simp] theorem hbmPut_pendingCommit (a : Nat) (bs : Bytes) (s : State) : (hbmPut a bs s).pendingCommit = s.pendingCommit := rfl
@[simp] theorem hbmPut_staged (a : Nat) (bs : Bytes) (s : State) : (hbmPut a bs s).staged = s.staged := rfl
@[simp] theorem hbmPut_cfgDone (a : Nat) (bs : Bytes) (s : State) : (hbmPut a bs s).cfgDone = s.cfgDone := rfl
@[simp] theorem hbmPut_lastWriter (a : Nat) (bs : Bytes) (s : State) : (hbmPut a bs s).lastWriter = s.lastWriter := rfl
@[simp] theorem hbmPut_dryEventAt (a : Nat) (bs : Bytes) (s : State) : (hbmPut a bs s).dryEventAt = s.dryEventAt := rfl
@[simp] theorem hbmPut_sent (a : Nat) (bs : Bytes) (s : State) : (hbmPut a bs s).sent = s.sent := rfl
@[simp] theorem hbmPut_delayed (a : Nat) (bs : Bytes) (s : State) : (hbmPut a bs s).delayed = s.delayed := rfl
@[simp] theorem hbmPut_msix (a : Nat) (bs : Bytes) (s : State) : (hbmPut a bs s).msix = s.msix := rfl
@[simp] theorem hbmPut_freeCtr (a : Nat) (bs : Bytes) (s : State) : (hbmPut a bs s).freeCtr = s.freeCtr := rfl

@[simp] theorem flashWrite_pending (a : Nat) (bs : Bytes) (s : State) : (flashWrite a bs s).pending = s.pending := rfl
@[simp] theorem flashWrite_ht (a : Nat) (bs : Bytes) (s : State) : (flashWrite a bs s).ht = s.ht := rfl
@[simp] theorem flashWrite_hostTime (a : Nat) (bs : Bytes) (s : State) : (flashWrite a bs s).hostTime = s.hostTime := rfl
@[simp] theorem flashWrite_regs (a : Nat) (bs : Bytes) (s : State) : (flashWrite a bs s).regs = s.regs := rfl
@[simp] theorem flashWrite_wideCap (a : Nat) (bs : Bytes) (s : State) : (flashWrite a bs s).wideCap = s.wideCap := rfl
@[simp] theorem flashWrite_intakeCap (a : Nat) (bs : Bytes) (s : State) : (flashWrite a bs s).intakeCap = s.intakeCap := rfl
@[simp] theorem flashWrite_loHold (a : Nat) (bs : Bytes) (s : State) : (flashWrite a bs s).loHold = s.loHold := rfl
@[simp] theorem flashWrite_lastRead (a : Nat) (bs : Bytes) (s : State) : (flashWrite a bs s).lastRead = s.lastRead := rfl
@[simp] theorem flashWrite_hbm (a : Nat) (bs : Bytes) (s : State) : (flashWrite a bs s).hbm = s.hbm := rfl
@[simp] theorem flashWrite_check (a : Nat) (bs : Bytes) (s : State) : (flashWrite a bs s).check = s.check := rfl
@[simp] theorem flashWrite_badBeats (a : Nat) (bs : Bytes) (s : State) : (flashWrite a bs s).badBeats = s.badBeats := rfl
@[simp] theorem flashWrite_badUnits (a : Nat) (bs : Bytes) (s : State) : (flashWrite a bs s).badUnits =
    s.badUnits.filter (fun u => !(decide (u * 4096 < a + bs.length) && decide (a < (u + 1) * 4096))) := rfl
@[simp] theorem flashWrite_selfFault (a : Nat) (bs : Bytes) (s : State) : (flashWrite a bs s).selfFault = s.selfFault := rfl
@[simp] theorem flashWrite_hostMem (a : Nat) (bs : Bytes) (s : State) : (flashWrite a bs s).hostMem = s.hostMem := rfl
@[simp] theorem flashWrite_regions (a : Nat) (bs : Bytes) (s : State) : (flashWrite a bs s).regions = s.regions := rfl
@[simp] theorem flashWrite_windows (a : Nat) (bs : Bytes) (s : State) : (flashWrite a bs s).windows = s.windows := rfl
@[simp] theorem flashWrite_regionWait (a : Nat) (bs : Bytes) (s : State) : (flashWrite a bs s).regionWait = s.regionWait := rfl
@[simp] theorem flashWrite_rings (a : Nat) (bs : Bytes) (s : State) : (flashWrite a bs s).rings = s.rings := rfl
@[simp] theorem flashWrite_takeCount (a : Nat) (bs : Bytes) (s : State) : (flashWrite a bs s).takeCount = s.takeCount := rfl
@[simp] theorem flashWrite_plans (a : Nat) (bs : Bytes) (s : State) : (flashWrite a bs s).plans = s.plans := rfl
@[simp] theorem flashWrite_step (a : Nat) (bs : Bytes) (s : State) : (flashWrite a bs s).step = s.step := rfl
@[simp] theorem flashWrite_red (a : Nat) (bs : Bytes) (s : State) : (flashWrite a bs s).red = s.red := rfl
@[simp] theorem flashWrite_grads (a : Nat) (bs : Bytes) (s : State) : (flashWrite a bs s).grads = s.grads := rfl
@[simp] theorem flashWrite_upd (a : Nat) (bs : Bytes) (s : State) : (flashWrite a bs s).upd = s.upd := rfl
@[simp] theorem flashWrite_basin (a : Nat) (bs : Bytes) (s : State) : (flashWrite a bs s).basin = s.basin := rfl
@[simp] theorem flashWrite_agree (a : Nat) (bs : Bytes) (s : State) : (flashWrite a bs s).agree = s.agree := rfl
@[simp] theorem flashWrite_refill (a : Nat) (bs : Bytes) (s : State) : (flashWrite a bs s).refill = s.refill := rfl
@[simp] theorem flashWrite_guard (a : Nat) (bs : Bytes) (s : State) : (flashWrite a bs s).guard = s.guard := rfl
@[simp] theorem flashWrite_pond (a : Nat) (bs : Bytes) (s : State) : (flashWrite a bs s).pond = s.pond := rfl
@[simp] theorem flashWrite_restore (a : Nat) (bs : Bytes) (s : State) : (flashWrite a bs s).restore = s.restore := rfl
@[simp] theorem flashWrite_job (a : Nat) (bs : Bytes) (s : State) : (flashWrite a bs s).job = s.job := rfl
@[simp] theorem flashWrite_power (a : Nat) (bs : Bytes) (s : State) : (flashWrite a bs s).power = s.power := rfl
@[simp] theorem flashWrite_ctl (a : Nat) (bs : Bytes) (s : State) : (flashWrite a bs s).ctl = s.ctl := rfl
@[simp] theorem flashWrite_restarting (a : Nat) (bs : Bytes) (s : State) : (flashWrite a bs s).restarting = s.restarting := rfl
@[simp] theorem flashWrite_restartCause (a : Nat) (bs : Bytes) (s : State) : (flashWrite a bs s).restartCause = s.restartCause := rfl
@[simp] theorem flashWrite_fw (a : Nat) (bs : Bytes) (s : State) : (flashWrite a bs s).fw = s.fw := rfl
@[simp] theorem flashWrite_scratch (a : Nat) (bs : Bytes) (s : State) : (flashWrite a bs s).scratch = s.scratch := rfl
@[simp] theorem flashWrite_culvert (a : Nat) (bs : Bytes) (s : State) : (flashWrite a bs s).culvert = s.culvert := rfl
@[simp] theorem flashWrite_ready (a : Nat) (bs : Bytes) (s : State) : (flashWrite a bs s).ready = s.ready := rfl
@[simp] theorem flashWrite_dry (a : Nat) (bs : Bytes) (s : State) : (flashWrite a bs s).dry = s.dry := rfl
@[simp] theorem flashWrite_pendingCommit (a : Nat) (bs : Bytes) (s : State) : (flashWrite a bs s).pendingCommit = s.pendingCommit := rfl
@[simp] theorem flashWrite_staged (a : Nat) (bs : Bytes) (s : State) : (flashWrite a bs s).staged = s.staged := rfl
@[simp] theorem flashWrite_cfgDone (a : Nat) (bs : Bytes) (s : State) : (flashWrite a bs s).cfgDone = s.cfgDone := rfl
@[simp] theorem flashWrite_lastWriter (a : Nat) (bs : Bytes) (s : State) : (flashWrite a bs s).lastWriter = s.lastWriter := rfl
@[simp] theorem flashWrite_dryEventAt (a : Nat) (bs : Bytes) (s : State) : (flashWrite a bs s).dryEventAt = s.dryEventAt := rfl
@[simp] theorem flashWrite_sent (a : Nat) (bs : Bytes) (s : State) : (flashWrite a bs s).sent = s.sent := rfl
@[simp] theorem flashWrite_delayed (a : Nat) (bs : Bytes) (s : State) : (flashWrite a bs s).delayed = s.delayed := rfl
@[simp] theorem flashWrite_msix (a : Nat) (bs : Bytes) (s : State) : (flashWrite a bs s).msix = s.msix := rfl
@[simp] theorem flashWrite_freeCtr (a : Nat) (bs : Bytes) (s : State) : (flashWrite a bs s).freeCtr = s.freeCtr := rfl

@[simp] theorem putRun_pending (r : TurnRun) (s : State) : (putRun r s).pending = s.pending := rfl
@[simp] theorem putRun_ht (r : TurnRun) (s : State) : (putRun r s).ht = s.ht := rfl
@[simp] theorem putRun_hostTime (r : TurnRun) (s : State) : (putRun r s).hostTime = s.hostTime := rfl
@[simp] theorem putRun_regs (r : TurnRun) (s : State) : (putRun r s).regs = s.regs := rfl
@[simp] theorem putRun_wideCap (r : TurnRun) (s : State) : (putRun r s).wideCap = s.wideCap := rfl
@[simp] theorem putRun_intakeCap (r : TurnRun) (s : State) : (putRun r s).intakeCap = s.intakeCap := rfl
@[simp] theorem putRun_loHold (r : TurnRun) (s : State) : (putRun r s).loHold = s.loHold := rfl
@[simp] theorem putRun_lastRead (r : TurnRun) (s : State) : (putRun r s).lastRead = s.lastRead := rfl
@[simp] theorem putRun_hbm (r : TurnRun) (s : State) : (putRun r s).hbm = s.hbm := rfl
@[simp] theorem putRun_check (r : TurnRun) (s : State) : (putRun r s).check = s.check := rfl
@[simp] theorem putRun_badBeats (r : TurnRun) (s : State) : (putRun r s).badBeats = s.badBeats := rfl
@[simp] theorem putRun_badUnits (r : TurnRun) (s : State) : (putRun r s).badUnits = s.badUnits := rfl
@[simp] theorem putRun_selfFault (r : TurnRun) (s : State) : (putRun r s).selfFault = s.selfFault := rfl
@[simp] theorem putRun_hostMem (r : TurnRun) (s : State) : (putRun r s).hostMem = s.hostMem := rfl
@[simp] theorem putRun_flash (r : TurnRun) (s : State) : (putRun r s).flash = s.flash := rfl
@[simp] theorem putRun_regions (r : TurnRun) (s : State) : (putRun r s).regions = s.regions := rfl
@[simp] theorem putRun_windows (r : TurnRun) (s : State) : (putRun r s).windows = s.windows := rfl
@[simp] theorem putRun_regionWait (r : TurnRun) (s : State) : (putRun r s).regionWait = s.regionWait := rfl
@[simp] theorem putRun_rings (r : TurnRun) (s : State) : (putRun r s).rings = s.rings := rfl
@[simp] theorem putRun_takeCount (r : TurnRun) (s : State) : (putRun r s).takeCount = s.takeCount := rfl
@[simp] theorem putRun_plans (r : TurnRun) (s : State) : (putRun r s).plans = s.plans := rfl
@[simp] theorem putRun_red (r : TurnRun) (s : State) : (putRun r s).red = s.red := rfl
@[simp] theorem putRun_grads (r : TurnRun) (s : State) : (putRun r s).grads = s.grads := rfl
@[simp] theorem putRun_upd (r : TurnRun) (s : State) : (putRun r s).upd = s.upd := rfl
@[simp] theorem putRun_basin (r : TurnRun) (s : State) : (putRun r s).basin = s.basin := rfl
@[simp] theorem putRun_agree (r : TurnRun) (s : State) : (putRun r s).agree = s.agree := rfl
@[simp] theorem putRun_refill (r : TurnRun) (s : State) : (putRun r s).refill = s.refill := rfl
@[simp] theorem putRun_guard (r : TurnRun) (s : State) : (putRun r s).guard = s.guard := rfl
@[simp] theorem putRun_pond (r : TurnRun) (s : State) : (putRun r s).pond = s.pond := rfl
@[simp] theorem putRun_restore (r : TurnRun) (s : State) : (putRun r s).restore = s.restore := rfl
@[simp] theorem putRun_job (r : TurnRun) (s : State) : (putRun r s).job = s.job := rfl
@[simp] theorem putRun_power (r : TurnRun) (s : State) : (putRun r s).power = s.power := rfl
@[simp] theorem putRun_ctl (r : TurnRun) (s : State) : (putRun r s).ctl = s.ctl := rfl
@[simp] theorem putRun_restarting (r : TurnRun) (s : State) : (putRun r s).restarting = s.restarting := rfl
@[simp] theorem putRun_restartCause (r : TurnRun) (s : State) : (putRun r s).restartCause = s.restartCause := rfl
@[simp] theorem putRun_fw (r : TurnRun) (s : State) : (putRun r s).fw = s.fw := rfl
@[simp] theorem putRun_scratch (r : TurnRun) (s : State) : (putRun r s).scratch = s.scratch := rfl
@[simp] theorem putRun_culvert (r : TurnRun) (s : State) : (putRun r s).culvert = s.culvert := rfl
@[simp] theorem putRun_ready (r : TurnRun) (s : State) : (putRun r s).ready = s.ready := rfl
@[simp] theorem putRun_dry (r : TurnRun) (s : State) : (putRun r s).dry = s.dry := rfl
@[simp] theorem putRun_pendingCommit (r : TurnRun) (s : State) : (putRun r s).pendingCommit = s.pendingCommit := rfl
@[simp] theorem putRun_staged (r : TurnRun) (s : State) : (putRun r s).staged = s.staged := rfl
@[simp] theorem putRun_cfgDone (r : TurnRun) (s : State) : (putRun r s).cfgDone = s.cfgDone := rfl
@[simp] theorem putRun_lastWriter (r : TurnRun) (s : State) : (putRun r s).lastWriter = s.lastWriter := rfl
@[simp] theorem putRun_dryEventAt (r : TurnRun) (s : State) : (putRun r s).dryEventAt = s.dryEventAt := rfl
@[simp] theorem putRun_sent (r : TurnRun) (s : State) : (putRun r s).sent = s.sent := rfl
@[simp] theorem putRun_delayed (r : TurnRun) (s : State) : (putRun r s).delayed = s.delayed := rfl
@[simp] theorem putRun_msix (r : TurnRun) (s : State) : (putRun r s).msix = s.msix := rfl
@[simp] theorem putRun_freeCtr (r : TurnRun) (s : State) : (putRun r s).freeCtr = s.freeCtr := rfl

@[simp] theorem event_pending (code status cause : Nat) (detail : Bytes) (s : State) : (event code status cause detail s).pending = s.pending := by unfold event; split <;> rfl
@[simp] theorem event_ht (code status cause : Nat) (detail : Bytes) (s : State) : (event code status cause detail s).ht = s.ht := by unfold event; split <;> rfl
@[simp] theorem event_hostTime (code status cause : Nat) (detail : Bytes) (s : State) : (event code status cause detail s).hostTime = s.hostTime := by unfold event; split <;> rfl
@[simp] theorem event_regs (code status cause : Nat) (detail : Bytes) (s : State) : (event code status cause detail s).regs = s.regs := by unfold event; split <;> rfl
@[simp] theorem event_wideCap (code status cause : Nat) (detail : Bytes) (s : State) : (event code status cause detail s).wideCap = s.wideCap := by unfold event; split <;> rfl
@[simp] theorem event_intakeCap (code status cause : Nat) (detail : Bytes) (s : State) : (event code status cause detail s).intakeCap = s.intakeCap := by unfold event; split <;> rfl
@[simp] theorem event_loHold (code status cause : Nat) (detail : Bytes) (s : State) : (event code status cause detail s).loHold = s.loHold := by unfold event; split <;> rfl
@[simp] theorem event_lastRead (code status cause : Nat) (detail : Bytes) (s : State) : (event code status cause detail s).lastRead = s.lastRead := by unfold event; split <;> rfl
@[simp] theorem event_hbm (code status cause : Nat) (detail : Bytes) (s : State) : (event code status cause detail s).hbm = s.hbm := by unfold event; split <;> rfl
@[simp] theorem event_check (code status cause : Nat) (detail : Bytes) (s : State) : (event code status cause detail s).check = s.check := by unfold event; split <;> rfl
@[simp] theorem event_badBeats (code status cause : Nat) (detail : Bytes) (s : State) : (event code status cause detail s).badBeats = s.badBeats := by unfold event; split <;> rfl
@[simp] theorem event_hostMem (code status cause : Nat) (detail : Bytes) (s : State) : (event code status cause detail s).hostMem = s.hostMem := by unfold event; split <;> rfl
@[simp] theorem event_flash (code status cause : Nat) (detail : Bytes) (s : State) : (event code status cause detail s).flash = s.flash := by unfold event; split <;> rfl
@[simp] theorem event_regions (code status cause : Nat) (detail : Bytes) (s : State) : (event code status cause detail s).regions = s.regions := by unfold event; split <;> rfl
@[simp] theorem event_regionWait (code status cause : Nat) (detail : Bytes) (s : State) : (event code status cause detail s).regionWait = s.regionWait := by unfold event; split <;> rfl
@[simp] theorem event_rings (code status cause : Nat) (detail : Bytes) (s : State) : (event code status cause detail s).rings = s.rings := by unfold event; split <;> rfl
@[simp] theorem event_takeCount (code status cause : Nat) (detail : Bytes) (s : State) : (event code status cause detail s).takeCount = s.takeCount := by unfold event; split <;> rfl
@[simp] theorem event_plans (code status cause : Nat) (detail : Bytes) (s : State) : (event code status cause detail s).plans = s.plans := by unfold event; split <;> rfl
@[simp] theorem event_step (code status cause : Nat) (detail : Bytes) (s : State) : (event code status cause detail s).step = s.step := by unfold event; split <;> rfl
@[simp] theorem event_red (code status cause : Nat) (detail : Bytes) (s : State) : (event code status cause detail s).red = s.red := by unfold event; split <;> rfl
@[simp] theorem event_upd (code status cause : Nat) (detail : Bytes) (s : State) : (event code status cause detail s).upd = s.upd := by unfold event; split <;> rfl
@[simp] theorem event_basin (code status cause : Nat) (detail : Bytes) (s : State) : (event code status cause detail s).basin = s.basin := by unfold event; split <;> rfl
@[simp] theorem event_agree (code status cause : Nat) (detail : Bytes) (s : State) : (event code status cause detail s).agree = s.agree := by unfold event; split <;> rfl
@[simp] theorem event_refill (code status cause : Nat) (detail : Bytes) (s : State) : (event code status cause detail s).refill = s.refill := by unfold event; split <;> rfl
@[simp] theorem event_guard (code status cause : Nat) (detail : Bytes) (s : State) : (event code status cause detail s).guard = s.guard := by unfold event; split <;> rfl
@[simp] theorem event_pond (code status cause : Nat) (detail : Bytes) (s : State) : (event code status cause detail s).pond = s.pond := by unfold event; split <;> rfl
@[simp] theorem event_restore (code status cause : Nat) (detail : Bytes) (s : State) : (event code status cause detail s).restore = s.restore := by unfold event; split <;> rfl
@[simp] theorem event_job (code status cause : Nat) (detail : Bytes) (s : State) : (event code status cause detail s).job = s.job := by unfold event; split <;> rfl
@[simp] theorem event_power (code status cause : Nat) (detail : Bytes) (s : State) : (event code status cause detail s).power = s.power := by unfold event; split <;> rfl
@[simp] theorem event_ctl (code status cause : Nat) (detail : Bytes) (s : State) : (event code status cause detail s).ctl = s.ctl := by unfold event; split <;> rfl
@[simp] theorem event_restarting (code status cause : Nat) (detail : Bytes) (s : State) : (event code status cause detail s).restarting = s.restarting := by unfold event; split <;> rfl
@[simp] theorem event_restartCause (code status cause : Nat) (detail : Bytes) (s : State) : (event code status cause detail s).restartCause = s.restartCause := by unfold event; split <;> rfl
@[simp] theorem event_fw (code status cause : Nat) (detail : Bytes) (s : State) : (event code status cause detail s).fw = s.fw := by unfold event; split <;> rfl
@[simp] theorem event_scratch (code status cause : Nat) (detail : Bytes) (s : State) : (event code status cause detail s).scratch = s.scratch := by unfold event; split <;> rfl
@[simp] theorem event_ready (code status cause : Nat) (detail : Bytes) (s : State) : (event code status cause detail s).ready = s.ready := by unfold event; split <;> rfl
@[simp] theorem event_dry (code status cause : Nat) (detail : Bytes) (s : State) : (event code status cause detail s).dry = s.dry := by unfold event; split <;> rfl
@[simp] theorem event_pendingCommit (code status cause : Nat) (detail : Bytes) (s : State) : (event code status cause detail s).pendingCommit = s.pendingCommit := by unfold event; split <;> rfl
@[simp] theorem event_staged (code status cause : Nat) (detail : Bytes) (s : State) : (event code status cause detail s).staged = s.staged := by unfold event; split <;> rfl
@[simp] theorem event_lastWriter (code status cause : Nat) (detail : Bytes) (s : State) : (event code status cause detail s).lastWriter = s.lastWriter := by unfold event; split <;> rfl
@[simp] theorem event_dryEventAt (code status cause : Nat) (detail : Bytes) (s : State) : (event code status cause detail s).dryEventAt = s.dryEventAt := by unfold event; split <;> rfl
@[simp] theorem event_sent (code status cause : Nat) (detail : Bytes) (s : State) : (event code status cause detail s).sent = s.sent := by unfold event; split <;> rfl
@[simp] theorem event_delayed (code status cause : Nat) (detail : Bytes) (s : State) : (event code status cause detail s).delayed = s.delayed := by unfold event; split <;> rfl
@[simp] theorem event_msix (code status cause : Nat) (detail : Bytes) (s : State) : (event code status cause detail s).msix = s.msix := by unfold event; split <;> rfl
@[simp] theorem event_freeCtr (code status cause : Nat) (detail : Bytes) (s : State) : (event code status cause detail s).freeCtr = s.freeCtr := by unfold event; split <;> rfl

@[simp] theorem ignored_pending (type reason format status cause : Nat) (s : State) : (ignored type reason format status cause s).pending = s.pending := by unfold ignored event; split <;> rfl
@[simp] theorem ignored_ht (type reason format status cause : Nat) (s : State) : (ignored type reason format status cause s).ht = s.ht := by unfold ignored event; split <;> rfl
@[simp] theorem ignored_hostTime (type reason format status cause : Nat) (s : State) : (ignored type reason format status cause s).hostTime = s.hostTime := by unfold ignored event; split <;> rfl
@[simp] theorem ignored_regs (type reason format status cause : Nat) (s : State) : (ignored type reason format status cause s).regs = s.regs := by unfold ignored event; split <;> rfl
@[simp] theorem ignored_wideCap (type reason format status cause : Nat) (s : State) : (ignored type reason format status cause s).wideCap = s.wideCap := by unfold ignored event; split <;> rfl
@[simp] theorem ignored_intakeCap (type reason format status cause : Nat) (s : State) : (ignored type reason format status cause s).intakeCap = s.intakeCap := by unfold ignored event; split <;> rfl
@[simp] theorem ignored_loHold (type reason format status cause : Nat) (s : State) : (ignored type reason format status cause s).loHold = s.loHold := by unfold ignored event; split <;> rfl
@[simp] theorem ignored_lastRead (type reason format status cause : Nat) (s : State) : (ignored type reason format status cause s).lastRead = s.lastRead := by unfold ignored event; split <;> rfl
@[simp] theorem ignored_hbm (type reason format status cause : Nat) (s : State) : (ignored type reason format status cause s).hbm = s.hbm := by unfold ignored event; split <;> rfl
@[simp] theorem ignored_check (type reason format status cause : Nat) (s : State) : (ignored type reason format status cause s).check = s.check := by unfold ignored event; split <;> rfl
@[simp] theorem ignored_badBeats (type reason format status cause : Nat) (s : State) : (ignored type reason format status cause s).badBeats = s.badBeats := by unfold ignored event; split <;> rfl
@[simp] theorem ignored_hostMem (type reason format status cause : Nat) (s : State) : (ignored type reason format status cause s).hostMem = s.hostMem := by unfold ignored event; split <;> rfl
@[simp] theorem ignored_flash (type reason format status cause : Nat) (s : State) : (ignored type reason format status cause s).flash = s.flash := by unfold ignored event; split <;> rfl
@[simp] theorem ignored_regions (type reason format status cause : Nat) (s : State) : (ignored type reason format status cause s).regions = s.regions := by unfold ignored event; split <;> rfl
@[simp] theorem ignored_regionWait (type reason format status cause : Nat) (s : State) : (ignored type reason format status cause s).regionWait = s.regionWait := by unfold ignored event; split <;> rfl
@[simp] theorem ignored_rings (type reason format status cause : Nat) (s : State) : (ignored type reason format status cause s).rings = s.rings := by unfold ignored event; split <;> rfl
@[simp] theorem ignored_takeCount (type reason format status cause : Nat) (s : State) : (ignored type reason format status cause s).takeCount = s.takeCount := by unfold ignored event; split <;> rfl
@[simp] theorem ignored_plans (type reason format status cause : Nat) (s : State) : (ignored type reason format status cause s).plans = s.plans := by unfold ignored event; split <;> rfl
@[simp] theorem ignored_step (type reason format status cause : Nat) (s : State) : (ignored type reason format status cause s).step = s.step := by unfold ignored event; split <;> rfl
@[simp] theorem ignored_red (type reason format status cause : Nat) (s : State) : (ignored type reason format status cause s).red = s.red := by unfold ignored event; split <;> rfl
@[simp] theorem ignored_upd (type reason format status cause : Nat) (s : State) : (ignored type reason format status cause s).upd = s.upd := by unfold ignored event; split <;> rfl
@[simp] theorem ignored_basin (type reason format status cause : Nat) (s : State) : (ignored type reason format status cause s).basin = s.basin := by unfold ignored event; split <;> rfl
@[simp] theorem ignored_agree (type reason format status cause : Nat) (s : State) : (ignored type reason format status cause s).agree = s.agree := by unfold ignored event; split <;> rfl
@[simp] theorem ignored_refill (type reason format status cause : Nat) (s : State) : (ignored type reason format status cause s).refill = s.refill := by unfold ignored event; split <;> rfl
@[simp] theorem ignored_guard (type reason format status cause : Nat) (s : State) : (ignored type reason format status cause s).guard = s.guard := by unfold ignored event; split <;> rfl
@[simp] theorem ignored_pond (type reason format status cause : Nat) (s : State) : (ignored type reason format status cause s).pond = s.pond := by unfold ignored event; split <;> rfl
@[simp] theorem ignored_restore (type reason format status cause : Nat) (s : State) : (ignored type reason format status cause s).restore = s.restore := by unfold ignored event; split <;> rfl
@[simp] theorem ignored_job (type reason format status cause : Nat) (s : State) : (ignored type reason format status cause s).job = s.job := by unfold ignored event; split <;> rfl
@[simp] theorem ignored_power (type reason format status cause : Nat) (s : State) : (ignored type reason format status cause s).power = s.power := by unfold ignored event; split <;> rfl
@[simp] theorem ignored_ctl (type reason format status cause : Nat) (s : State) : (ignored type reason format status cause s).ctl = s.ctl := by unfold ignored event; split <;> rfl
@[simp] theorem ignored_restarting (type reason format status cause : Nat) (s : State) : (ignored type reason format status cause s).restarting = s.restarting := by unfold ignored event; split <;> rfl
@[simp] theorem ignored_restartCause (type reason format status cause : Nat) (s : State) : (ignored type reason format status cause s).restartCause = s.restartCause := by unfold ignored event; split <;> rfl
@[simp] theorem ignored_fw (type reason format status cause : Nat) (s : State) : (ignored type reason format status cause s).fw = s.fw := by unfold ignored event; split <;> rfl
@[simp] theorem ignored_scratch (type reason format status cause : Nat) (s : State) : (ignored type reason format status cause s).scratch = s.scratch := by unfold ignored event; split <;> rfl
@[simp] theorem ignored_ready (type reason format status cause : Nat) (s : State) : (ignored type reason format status cause s).ready = s.ready := by unfold ignored event; split <;> rfl
@[simp] theorem ignored_dry (type reason format status cause : Nat) (s : State) : (ignored type reason format status cause s).dry = s.dry := by unfold ignored event; split <;> rfl
@[simp] theorem ignored_pendingCommit (type reason format status cause : Nat) (s : State) : (ignored type reason format status cause s).pendingCommit = s.pendingCommit := by unfold ignored event; split <;> rfl
@[simp] theorem ignored_staged (type reason format status cause : Nat) (s : State) : (ignored type reason format status cause s).staged = s.staged := by unfold ignored event; split <;> rfl
@[simp] theorem ignored_lastWriter (type reason format status cause : Nat) (s : State) : (ignored type reason format status cause s).lastWriter = s.lastWriter := by unfold ignored event; split <;> rfl
@[simp] theorem ignored_dryEventAt (type reason format status cause : Nat) (s : State) : (ignored type reason format status cause s).dryEventAt = s.dryEventAt := by unfold ignored event; split <;> rfl
@[simp] theorem ignored_sent (type reason format status cause : Nat) (s : State) : (ignored type reason format status cause s).sent = s.sent := by unfold ignored event; split <;> rfl
@[simp] theorem ignored_delayed (type reason format status cause : Nat) (s : State) : (ignored type reason format status cause s).delayed = s.delayed := by unfold ignored event; split <;> rfl
@[simp] theorem ignored_msix (type reason format status cause : Nat) (s : State) : (ignored type reason format status cause s).msix = s.msix := by unfold ignored event; split <;> rfl
@[simp] theorem ignored_freeCtr (type reason format status cause : Nat) (s : State) : (ignored type reason format status cause s).freeCtr = s.freeCtr := by unfold ignored event; split <;> rfl

@[simp] theorem send_pending (dest : Dest) (cls window offset stepLow : Nat) (payload : Payload) (s : State) :
    (send dest cls window offset stepLow payload s).pending = s.pending := by unfold send; (repeat' split) <;> rfl
@[simp] theorem send_ht (dest : Dest) (cls window offset stepLow : Nat) (payload : Payload) (s : State) :
    (send dest cls window offset stepLow payload s).ht = s.ht := by unfold send; (repeat' split) <;> rfl
@[simp] theorem send_hostTime (dest : Dest) (cls window offset stepLow : Nat) (payload : Payload) (s : State) :
    (send dest cls window offset stepLow payload s).hostTime = s.hostTime := by unfold send; (repeat' split) <;> rfl
@[simp] theorem send_regs (dest : Dest) (cls window offset stepLow : Nat) (payload : Payload) (s : State) :
    (send dest cls window offset stepLow payload s).regs = s.regs := by unfold send; (repeat' split) <;> rfl
@[simp] theorem send_wideCap (dest : Dest) (cls window offset stepLow : Nat) (payload : Payload) (s : State) :
    (send dest cls window offset stepLow payload s).wideCap = s.wideCap := by unfold send; (repeat' split) <;> rfl
@[simp] theorem send_intakeCap (dest : Dest) (cls window offset stepLow : Nat) (payload : Payload) (s : State) :
    (send dest cls window offset stepLow payload s).intakeCap = s.intakeCap := by unfold send; (repeat' split) <;> rfl
@[simp] theorem send_loHold (dest : Dest) (cls window offset stepLow : Nat) (payload : Payload) (s : State) :
    (send dest cls window offset stepLow payload s).loHold = s.loHold := by unfold send; (repeat' split) <;> rfl
@[simp] theorem send_lastRead (dest : Dest) (cls window offset stepLow : Nat) (payload : Payload) (s : State) :
    (send dest cls window offset stepLow payload s).lastRead = s.lastRead := by unfold send; (repeat' split) <;> rfl
@[simp] theorem send_hbm (dest : Dest) (cls window offset stepLow : Nat) (payload : Payload) (s : State) :
    (send dest cls window offset stepLow payload s).hbm = s.hbm := by unfold send; (repeat' split) <;> rfl
@[simp] theorem send_check (dest : Dest) (cls window offset stepLow : Nat) (payload : Payload) (s : State) :
    (send dest cls window offset stepLow payload s).check = s.check := by unfold send; (repeat' split) <;> rfl
@[simp] theorem send_badBeats (dest : Dest) (cls window offset stepLow : Nat) (payload : Payload) (s : State) :
    (send dest cls window offset stepLow payload s).badBeats = s.badBeats := by unfold send; (repeat' split) <;> rfl
@[simp] theorem send_hostMem (dest : Dest) (cls window offset stepLow : Nat) (payload : Payload) (s : State) :
    (send dest cls window offset stepLow payload s).hostMem = s.hostMem := by unfold send; (repeat' split) <;> rfl
@[simp] theorem send_flash (dest : Dest) (cls window offset stepLow : Nat) (payload : Payload) (s : State) :
    (send dest cls window offset stepLow payload s).flash = s.flash := by unfold send; (repeat' split) <;> rfl
@[simp] theorem send_regions (dest : Dest) (cls window offset stepLow : Nat) (payload : Payload) (s : State) :
    (send dest cls window offset stepLow payload s).regions = s.regions := by unfold send; (repeat' split) <;> rfl
@[simp] theorem send_regionWait (dest : Dest) (cls window offset stepLow : Nat) (payload : Payload) (s : State) :
    (send dest cls window offset stepLow payload s).regionWait = s.regionWait := by unfold send; (repeat' split) <;> rfl
@[simp] theorem send_rings (dest : Dest) (cls window offset stepLow : Nat) (payload : Payload) (s : State) :
    (send dest cls window offset stepLow payload s).rings = s.rings := by unfold send; (repeat' split) <;> rfl
@[simp] theorem send_takeCount (dest : Dest) (cls window offset stepLow : Nat) (payload : Payload) (s : State) :
    (send dest cls window offset stepLow payload s).takeCount = s.takeCount := by unfold send; (repeat' split) <;> rfl
@[simp] theorem send_plans (dest : Dest) (cls window offset stepLow : Nat) (payload : Payload) (s : State) :
    (send dest cls window offset stepLow payload s).plans = s.plans := by unfold send; (repeat' split) <;> rfl
@[simp] theorem send_step (dest : Dest) (cls window offset stepLow : Nat) (payload : Payload) (s : State) :
    (send dest cls window offset stepLow payload s).step = s.step := by unfold send; (repeat' split) <;> rfl
@[simp] theorem send_red (dest : Dest) (cls window offset stepLow : Nat) (payload : Payload) (s : State) :
    (send dest cls window offset stepLow payload s).red = s.red := by unfold send; (repeat' split) <;> rfl
@[simp] theorem send_upd (dest : Dest) (cls window offset stepLow : Nat) (payload : Payload) (s : State) :
    (send dest cls window offset stepLow payload s).upd = s.upd := by unfold send; (repeat' split) <;> rfl
@[simp] theorem send_basin (dest : Dest) (cls window offset stepLow : Nat) (payload : Payload) (s : State) :
    (send dest cls window offset stepLow payload s).basin = s.basin := by unfold send; (repeat' split) <;> rfl
@[simp] theorem send_agree (dest : Dest) (cls window offset stepLow : Nat) (payload : Payload) (s : State) :
    (send dest cls window offset stepLow payload s).agree = s.agree := by unfold send; (repeat' split) <;> rfl
@[simp] theorem send_refill (dest : Dest) (cls window offset stepLow : Nat) (payload : Payload) (s : State) :
    (send dest cls window offset stepLow payload s).refill = s.refill := by unfold send; (repeat' split) <;> rfl
@[simp] theorem send_guard (dest : Dest) (cls window offset stepLow : Nat) (payload : Payload) (s : State) :
    (send dest cls window offset stepLow payload s).guard = s.guard := by unfold send; (repeat' split) <;> rfl
@[simp] theorem send_pond (dest : Dest) (cls window offset stepLow : Nat) (payload : Payload) (s : State) :
    (send dest cls window offset stepLow payload s).pond = s.pond := by unfold send; (repeat' split) <;> rfl
@[simp] theorem send_restore (dest : Dest) (cls window offset stepLow : Nat) (payload : Payload) (s : State) :
    (send dest cls window offset stepLow payload s).restore = s.restore := by unfold send; (repeat' split) <;> rfl
@[simp] theorem send_job (dest : Dest) (cls window offset stepLow : Nat) (payload : Payload) (s : State) :
    (send dest cls window offset stepLow payload s).job = s.job := by unfold send; (repeat' split) <;> rfl
@[simp] theorem send_power (dest : Dest) (cls window offset stepLow : Nat) (payload : Payload) (s : State) :
    (send dest cls window offset stepLow payload s).power = s.power := by unfold send; (repeat' split) <;> rfl
@[simp] theorem send_ctl (dest : Dest) (cls window offset stepLow : Nat) (payload : Payload) (s : State) :
    (send dest cls window offset stepLow payload s).ctl = s.ctl := by unfold send; (repeat' split) <;> rfl
@[simp] theorem send_restarting (dest : Dest) (cls window offset stepLow : Nat) (payload : Payload) (s : State) :
    (send dest cls window offset stepLow payload s).restarting = s.restarting := by unfold send; (repeat' split) <;> rfl
@[simp] theorem send_restartCause (dest : Dest) (cls window offset stepLow : Nat) (payload : Payload) (s : State) :
    (send dest cls window offset stepLow payload s).restartCause = s.restartCause := by unfold send; (repeat' split) <;> rfl
@[simp] theorem send_fw (dest : Dest) (cls window offset stepLow : Nat) (payload : Payload) (s : State) :
    (send dest cls window offset stepLow payload s).fw = s.fw := by unfold send; (repeat' split) <;> rfl
@[simp] theorem send_scratch (dest : Dest) (cls window offset stepLow : Nat) (payload : Payload) (s : State) :
    (send dest cls window offset stepLow payload s).scratch = s.scratch := by unfold send; (repeat' split) <;> rfl
@[simp] theorem send_culvert (dest : Dest) (cls window offset stepLow : Nat) (payload : Payload) (s : State) :
    (send dest cls window offset stepLow payload s).culvert = s.culvert := by unfold send; (repeat' split) <;> rfl
@[simp] theorem send_ready (dest : Dest) (cls window offset stepLow : Nat) (payload : Payload) (s : State) :
    (send dest cls window offset stepLow payload s).ready = s.ready := by unfold send; (repeat' split) <;> rfl
@[simp] theorem send_dry (dest : Dest) (cls window offset stepLow : Nat) (payload : Payload) (s : State) :
    (send dest cls window offset stepLow payload s).dry = s.dry := by unfold send; (repeat' split) <;> rfl
@[simp] theorem send_pendingCommit (dest : Dest) (cls window offset stepLow : Nat) (payload : Payload) (s : State) :
    (send dest cls window offset stepLow payload s).pendingCommit = s.pendingCommit := by unfold send; (repeat' split) <;> rfl
@[simp] theorem send_staged (dest : Dest) (cls window offset stepLow : Nat) (payload : Payload) (s : State) :
    (send dest cls window offset stepLow payload s).staged = s.staged := by unfold send; (repeat' split) <;> rfl
@[simp] theorem send_lastWriter (dest : Dest) (cls window offset stepLow : Nat) (payload : Payload) (s : State) :
    (send dest cls window offset stepLow payload s).lastWriter = s.lastWriter := by unfold send; (repeat' split) <;> rfl
@[simp] theorem send_dryEventAt (dest : Dest) (cls window offset stepLow : Nat) (payload : Payload) (s : State) :
    (send dest cls window offset stepLow payload s).dryEventAt = s.dryEventAt := by unfold send; (repeat' split) <;> rfl
@[simp] theorem send_msix (dest : Dest) (cls window offset stepLow : Nat) (payload : Payload) (s : State) :
    (send dest cls window offset stepLow payload s).msix = s.msix := by unfold send; (repeat' split) <;> rfl
@[simp] theorem send_freeCtr (dest : Dest) (cls window offset stepLow : Nat) (payload : Payload) (s : State) :
    (send dest cls window offset stepLow payload s).freeCtr = s.freeCtr := by unfold send; (repeat' split) <;> rfl

@[simp] theorem setRing_rings (q : Fin 16) (r : Ring) (s : State) : (setRing q r s).rings = s.rings.set q.val r q.isLt := rfl
@[simp] theorem hostWrite_hostMem (a : Nat) (bs : Bytes) (s : State) : (hostWrite a bs s).hostMem = writeBytes a bs s.hostMem := rfl
@[simp] theorem hbmPut_hbm (a : Nat) (bs : Bytes) (s : State) : (hbmPut a bs s).hbm = writeBytes a bs s.hbm := rfl
@[simp] theorem flashWrite_flash (a : Nat) (bs : Bytes) (s : State) : (flashWrite a bs s).flash = writeBytes a bs s.flash := rfl

end Sys2Proof.Machine
end

