-- ==== Sys2Proof/Laws/Registers.lean ====
section
/-! SUPPORT. Laws of the register store and of the rings: what one write of a register or of a ring changes, and that it changes nothing
else. -/

namespace Sys2Proof.Machine

open Sys2Proof

theorem getKey_sparse_filter {k o : Nat} {d : Word} (h : o ≠ k) : ∀ (l : List (Nat × Word)),
    getKey o d (l.filter fun e => e.1 ≠ k) = getKey o d l
  | [] => rfl
  | (a, v) :: l => by
    have ih := getKey_sparse_filter (d := d) h l
    simp only [ne_eq] at ih
    by_cases ha : a = k
    · have : a ≠ o := fun e => h (e.symm.trans ha)
      simp only [ha, ne_eq, not_true_eq_false, decide_false, Bool.false_eq_true, not_false_eq_true, List.filter_cons_of_neg, ih, getKey]
      rw [if_neg (ha ▸ this)]
    · simp only [ne_eq, ha, not_false_eq_true, decide_true, List.filter_cons_of_pos, getKey, ih]

theorem getKey_sparse_below {k o : Nat} {d : Word} (h : o < k) : ∀ (l r : List (Nat × Word)), (∀ e ∈ r, k ≤ e.1) →
    getKey o d (l.filter (fun e => e.1 < k) ++ r) = getKey o d l
  | [], [], _ => rfl
  | [], (a, v) :: r, hr => by
    have ha : a ≠ o := by have := hr (a, v) (by simp); simp only at this; omega
    have := getKey_sparse_below (d := d) h [] r fun e he => hr e (by simp [he])
    simpa [getKey, ha] using this
  | (a, v) :: l, r, hr => by
    have ih := getKey_sparse_below (d := d) h l r hr
    by_cases ha : a < k
    · simp only [ha, decide_true, List.filter_cons_of_pos, List.cons_append, getKey, ih]
    · have : a ≠ o := by omega
      simp only [ha, decide_false, Bool.false_eq_true, not_false_eq_true, List.filter_cons_of_neg, ih, getKey]
      rw [if_neg this]

theorem getKey_sparse_above {k o : Nat} {d : Word} (h : k < o) : ∀ (l r : List (Nat × Word)), (∀ e ∈ l, e.1 ≤ k) →
    getKey o d (l ++ r.filter fun e => k < e.1) = getKey o d r
  | [], [], _ => rfl
  | [], (a, v) :: r, _ => by
    have ih := getKey_sparse_above (d := d) h [] r (by simp)
    simp only [List.nil_append] at ih ⊢
    by_cases ha : k < a
    · simp only [ha, decide_true, List.filter_cons_of_pos, getKey, ih]
    · have : a ≠ o := by omega
      simp only [ha, decide_false, Bool.false_eq_true, not_false_eq_true, List.filter_cons_of_neg, ih, getKey]
      rw [if_neg this]
  | (a, v) :: l, r, hl => by
    have ha : a ≠ o := by have := hl (a, v) (by simp); simp only at this; omega
    have := getKey_sparse_above (d := d) h l r fun e he => hl e (by simp [he])
    simpa [getKey, ha] using this

/-- A register reads back what was stored in it. -/
@[simp] theorem regGet_regSet_same (off : Nat) (v : Word) (s : State) : regGet (regSet off v s) off = v := by
  unfold regGet regSet sparsePut
  simp only
  by_cases hv : v = resetAt off
  · rw [if_pos (by simpa using hv), hv]
    generalize s.regs = l
    induction l with
    | nil => rfl
    | cons e l ih =>
      by_cases he : e.1 = off
      · simpa [he] using ih
      · obtain ⟨a, w⟩ := e
        simp only at he
        simpa [he, getKey] using ih
  · rw [if_neg (by simpa using hv)]
    generalize (s.regs.filter fun e => decide (e.1 ≠ off)) = l
    generalize (l.filter fun e => decide (off < e.1)) = r
    induction l with
    | nil => simp [getKey]
    | cons e l ih =>
      by_cases he : e.1 < off
      · obtain ⟨a, w⟩ := e
        have : a ≠ off := by simp only at he; omega
        simpa [he, getKey, this] using ih
      · simpa [he] using ih

/-- A write of one register leaves every other. -/
theorem regGet_regSet_other {off o : Nat} (h : o ≠ off) (v : Word) (s : State) : regGet (regSet off v s) o = regGet s o := by
  unfold regGet regSet sparsePut
  simp only
  split
  · exact getKey_sparse_filter h s.regs
  · rcases Nat.lt_or_gt_of_ne h with hlt | hgt
    · rw [getKey_sparse_below hlt]
      · exact getKey_sparse_filter h s.regs
      · intro e he
        rcases List.mem_cons.1 he with rfl | he
        · exact Nat.le_refl _
        · have := (List.mem_filter.1 he).2; simp only [decide_eq_true_eq] at this; omega
    · rw [show ∀ (l r : List (Nat × Word)), l ++ (off, v) :: r = (l ++ [(off, v)]) ++ r by intro l r; simp, getKey_sparse_above hgt]
      · exact getKey_sparse_filter h s.regs
      · intro e he
        rcases List.mem_append.1 he with he | he
        · have := (List.mem_filter.1 he).2; simp only [decide_eq_true_eq] at this; omega
        · simp only [List.mem_singleton] at he; simp [he]

@[simp] theorem regNat_regPut_same (off n : Nat) (s : State) : regNat (regPut off n s) off = n % 2 ^ 32 := by
  simp [regNat, regPut]

theorem regNat_regPut_other {off o : Nat} (h : o ≠ off) (n : Nat) (s : State) : regNat (regPut off n s) o = regNat s o := by
  simp [regNat, regPut, regGet_regSet_other h]

/-- A counter counts up and stops at the highest value. -/
theorem regNat_count_same (off n : Nat) (s : State) : regNat (count off n s) off = min (regNat s off + n) (2 ^ 32 - 1) := by
  unfold count sat32
  rw [regNat_regPut_same]
  omega

theorem regNat_count_other {off o : Nat} (h : o ≠ off) (n : Nat) (s : State) : regNat (count off n s) o = regNat s o :=
  regNat_regPut_other h _ s

/-- Only the registers differ after a store of one. -/
theorem regSet_eq (off : Nat) (v : Word) (s : State) : { regSet off v s with regs := s.regs } = s := rfl

/-! ### Rings -/

@[simp] theorem ringOf_setRing_same (q : Fin 16) (r : Ring) (s : State) : ringOf (setRing q r s) q = r := by
  simp [ringOf, setRing]

theorem ringOf_setRing_other {q p : Fin 16} (h : p ≠ q) (r : Ring) (s : State) : ringOf (setRing q r s) p = ringOf s p := by
  have : q.val ≠ p.val := fun e => h (Fin.ext e.symm)
  simp [ringOf, setRing, this]

@[simp] theorem ringOf_regSet (off : Nat) (v : Word) (s : State) (q : Fin 16) : ringOf (regSet off v s) q = ringOf s q := rfl
@[simp] theorem ringOf_regPut (off n : Nat) (s : State) (q : Fin 16) : ringOf (regPut off n s) q = ringOf s q := rfl
@[simp] theorem ringOf_count (off n : Nat) (s : State) (q : Fin 16) : ringOf (count off n s) q = ringOf s q := rfl
@[simp] theorem ringOf_hostWrite (a : Nat) (bs : Bytes) (s : State) (q : Fin 16) : ringOf (hostWrite a bs s) q = ringOf s q := rfl
@[simp] theorem regGet_setRing (q : Fin 16) (r : Ring) (s : State) (o : Nat) : regGet (setRing q r s) o = regGet s o := rfl
@[simp] theorem regGet_hostWrite (a : Nat) (bs : Bytes) (s : State) (o : Nat) : regGet (hostWrite a bs s) o = regGet s o := rfl
@[simp] theorem regNat_setRing (q : Fin 16) (r : Ring) (s : State) (o : Nat) : regNat (setRing q r s) o = regNat s o := rfl
@[simp] theorem regNat_hostWrite (a : Nat) (bs : Bytes) (s : State) (o : Nat) : regNat (hostWrite a bs s) o = regNat s o := rfl

end Sys2Proof.Machine
end

