-- ==== Sys2Proof/Laws/Conditions.lean ====
section
/-! SUPPORT. A command under the condition of its own effect: what a delivered packet, a heard frame, a running descriptor and a register
write come to, each said once. -/

namespace Sys2Proof.Machine

open Sys2Proof

/-- A delivered packet passes the intake, which changes nothing. -/
theorem intake_delivered {h : PktHead} {cls w len : Nat} {s : State} (hd : delivered s h cls w len = true) : intake h cls w len s = (true, s) := by
  unfold delivered at hd
  simp only [Bool.and_eq_true, decide_eq_true_eq] at hd
  obtain ⟨⟨⟨⟨⟨⟨hf, ha⟩, hm⟩, htag⟩, he⟩, hep⟩, -⟩ := hd
  unfold awake at ha
  simp only [Bool.and_eq_true, decide_eq_true_eq, Option.isNone_iff_eq_none] at ha
  unfold intake
  cases hi : intakeEntry s w with
  | none => rw [hi] at he; exact absurd he (by simp)
  | some en =>
    rw [hi] at he
    simp only [Bool.and_eq_true, Bool.or_eq_true, Bool.not_eq_true', decide_eq_true_eq] at he hep hm
    obtain ⟨⟨⟨h1, h2⟩, h3⟩, h4⟩ := he
    have e1 : (e : Bool) → e = false ∨ s.job.live = true → (e && !s.job.live) = false := by intro e h; rcases h with h | h <;> simp [h]
    have e2 : (s.job.live && decide (w ≠ 46) && decide (h.epoch ≠ s.job.epoch % 256)) = false := by
      rcases hep with (h | h) | h <;> simp [h]
    simp [hf, hm, htag.1, htag.2.1, htag.2.2, h1, Nat.not_lt.mpr h2, h3, e1 en.live h4, ha.1, ha.2]
    simpa using e2

/-- What a delivered packet does is its function, on the state as it is. -/
theorem receive_delivered {h : PktHead} {cls w len : Nat} {s : State} (hd : delivered s h cls w len = true) (go : State → State) :
    receive h cls w len go s = go s := by
  have hz : (s.refill.frozen && (decide (w = 47) || decide (57 ≤ w))) = false := by
    unfold delivered at hd
    simp only [Bool.and_eq_true, Bool.or_eq_true, Bool.not_eq_true', decide_eq_true_eq] at hd
    rcases hd.2 with h | h
    · simp [h]
    · have : ¬ 57 ≤ w := by omega
      simp [h.1, this]
  simp [receive, intake_delivered hd, hz]

/-- A running descriptor does what its opcode does; its memory traffic counts against the channel caps. -/
theorem withDesc_descAt {s : State} {q : Fin 16} {j op : Nat} {d : Desc} (hd : descAt s q j op d = true) (go : Desc → State → State) :
    withDesc q j op go s = charge (traffic s) (go d s) := by
  unfold descAt at hd
  simp only [Bool.and_eq_true, Bool.or_eq_true, Bool.not_eq_true', decide_eq_true_eq] at hd
  obtain ⟨⟨⟨⟨⟨hc, hr⟩, ho⟩, hw⟩, ht⟩, hf⟩ := hd
  have : (d.noTag && !taglessOps.contains op) = false := by rcases ht with h | h <;> simp only [h, Bool.false_and, Bool.not_true, Bool.and_false]
  simp only [withDesc, hc, hr, ho, hw, this, hf]
  simp

/-- A heard frame reaches its message on the state with the frame counted. -/
theorem acceptFrame_heard {st : StartIn} {f : FrameHead} {m : CulMsg} {s : State} (h : heard s f m = true) :
    acceptFrame st f m s =
      let r := actFrame st f m (counted m s)
      if r.1 && r.2.ready || r.1 && r.2.dry then noted f m r.2 else r.2 := by
  unfold heard awake at h
  simp only [Bool.and_eq_true, Bool.or_eq_true, Bool.not_eq_true', decide_eq_true_eq, List.isEmpty_iff, Option.isNone_iff_eq_none] at h
  obtain ⟨⟨⟨⟨⟨⟨⟨hp, hm⟩, hr⟩, hd⟩, hre⟩, hf⟩, ht⟩, ho⟩ := h
  have hw : wake s = s := by simp [wake, hm, hp]
  have e1 : (tagChecked m && decide (f.tag ≠ 0 ∧ f.tag ≠ tagOf s)) = false := by
    rcases ht with h | h | h
    · simp [h]
    · simp [h]
    · simp [h]
  have e2 : (!ownRepeat m && decide ((s.culvert.acted.find? fun a => a.1 = culType m) = some (culType m, f.tag, m))) = false := by
    rcases ho with h | h
    · simp [h]
    · simp only [h]; simp
  have e3 : tagOf (counted m s) = tagOf s := by
    simp only [tagOf, counted]
    rw [regNat_count_other (by decide)]
    rfl
  have e4 : (counted m s).culvert.acted = s.culvert.acted := rfl
  have e5 : (counted m s).dry = false := hd
  have e6 : ((counted m s).dry && !dryAccepts m) = false := by rw [e5]; rfl
  rw [← e3] at e1
  rw [← e4] at e2
  unfold acceptFrame
  rw [if_neg (by simp [hp, hr])]
  have gone : ¬ (s.power.state = 2 ∨ (!s.restarting.isEmpty) = true) := by simp [hp, hre]
  simp only [wakeFrame, hw, ite_self]
  rw [if_neg gone]
  unfold handleFrame
  rw [if_neg (by simp [hf])]
  change (if ((counted m s).dry && !dryAccepts m) = true then _ else
    if (tagChecked m && decide (f.tag ≠ 0 ∧ f.tag ≠ tagOf (counted m s))) = true then _ else
    if (!ownRepeat m && decide (((counted m s).culvert.acted.find? fun a => a.1 = culType m) = some (culType m, f.tag, m))) = true then _ else _) = _
  rw [e6, e1, e2]
  rfl

/-- A host write in E0 and E1 has its own effect. -/
theorem hostWriteTo_up {off : Nat} {go : State → State} {s : State} (h : s.power.state < 2) : hostWriteTo off go s = go s := by
  simp [hostWriteTo, show s.power.state ≠ 3 by omega, show s.power.state ≠ 2 by omega]

end Sys2Proof.Machine
end

