-- ==== Sys2Proof/Laws/Memory.lean ====
section
/-! SUPPORT. Laws of the byte memories: every operation keeps the canonical form, and a byte read after a write is the byte written
inside the range and the old byte outside it. -/

namespace Sys2Proof.Machine

open Sys2Proof

theorem wfFrom_mono {lo lo' : Nat} (h : lo' ≤ lo) : ∀ {m : Mem}, wfFrom lo m = true → wfFrom lo' m = true
  | [], _ => rfl
  | c :: cs, hm => by
    simp only [wfFrom, Bool.and_eq_true, decide_eq_true_eq] at hm ⊢
    exact ⟨⟨by omega, hm.1.2⟩, hm.2⟩

theorem wfFrom_filter (p : Host.Cell → Bool) : ∀ {lo : Nat} {m : Mem}, wfFrom lo m = true → wfFrom lo (m.filter p) = true
  | _, [], _ => rfl
  | lo, c :: cs, hm => by
    simp only [wfFrom, Bool.and_eq_true, decide_eq_true_eq] at hm
    have ih := wfFrom_filter p hm.2
    by_cases hp : p c
    · simp [hp, wfFrom, hm.1.1, hm.1.2, ih]
    · simpa [List.filter_cons, hp] using wfFrom_mono (by omega : lo ≤ c.1 + 1) ih

/-- Cells below a bound, followed by cells from it up. -/
theorem wfFrom_append : ∀ {lo mid : Nat} {m n : Mem}, wfFrom lo m = true → (∀ c ∈ m, c.1 < mid) → wfFrom mid n = true → lo ≤ mid →
    wfFrom lo (m ++ n) = true
  | _, _, [], _, _, _, hn, hlo => wfFrom_mono hlo hn
  | lo, mid, c :: cs, n, hm, hb, hn, _ => by
    simp only [wfFrom, Bool.and_eq_true, decide_eq_true_eq] at hm
    have hc : c.1 < mid := hb c (by simp)
    have := wfFrom_append hm.2 (fun x hx => hb x (by simp [hx])) hn (by omega : c.1 + 1 ≤ mid)
    simp [wfFrom, hm.1.1, hm.1.2, this]

theorem listed_wf : ∀ (bs : Bytes) (a : Nat), wfFrom a (listed a bs) = true
  | [], _ => rfl
  | b :: bs, a => by
    have ih := listed_wf bs (a + 1)
    by_cases hb : b = 0#8
    · simpa [listed, hb] using wfFrom_mono (Nat.le_succ a) ih
    · simp [listed, hb, wfFrom, ih]

theorem listed_lt : ∀ (bs : Bytes) (a : Nat), ∀ c ∈ listed a bs, a ≤ c.1 ∧ c.1 < a + bs.length
  | [], _, _, h => by simp [listed] at h
  | b :: bs, a, c, h => by
    by_cases hb : b = 0#8
    · have := listed_lt bs (a + 1) c (by simpa [listed, hb] using h)
      simp only [List.length_cons]; omega
    · rcases (by simpa [listed, hb] using h : c = (a, b) ∨ c ∈ listed (a + 1) bs) with rfl | h
      · simp
      · have := listed_lt bs (a + 1) c h
        simp only [List.length_cons]; omega

theorem cellsFrom_wf (a : Nat) : ∀ {lo : Nat} {m : Mem}, wfFrom lo m = true → wfFrom a (cellsFrom a m) = true
  | _, [], _ => rfl
  | lo, c :: cs, hm => by
    simp only [wfFrom, Bool.and_eq_true, decide_eq_true_eq] at hm
    by_cases hc : a ≤ c.1
    · have : wfFrom (c.1 + 1) (cellsFrom a cs) = true := wfFrom_filter _ hm.2
      simp only [cellsFrom] at this
      simp [cellsFrom, hc, wfFrom, hm.1.2, this]
    · have := cellsFrom_wf a hm.2
      simpa [cellsFrom, List.filter_cons, hc] using this

theorem cellsBelow_lt (a : Nat) (m : Mem) : ∀ c ∈ cellsBelow a m, c.1 < a := by
  intro c h
  simpa [cellsBelow] using (List.mem_filter.1 h).2

/-- A write keeps the canonical form. -/
theorem writeBytes_wf (a : Nat) (bs : Bytes) {m : Mem} (h : Memory.wf m = true) : Memory.wf (writeBytes a bs m) = true := by
  unfold Memory.wf at *
  unfold writeBytes
  rw [List.append_assoc]
  refine wfFrom_append (mid := a) (wfFrom_filter _ h) (cellsBelow_lt a m) ?_ (Nat.zero_le _)
  exact wfFrom_append (listed_wf bs a) (fun c hc => (listed_lt bs a c hc).2) (cellsFrom_wf _ h) (by omega)

/-- Erasing keeps the canonical form. -/
theorem eraseBytes_wf (a n : Nat) {m : Mem} (h : Memory.wf m = true) : Memory.wf (eraseBytes a n m) = true := by
  unfold Memory.wf at *
  exact wfFrom_append (mid := a + n) (wfFrom_filter _ h) (fun c hc => by have := cellsBelow_lt a m c hc; omega)
    (cellsFrom_wf _ h) (Nat.zero_le _)

/-- XOR into memory keeps the canonical form. -/
theorem xorInto_wf (a : Nat) (bs : Bytes) {m : Mem} (h : Memory.wf m = true) : Memory.wf (xorInto a bs m) = true :=
  writeBytes_wf _ _ h

/-! ### Reading after writing -/

theorem getKey_append_of_not_mem {a : Nat} {d : Byte} : ∀ {m n : Mem}, (∀ c ∈ m, c.1 ≠ a) → getKey a d (m ++ n) = getKey a d n
  | [], _, _ => rfl
  | (k, v) :: cs, n, h => by
    have hk : k ≠ a := h (k, v) (by simp)
    simpa [getKey, hk] using getKey_append_of_not_mem (n := n) fun c hc => h c (by simp [hc])

theorem getKey_of_not_mem {a : Nat} {d : Byte} {m : Mem} (h : ∀ c ∈ m, c.1 ≠ a) : getKey a d m = d := by
  simpa [getKey] using getKey_append_of_not_mem (n := []) (d := d) h

theorem getKey_append_of_no_right {a : Nat} {d : Byte} : ∀ {m n : Mem}, (∀ c ∈ n, c.1 ≠ a) → getKey a d (m ++ n) = getKey a d m
  | [], n, h => getKey_of_not_mem h
  | (k, v) :: cs, n, h => by
    by_cases hk : k = a
    · simp [getKey, hk]
    · simpa [getKey, hk] using getKey_append_of_no_right (m := cs) h

theorem getKey_filter {a : Nat} {d : Byte} (p : Host.Cell → Bool) (hp : ∀ v, p (a, v) = true) :
    ∀ {m : Mem}, getKey a d (m.filter p) = getKey a d m
  | [] => rfl
  | (k, v) :: cs => by
    by_cases hk : k = a
    · subst hk; simp [hp, getKey]
    · by_cases hq : p (k, v)
      · simp [hq, getKey, hk, getKey_filter p hp]
      · simp [hq, getKey, hk, getKey_filter p hp]

theorem getKey_listed {a : Nat} : ∀ (bs : Bytes) (b : Nat), b ≤ a → getKey a 0#8 (listed b bs) = bs.getD (a - b) 0#8
  | [], b, _ => by simp [listed, getKey]
  | x :: bs, b, h => by
    by_cases hab : b = a
    · subst hab
      by_cases hx : x = 0#8
      · have : getKey b 0#8 (listed (b + 1) bs) = 0#8 :=
          getKey_of_not_mem fun c hc => by have := (listed_lt bs (b + 1) c hc).1; omega
        simp [listed, hx, this]
      · simp [listed, hx, getKey]
    · have ih := getKey_listed bs (b + 1) (by omega : b + 1 ≤ a)
      have e : a - b = (a - (b + 1)) + 1 := by omega
      by_cases hx : x = 0#8
      · simp [listed, hx, ih, e]
      · simp [listed, hx, getKey, hab, ih, e]

/-- A byte inside the range written. -/
theorem readByte_writeBytes_in {a b : Nat} (bs : Bytes) (m : Mem) (h : b ≤ a) (h' : a < b + bs.length) :
    readByte (writeBytes b bs m) a = bs.getD (a - b) 0#8 := by
  unfold readByte writeBytes
  rw [List.append_assoc, getKey_append_of_not_mem fun c hc => by have := cellsBelow_lt b m c hc; omega,
    getKey_append_of_no_right fun c hc => ?_, getKey_listed bs b h]
  have : b + bs.length ≤ c.1 := by simpa [cellsFrom] using (List.mem_filter.1 hc).2
  omega

/-- A byte outside the range written. -/
theorem readByte_writeBytes_out {a b : Nat} (bs : Bytes) (m : Mem) (h : a < b ∨ b + bs.length ≤ a) :
    readByte (writeBytes b bs m) a = readByte m a := by
  unfold readByte writeBytes
  rcases h with h | h
  · rw [List.append_assoc, getKey_append_of_no_right fun c hc => ?_]
    · exact getKey_filter _ fun v => by simpa using h
    · rcases List.mem_append.1 hc with hc | hc
      · have := (listed_lt bs b c hc).1; omega
      · have : b + bs.length ≤ c.1 := by simpa [cellsFrom] using (List.mem_filter.1 hc).2
        omega
  · rw [getKey_append_of_not_mem fun c hc => ?_]
    · exact getKey_filter _ fun v => by simpa using h
    · rcases List.mem_append.1 hc with hc | hc
      · have := cellsBelow_lt b m c hc; omega
      · have := (listed_lt bs b c hc).2; omega

/-- Reading a run of bytes is reading each of them. -/
theorem readFrom_eq : ∀ (n a : Nat) (m : Mem), wfFrom a m = true → readFrom n a m = (List.range n).map fun i => getKey (a + i) 0#8 m
  | 0, _, _, _ => rfl
  | n + 1, a, [], _ => by
    rw [readFrom, readFrom_eq n (a + 1) [] rfl, List.range_succ_eq_map]
    simp [getKey, List.map_const', Function.comp_def]
  | n + 1, a, c :: cs, h => by
    have hw := h
    simp only [wfFrom, Bool.and_eq_true, decide_eq_true_eq] at h
    by_cases hc : c.1 = a
    · have hcs : wfFrom (a + 1) cs = true := hc ▸ h.2
      rw [readFrom, if_pos hc, readFrom_eq n (a + 1) cs hcs, List.range_succ_eq_map]
      obtain ⟨k, v⟩ := c
      simp only at hc
      subst hc
      simp only [List.map_cons, List.map_map, Nat.add_zero, getKey, if_true]
      refine congrArg _ (List.map_congr_left fun i _ => ?_)
      simp [Nat.add_assoc, Nat.add_comm 1 i]
    · have hlt : a + 1 ≤ c.1 := by omega
      have hcs : wfFrom (a + 1) (c :: cs) = true := by simp [wfFrom, hlt, h.1.2, h.2]
      rw [readFrom, if_neg hc, readFrom_eq n (a + 1) (c :: cs) hcs, List.range_succ_eq_map]
      have h0 : getKey a 0#8 (c :: cs) = 0#8 := getKey_of_not_mem fun x hx => by
        rcases List.mem_cons.1 hx with rfl | hx
        · exact hc
        · have : ∀ {lo : Nat} {l : Mem}, wfFrom lo l = true → ∀ y ∈ l, lo ≤ y.1 := by
            intro lo l
            induction l generalizing lo with
            | nil => intro _ y hy; simp at hy
            | cons z zs ih =>
              intro hl y hy
              simp only [wfFrom, Bool.and_eq_true, decide_eq_true_eq] at hl
              rcases List.mem_cons.1 hy with rfl | hy
              · exact hl.1.1
              · have := ih hl.2 y hy; omega
          have := this h.2 x hx
          omega
      simp only [List.map_cons, List.map_map, Nat.add_zero, h0]
      refine congrArg _ (List.map_congr_left fun i _ => ?_)
      simp [Nat.add_assoc, Nat.add_comm 1 i]

theorem dropWhile_below (a : Nat) : ∀ {lo : Nat} {m : Mem}, wfFrom lo m = true →
    wfFrom a (m.dropWhile fun c => c.1 < a) = true ∧ ∀ b, a ≤ b → getKey b 0#8 (m.dropWhile fun c => c.1 < a) = getKey b 0#8 m
  | _, [], _ => ⟨rfl, fun _ _ => rfl⟩
  | lo, c :: cs, h => by
    simp only [wfFrom, Bool.and_eq_true, decide_eq_true_eq] at h
    by_cases hc : c.1 < a
    · obtain ⟨h1, h2⟩ := dropWhile_below a h.2
      refine ⟨by simpa [List.dropWhile_cons, hc] using h1, fun b hb => ?_⟩
      obtain ⟨k, v⟩ := c
      have hk : k ≠ b := by simp only at hc; omega
      simpa [List.dropWhile_cons, hc, getKey, hk] using h2 b hb
    · have hge : a ≤ c.1 := by omega
      simp [hc, wfFrom, hge, h.1.2, h.2]

/-- A run of bytes of a canonical memory, byte by byte. -/
theorem readBytes_eq {m : Mem} (h : Memory.wf m = true) (a n : Nat) :
    readBytes m a n = (List.range n).map fun i => readByte m (a + i) := by
  unfold readBytes readByte
  obtain ⟨h1, h2⟩ := dropWhile_below a h
  rw [readFrom_eq n a _ h1]
  exact List.map_congr_left fun i _ => h2 _ (by omega)

/-- The bytes written, read back. -/
theorem readBytes_writeBytes {m : Mem} (h : Memory.wf m = true) (a : Nat) (bs : Bytes) :
    readBytes (writeBytes a bs m) a bs.length = bs := by
  rw [readBytes_eq (writeBytes_wf a bs h)]
  refine List.ext_getElem (by simp) fun i h1 h2 => ?_
  have hi : i < bs.length := h2
  simp only [List.getElem_map, List.getElem_range]
  rw [readByte_writeBytes_in bs m (by omega) (by omega)]
  simp [hi]

/-- A run of bytes apart from the range written. -/
theorem readBytes_writeBytes_apart {m : Mem} (h : Memory.wf m = true) {a b n : Nat} (bs : Bytes) (hd : a + n ≤ b ∨ b + bs.length ≤ a) :
    readBytes (writeBytes b bs m) a n = readBytes m a n := by
  rw [readBytes_eq (writeBytes_wf b bs h), readBytes_eq h]
  refine List.map_congr_left fun i hi => readByte_writeBytes_out bs m ?_
  have := List.mem_range.1 hi
  omega

end Sys2Proof.Machine
end

