-- ==== Sys2Proof/Laws/Keep.lean ====
section
/-! SUPPORT. What every operation keeps: the queue of waiting commands, and the canonical form of the byte memories. One lemma per
operation (`keeps_<operation>`), in the form "what led here keeps them, so this does". -/

namespace Sys2Proof.Machine

open Sys2Proof

/-- The queue is as it was, and byte memories in canonical form stay in it. -/
def Keeps (s t : State) : Prop := t.pending = s.pending ∧ (MemoryOk s → MemoryOk t)

/-- The same of an outcome that is a next state. -/
def KeepsNext (s : State) (o : Host.Outcome State Fault Refusal) : Prop := ∀ t, o = .next t → Keeps s t

theorem keeps_refl (s : State) : Keeps s s := ⟨rfl, id⟩

theorem keepsNext_next {s t : State} (h : Keeps s t) : KeepsNext s (.next t) := fun _ e => Host.Outcome.next.inj e ▸ h

/-- An update of other fields. -/
theorem keeps_mk {s t : State} (h : Keeps s t) {ht hostTime regs wideCap intakeCap loHold lastRead badBeats badUnits selfFault regions windows
    regionWait rings takeCount plans step red grads upd basin agree refill guard pond restore job power ctl restarting restartCause fw scratch
    culvert ready dry pendingCommit staged cfgDone lastWriter dryEventAt sent delayed msix freeCtr} :
    Keeps s ⟨t.pending, ht, hostTime, regs, wideCap, intakeCap, loHold, lastRead, t.hbm, t.check, badBeats, badUnits, selfFault, t.hostMem,
        t.flash, regions, windows, regionWait, rings, takeCount, plans, step, red, grads, upd, basin, agree, refill, guard, pond, restore,
        job, power, ctl, restarting, restartCause, fw, scratch, culvert, ready, dry, pendingCommit, staged, cfgDone, lastWriter, dryEventAt,
        sent, delayed, msix, freeCtr⟩ := h

/-- The same, to rewrite with. -/
theorem keeps_mk_iff {s t : State} {ht hostTime regs wideCap intakeCap loHold lastRead badBeats badUnits selfFault regions windows regionWait rings
    takeCount plans step red grads upd basin agree refill guard pond restore job power ctl restarting restartCause fw scratch culvert ready dry
    pendingCommit staged cfgDone lastWriter dryEventAt sent delayed msix freeCtr} : Keeps s ⟨t.pending, ht, hostTime, regs, wideCap, intakeCap,
    loHold, lastRead, t.hbm, t.check, badBeats, badUnits, selfFault, t.hostMem, t.flash, regions, windows, regionWait, rings, takeCount, plans,
    step, red, grads, upd, basin, agree, refill, guard, pond, restore, job, power, ctl, restarting, restartCause, fw, scratch, culvert, ready, dry,
    pendingCommit, staged, cfgDone, lastWriter, dryEventAt, sent, delayed, msix, freeCtr⟩ ↔ Keeps s t := Iff.rfl

/-- An update of the byte memories that keeps each in canonical form. -/
theorem keeps_mem {s t : State} (h : Keeps s t) {ht hostTime regs wideCap intakeCap loHold lastRead badBeats badUnits selfFault regions windows
    regionWait rings takeCount plans step red grads upd basin agree refill guard pond restore job power ctl restarting restartCause fw scratch
    culvert ready dry pendingCommit staged cfgDone lastWriter dryEventAt sent delayed msix freeCtr} {hbm check hostMem flash : Mem}
    (h1 : Memory.wf t.hbm = true → Memory.wf hbm = true) (h2 : Memory.wf t.check = true → Memory.wf check = true)
    (h3 : Memory.wf t.hostMem = true → Memory.wf hostMem = true) (h4 : Memory.wf t.flash = true → Memory.wf flash = true) :
    Keeps s ⟨t.pending, ht, hostTime, regs, wideCap, intakeCap, loHold, lastRead, hbm, check, badBeats, badUnits, selfFault, hostMem, flash,
        regions, windows, regionWait, rings, takeCount, plans, step, red, grads, upd, basin, agree, refill, guard, pond, restore, job, power,
        ctl, restarting, restartCause, fw, scratch, culvert, ready, dry, pendingCommit, staged, cfgDone, lastWriter, dryEventAt, sent,
        delayed, msix, freeCtr⟩ :=
  ⟨h.1, fun m => ⟨h1 (h.2 m).1, h2 (h.2 m).2.1, h3 (h.2 m).2.2.1, h4 (h.2 m).2.2.2⟩⟩

theorem keeps_foldl {s : State} {α : Type} {f : State → α → State} (hf : ∀ u x, Keeps s u → Keeps s (f u x)) :
    ∀ {l : List α} {t : State}, Keeps s t → Keeps s (l.foldl f t)
  | [], _, h => h
  | x :: l, _, h => keeps_foldl hf (l := l) (hf _ x h)

theorem keeps_foldl_snd {s : State} {α β : Type} {f : β × State → α → β × State} (hf : ∀ u x, Keeps s u.2 → Keeps s (f u x).2) :
    ∀ {l : List α} {t : β × State}, Keeps s t.2 → Keeps s (l.foldl f t).2
  | [], _, h => h
  | x :: l, _, h => keeps_foldl_snd hf (l := l) (hf _ x h)

theorem keeps_foldl_third {s : State} {α β γ : Type} {f : β × γ × State → α → β × γ × State}
    (hf : ∀ u x, Keeps s u.2.2 → Keeps s (f u x).2.2) : ∀ {l : List α} {t : β × γ × State}, Keeps s t.2.2 → Keeps s (l.foldl f t).2.2
  | [], _, h => h
  | x :: l, _, h => keeps_foldl_third hf (l := l) (hf _ x h)

theorem keeps_getD {s t : State} {o : Option State} (h : Keeps s t) (ho : ∀ u, o = some u → Keeps s u) : Keeps s (o.getD t) := by
  cases o with
  | none => exact h
  | some u => exact ho u rfl

theorem keeps_pair {s u : State} {α : Type} {p : α × State} {x : α} (e : p = (x, u)) (h : Keeps s p.2) : Keeps s u := by
  subst e; exact h

theorem keeps_third {s u : State} {α β : Type} {p : α × β × State} {x : α} {y : β} (e : p = (x, y, u)) (h : Keeps s p.2.2) :
    Keeps s u := by
  subst e; exact h

theorem keeps_regSet {s t : State} {off : Nat} {v : Word} (h : Keeps s t) : Keeps s (regSet off v t) := by
  unfold regSet
  try dsimp only
  with_reducible exact keeps_mk h

theorem keeps_regPut {s t : State} {off : Nat} {n : Nat} (h : Keeps s t) : Keeps s (regPut off n t) := by
  unfold regPut
  try dsimp only
  with_reducible exact keeps_regSet h

theorem keeps_count {s t : State} {off : Nat} {n : Nat} (h : Keeps s t) : Keeps s (count off n t) := by
  unfold count
  try dsimp only
  with_reducible exact keeps_regPut h

theorem keeps_widePut {s t : State} {lo : Nat} {n : Nat} (h : Keeps s t) : Keeps s (widePut lo n t) := by
  unfold widePut
  try dsimp only
  with_reducible exact keeps_regPut (keeps_regPut h)

theorem keeps_wideAdd {s t : State} {lo : Nat} {n : Nat} (h : Keeps s t) : Keeps s (wideAdd lo n t) := by
  unfold wideAdd
  try dsimp only
  with_reducible exact keeps_widePut h

theorem keeps_regOr {s t : State} {off : Nat} {mask : Nat} (h : Keeps s t) : Keeps s (regOr off mask t) := by
  unfold regOr
  try dsimp only
  with_reducible exact keeps_regPut h

theorem keeps_hostWrite {s t : State} {a : Nat} {bs : Bytes} (h : Keeps s t) : Keeps s (hostWrite a bs t) :=
  keeps_mem h id id (writeBytes_wf _ _) id

theorem keeps_hbmPut {s t : State} {a : Nat} {bs : Bytes} (h : Keeps s t) : Keeps s (hbmPut a bs t) :=
  keeps_mem h (writeBytes_wf _ _) id id id

theorem keeps_flashWrite {s t : State} {a : Nat} {bs : Bytes} (h : Keeps s t) : Keeps s (flashWrite a bs t) :=
  keeps_mem h id id id (writeBytes_wf _ _)

theorem keeps_setRegion {s t : State} {r : Nat} {base : Nat} {size : Nat} (h : Keeps s t) : Keeps s (setRegion r base size t) := by
  unfold setRegion
  try dsimp only
  split
  · with_reducible exact keeps_mk h
  · with_reducible exact h

theorem keeps_withdrawOffer {s t : State} {cs : List Nat} (h : Keeps s t) : Keeps s (withdrawOffer cs t) := by
  unfold withdrawOffer
  try dsimp only
  with_reducible exact keeps_mk h

theorem keeps_flagEvent {s t : State} {n : Nat} (h : Keeps s t) : Keeps s (flagEvent n t) := by
  unfold flagEvent
  try dsimp only
  with_reducible exact keeps_regOr h

theorem keeps_event {s t : State} {code : Nat} {status : Nat} {cause : Nat} {detail : Bytes} (h : Keeps s t) : Keeps s (event code status cause
    detail t) := by
  unfold event
  try dsimp only
  split <;> exact keeps_mk h

theorem keeps_ignored {s t : State} {type : Nat} {reason : Nat} {format : Nat} {status : Nat} {cause : Nat} (h : Keeps s t) : Keeps s (ignored type
    reason format status cause t) := by
  unfold ignored
  try dsimp only
  with_reducible exact keeps_event h

theorem keeps_takeFree {s t : State}  (h : Keeps s t) : Keeps s (takeFree t).2 := by
  unfold takeFree
  try dsimp only
  with_reducible exact keeps_mk h

theorem keeps_send {s t : State} {dest : Dest} {cls : Nat} {window : Nat} {offset : Nat} {stepLow : Nat} {payload : Payload} (h : Keeps s t) : Keeps
    s (send dest cls window offset stepLow payload t) := by
  unfold send
  try dsimp only
  split
  · with_reducible exact h
  · split
    · with_reducible exact h
    · split
      · with_reducible exact h
      · split <;> exact keeps_mk h

theorem keeps_sendStore {s t : State} {dst : Coord} {window : Nat} {offset : Nat} {payload : Payload} (h : Keeps s t) : Keeps s (sendStore dst
    window offset payload t) := by
  unfold sendStore
  try dsimp only
  with_reducible exact keeps_send h

theorem keeps_sendPartial {s t : State} {dst : Coord} {window : Nat} {offset : Nat} {payload : Payload} (h : Keeps s t) : Keeps s (sendPartial dst
    window offset payload t) := by
  unfold sendPartial
  try dsimp only
  with_reducible exact keeps_send h

theorem keeps_pushBytes {s : State} {dst : Coord} {window : Nat} : ∀ {x0 x1 : Nat} {x2 : Bytes} {t : State}, Keeps s t →
    Keeps s (pushBytes dst window x0 x1 x2 t)
  | 0, _, _, _, h => h
  | _ + 1, _, _, _, h => by
    rw [pushBytes]
    split
    · with_reducible exact h
    · with_reducible exact keeps_pushBytes (keeps_sendStore h)

theorem keeps_setRing {s t : State} {q : Fin 16} {r : Ring} (h : Keeps s t) : Keeps s (setRing q r t) := by
  unfold setRing
  try dsimp only
  with_reducible exact keeps_mk h

theorem keeps_putSlots {s : State} {q : Fin 16} : ∀ {x2 : List Bytes} {x0 : Nat} {x1 : Bool} {t : State}, Keeps s t →
    Keeps s (putSlots q x0 x1 x2 t)
  | [], _, _, _, h => by rw [putSlots]; exact h
  | _ :: _, _, _, _, h => by rw [putSlots]; exact keeps_hostWrite (keeps_putSlots h)

theorem keeps_putRecord {s t : State} {q : Fin 16} {slots : List Bytes} (h : Keeps s t) : Keeps s (putRecord q slots t) := by
  unfold putRecord
  try dsimp only
  with_reducible exact keeps_hostWrite (keeps_setRing (keeps_putSlots h))

theorem keeps_dueMsix {s t : State} {q : Fin 16} (h : Keeps s t) : Keeps s (dueMsix q t) := by
  unfold dueMsix
  try dsimp only
  split
  · simp only
    split
    · with_reducible exact keeps_mk (keeps_setRing h)
    · with_reducible exact keeps_setRing h
  · split
    · with_reducible exact keeps_mk (keeps_setRing h)
    · with_reducible exact keeps_setRing h

theorem keeps_flushLost {s t : State} {q : Fin 16} (h : Keeps s t) : Keeps s (flushLost q t) := by
  unfold flushLost
  try dsimp only
  split
  · with_reducible exact keeps_dueMsix (keeps_setRing (keeps_putRecord h))
  · with_reducible exact h

theorem keeps_report {s t : State} {q : Fin 16} {slots : List Bytes} {isEvent : Bool} (h : Keeps s t) : Keeps s (report q slots isEvent t) := by
  unfold report
  try dsimp only
  split
  · split
    · with_reducible exact keeps_dueMsix (keeps_putRecord (keeps_flushLost h))
    · with_reducible exact keeps_putRecord (keeps_flushLost h)
  · with_reducible exact keeps_count (keeps_setRing (keeps_flushLost h))

theorem keeps_flagStatus {s t : State} {status : Nat} (h : Keeps s t) : Keeps s (flagStatus status t) := by
  unfold flagStatus
  try dsimp only
  split
  · with_reducible exact keeps_flagEvent h
  · split
    · with_reducible exact keeps_flagEvent h
    · split
      · with_reducible exact keeps_flagEvent h
      · split
        · with_reducible exact keeps_flagEvent h
        · with_reducible exact h

theorem keeps_complete {s t : State} {q : Fin 16} {d : Desc} {res : Result} (h : Keeps s t) : Keeps s (complete q d res t) := by
  unfold complete
  try dsimp only
  split
  · with_reducible exact keeps_setRing h
  · split
    · with_reducible exact keeps_dueMsix (keeps_flagStatus (keeps_count (keeps_putRecord (keeps_setRing h))))
    · with_reducible exact keeps_flagStatus (keeps_count (keeps_putRecord (keeps_setRing h)))

theorem keeps_haltRing {s t : State} {q : Fin 16} {cause : Nat} {addr : Nat} (h : Keeps s t) : Keeps s (haltRing q cause addr t) := by
  unfold haltRing
  try dsimp only
  split
  · with_reducible exact h
  · with_reducible refine keeps_flagEvent (keeps_count (keeps_setRing ?_))
    split
    · with_reducible exact h
    · with_reducible exact keeps_report h

theorem keeps_planLostEvent {s t : State} {ring : Nat} {cause : Nat} {planId : Nat} {firstStep : Nat} (h : Keeps s t) : Keeps s (planLostEvent ring
    cause planId firstStep t) := by
  unfold planLostEvent
  try dsimp only
  with_reducible exact keeps_report h

theorem keeps_clearBeats {s t : State} {a : Nat} (h : Keeps s t) : Keeps s (clearBeats a t) := by
  unfold clearBeats
  try dsimp only
  with_reducible exact keeps_mk h

theorem keeps_takeInjection {s t : State} {a : Nat} (h : Keeps s t) : Keeps s (takeInjection a t).2 := by
  unfold takeInjection
  try dsimp only
  split
  · simp only [keeps_mk_iff]
    with_reducible exact h
  · with_reducible exact h

theorem keeps_overtakePage {s t : State} {a : Nat} (h : Keeps s t) : Keeps s (overtakePage a t) := by
  unfold overtakePage
  try dsimp only
  with_reducible refine keeps_mk ?_
  split
  · with_reducible exact keeps_count h
  · with_reducible exact h

theorem keeps_storePage {s t : State} {r a : Nat} {page : Bytes} (h : Keeps s t) : Keeps s (storePage r a page t) :=
  keeps_wideAdd (keeps_clearBeats (keeps_overtakePage
    (keeps_mem (keeps_takeInjection h) (writeBytes_wf _ _) (writeBytes_wf _ _) id id)))

theorem keeps_storeRepaired {s t : State} {r : Nat} {a : Nat} {page : Bytes} (h : Keeps s t) : Keeps s (storeRepaired r a page t) := by
  unfold storeRepaired
  try dsimp only
  with_reducible exact keeps_storePage h

theorem keeps_dropMerges {s t : State} {a : Nat} (h : Keeps s t) : Keeps s (dropMerges a t) := by
  unfold dropMerges
  try dsimp only
  with_reducible exact keeps_mk h

theorem keeps_storePages {s : State} {r : Nat} : ∀ {x0 x1 : Nat} {x2 : Bytes} {t : State}, Keeps s t → Keeps s (storePages r x0 x1 x2 t)
  | 0, _, _, _, h => h
  | _ + 1, _, _, _, h => by rw [storePages]; exact keeps_storePages (keeps_storePage h)

theorem keeps_storeZeroPages {s t : State} {r : Nat} {a : Nat} {n : Nat} (h : Keeps s t) : Keeps s (storeZeroPages r a n t) := by
  unfold storeZeroPages
  try dsimp only
  with_reducible exact keeps_storePages h

theorem keeps_accumPage {s t : State} {r a : Nat} {payload : Bytes} (h : Keeps s t) : Keeps s (accumPage r a payload t) :=
  keeps_wideAdd (keeps_wideAdd (keeps_mem h (xorInto_wf _ _) (xorInto_wf _ _) id id))

theorem keeps_landFix {s t : State} {a : Nat} {pattern check : Bytes} (h : Keeps s t) : Keeps s (landFix a pattern check t) :=
  keeps_wideAdd (keeps_wideAdd (keeps_clearBeats (keeps_mem h (xorInto_wf _ _) (xorInto_wf _ _) id id)))

theorem keeps_landFixes {s t : State}  (h : Keeps s t) : Keeps s (landFixes t) := by
  unfold landFixes
  try dsimp only
  with_reducible exact keeps_foldl (fun _ _ k1 => keeps_landFix k1) (keeps_mk h)

theorem keeps_pageEvent {s t : State} {status : Nat} {r : Nat} {a : Nat} {symbols : Nat} {layer : Nat} {flags : Nat} (h : Keeps s t) : Keeps s
    (pageEvent status r a symbols layer flags t) := by
  unfold pageEvent
  try dsimp only
  with_reducible exact keeps_event h

theorem keeps_reportCorrected {s t : State} {r : Nat} {a : Nat} {symbols : Nat} {f : Finder} (h : Keeps s t) : Keeps s (reportCorrected r a symbols
    f t) := by
  unfold reportCorrected
  try dsimp only
  split
  · with_reducible exact keeps_report (keeps_count (keeps_count h))
  · with_reducible exact keeps_count (keeps_count h)

theorem keeps_reportRepaired {s t : State} {r : Nat} {a : Nat} {f : Finder} (h : Keeps s t) : Keeps s (reportRepaired r a f t) := by
  unfold reportRepaired
  try dsimp only
  with_reducible exact keeps_pageEvent (keeps_report (keeps_count h))

theorem keeps_reportUnrecoverable {s t : State} {r : Nat} {a : Nat} {f : Finder} (h : Keeps s t) : Keeps s (reportUnrecoverable r a f t) := by
  unfold reportUnrecoverable
  try dsimp only
  with_reducible refine keeps_pageEvent (keeps_report (keeps_flagEvent (keeps_count ?_)))
  split
  · with_reducible exact h
  · with_reducible exact keeps_mk h

theorem keeps_correctPage {s t : State} {r : Nat} {a : Nat} {n : Nat} {page : Bytes} {check : Bytes} {f : Finder} (h : Keeps s t) : Keeps s
    (correctPage r a n page check f t) := by
  unfold correctPage
  try dsimp only
  split
  · with_reducible exact h
  · split
    · with_reducible exact keeps_reportCorrected (keeps_mk h)
    · with_reducible exact keeps_reportCorrected (keeps_landFix h)

theorem keeps_readPage {s t : State} {r a : Nat} {f : Finder} (h : Keeps s t) : Keeps s (readPage r a f t).2 := by
  have h1 : Keeps s (count (chanReg Reg.chPgErased a) (erasedBeats t a (strengthOf t r))
      (wideAdd (chanReg Reg.chRdLo a) (4096 + 4 * strengthOf t r) t)) := keeps_count (keeps_wideAdd h)
  unfold readPage
  split
  · with_reducible exact h
  · split
    · with_reducible exact h1
    · with_reducible exact keeps_correctPage h1
    · with_reducible exact keeps_count h1

theorem keeps_readPages {s : State} {r : Nat} {f : Finder} : ∀ {x0 x1 : Nat} {x2 : State}, Keeps s x2 → Keeps s (readPages r f x0 x1 x2).2.2
  | 0, _, _, h => h
  | _ + 1, _, _, h => by rw [readPages]; exact keeps_readPages (keeps_readPage h)

theorem keeps_readChunk {s t : State} {r : Nat} {chunk : Nat} {f : Finder} (h : Keeps s t) : Keeps s (readChunk r chunk f t).2.2 := by
  unfold readChunk
  try dsimp only
  with_reducible exact keeps_readPages h

theorem keeps_readSpan {s t : State} {r : Nat} {a : Nat} {n : Nat} {f : Finder} (h : Keeps s t) : Keeps s (readSpan r a n f t).2.2 := by
  unfold readSpan
  try dsimp only
  with_reducible exact keeps_readPages h

theorem keeps_keepMerge {s t : State} {a : Nat} {bs : Bytes} {page : Nat} (h : Keeps s t) : Keeps s (keepMerge a bs page t) := by
  unfold keepMerge
  try dsimp only
  with_reducible exact keeps_mk h

theorem keeps_writePart {s t : State} {r : Nat} {a : Nat} {bs : Bytes} {f : Finder} (h : Keeps s t) : Keeps s (writePart r a bs f t).2 := by
  unfold writePart
  try dsimp only
  with_reducible exact keeps_foldl (fun _ _ k1 => keeps_storePage k1) (keeps_foldl (fun _ _ k2 => keeps_keepMerge k2) (keeps_readPages h))

theorem keeps_storeChunk {s t : State} {r : Nat} {chunk : Nat} {bs : Bytes} (h : Keeps s t) : Keeps s (storeChunk r chunk bs t) := by
  unfold storeChunk
  try dsimp only
  with_reducible exact keeps_storePages h

theorem keeps_countCapped {s t : State}  (h : Keeps s t) : Keeps s (countCapped t) := by
  unfold countCapped
  try dsimp only
  with_reducible refine keeps_foldl ?_ h
  intro _ _ k1
  split
  · with_reducible exact keeps_count (keeps_mk k1)
  · with_reducible exact k1

theorem keeps_charge {s t : State} {before : List Nat} (h : Keeps s t) : Keeps s (charge before t) := by
  unfold charge
  try dsimp only
  split
  · with_reducible exact h
  · with_reducible exact keeps_countCapped (keeps_mk h)

theorem keeps_capTick {s t : State}  (h : Keeps s t) : Keeps s (capTick t) := by
  unfold capTick
  try dsimp only
  with_reducible exact keeps_countCapped (keeps_mk h)

theorem keeps_putArrival {s t : State} {slot : Nat} {v : Nat} (h : Keeps s t) : Keeps s (putArrival slot v t) := by
  unfold putArrival
  try dsimp only
  with_reducible exact keeps_mk h

theorem keeps_setArrived {s t : State} {slot : Nat} {c : Nat} (h : Keeps s t) : Keeps s (setArrived slot c t) := by
  unfold setArrived
  try dsimp only
  split
  · with_reducible exact h
  · with_reducible exact keeps_putArrival h

theorem keeps_setWhole {s t : State} {slot : Nat} {inFlight : Bool} (h : Keeps s t) : Keeps s (setWhole slot inFlight t) := by
  unfold setWhole
  try dsimp only
  with_reducible exact keeps_putArrival h

theorem keeps_makeAbsent {s t : State} {slot : Nat} (h : Keeps s t) : Keeps s (makeAbsent slot t) := by
  unfold makeAbsent
  try dsimp only
  split
  · with_reducible exact h
  · with_reducible exact keeps_mk h

theorem keeps_makePresent {s t : State} {slot : Nat} (h : Keeps s t) : Keeps s (makePresent slot t) := by
  unfold makePresent
  try dsimp only
  with_reducible exact keeps_mk h

theorem keeps_notePending {s t : State} {slot : Nat} {c : Nat} {page : Nat} (h : Keeps s t) : Keeps s (notePending slot c page t) := by
  unfold notePending
  try dsimp only
  with_reducible exact keeps_mk h

theorem keeps_basinEvent {s t : State} {status : Nat} {cause : Nat} (h : Keeps s t) : Keeps s (basinEvent status cause t) := by
  unfold basinEvent
  try dsimp only
  with_reducible exact keeps_flagEvent (keeps_event h)

theorem keeps_supply {s t : State} {i : Nat} {n : Nat} {b : Bool} {pm : BitVec 16} (h : Keeps s t) : Keeps s (supply i n b pm t).2 := by
  unfold supply
  try dsimp only
  split
  · simp only
    with_reducible exact keeps_readPage h
  · split
    · split
      · simp only
        with_reducible exact keeps_readPage (keeps_readPage h)
      · simp only
        with_reducible exact keeps_readPage h
    · simp only
      with_reducible exact keeps_readPage h

theorem keeps_gather {s t : State} {read : Nat → State → Option Bytes × State} {x0 : List Nat} (h : Keeps s t) (hread : ∀ y0 u, Keeps s u → Keeps s
    (read y0 u).2) : Keeps s (gather read x0 t).2 := by
  induction x0 generalizing t with
  | nil =>
    unfold gather
    try dsimp only
    with_reducible exact h
  | cons y ys ih =>
    unfold gather
    try dsimp only
    with_reducible exact ih (hread _ _ h)

theorem keeps_sendPages {s t : State} {dst : Coord} {window : Nat} {base : Nat} {ps : List (Nat × Bytes)} (h : Keeps s t) : Keeps s (sendPages dst
    window base ps t) := by
  unfold sendPages
  try dsimp only
  with_reducible exact keeps_foldl (fun _ _ k1 => keeps_sendStore k1) h

theorem keeps_sendRepair {s t : State} {dst : Coord} {r : RepairRec} (h : Keeps s t) : Keeps s (sendRepair dst r t) := by
  unfold sendRepair
  try dsimp only
  with_reducible exact keeps_sendStore h

theorem keeps_launchPackets {s t : State} {a : Attempt} (h : Keeps s t) : Keeps s (launchPackets a t) := by
  unfold launchPackets
  try dsimp only
  split
  · with_reducible exact keeps_sendRepair h
  · split
    · with_reducible exact keeps_sendRepair h
    · split
      · with_reducible exact keeps_sendRepair (keeps_sendPages (keeps_mk h))
      · split
        · with_reducible exact h
        · with_reducible exact keeps_sendRepair h

theorem keeps_takeTag {s t : State}  (h : Keeps s t) : Keeps s (takeTag t) := by
  unfold takeTag
  try dsimp only
  with_reducible exact keeps_mk h

theorem keeps_noteRange {s t : State} {w : RepairFor} {f : RangeWait → RangeWait} (h : Keeps s t) : Keeps s (noteRange w f t) := by
  unfold noteRange
  try dsimp only
  split
  · with_reducible exact keeps_mk h
  · with_reducible exact h

theorem keeps_dropResults {s t : State} {o : Nat} (h : Keeps s t) : Keeps s (dropResults o t) := by
  unfold dropResults
  try dsimp only
  with_reducible exact keeps_mk h

theorem keeps_markFailed {s t : State} {w : RepairFor} (h : Keeps s t) : Keeps s (markFailed w t) := by
  unfold markFailed
  try dsimp only
  split
  · with_reducible exact keeps_mk h
  · split
    · with_reducible exact keeps_mk h
    · with_reducible exact h

theorem keeps_cisternLost {s t : State} {a : Nat} (h : Keeps s t) : Keeps s (cisternLost a t) := by
  unfold cisternLost
  try dsimp only
  split
  · with_reducible exact keeps_storeRepaired h
  · split
    · with_reducible exact keeps_mk h
    · split
      · with_reducible exact keeps_dropResults h
      · with_reducible exact h

theorem keeps_bankLost {s t : State} {slot : Nat} (h : Keeps s t) : Keeps s (bankLost slot t) := by
  unfold bankLost
  try dsimp only
  with_reducible exact keeps_basinEvent (keeps_mk (keeps_makeAbsent h))

theorem keeps_lostEffect {s t : State} {region : Nat} {a : Nat} {stripe : Nat} (h : Keeps s t) : Keeps s (lostEffect region a stripe t) := by
  unfold lostEffect
  try dsimp only
  with_reducible refine keeps_dropMerges ?_
  split
  · with_reducible exact keeps_bankLost h
  · split
    · with_reducible exact keeps_mk h
    · split
      · with_reducible exact keeps_cisternLost h
      · with_reducible exact h

theorem keeps_pageLost {s t : State} {region : Nat} {a : Nat} {stripe : Nat} {w : RepairFor} (h : Keeps s t) : Keeps s (pageLost region a stripe w
    t) := by
  unfold pageLost
  try dsimp only
  with_reducible refine keeps_lostEffect ?_
  split
  · with_reducible exact h
  · with_reducible exact keeps_reportUnrecoverable h

theorem keeps_escalationFailed {s t : State} {region : Nat} {a : Nat} {stripe : Nat} {w : RepairFor} (h : Keeps s t) : Keeps s (escalationFailed
    region a stripe w t) := by
  unfold escalationFailed
  try dsimp only
  split
  · split
    · with_reducible exact keeps_noteRange h
    · with_reducible exact keeps_pageLost (keeps_markFailed (keeps_noteRange h))
  · split
    · with_reducible exact keeps_noteRange h
    · with_reducible exact keeps_pageLost (keeps_markFailed (keeps_noteRange h))

theorem keeps_listedFails {s t : State} {region : Nat} {a : Nat} {stripe : Nat} {w : RepairFor} (h : Keeps s t) : Keeps s (listedFails region a
    stripe w t) := by
  unfold listedFails
  try dsimp only
  with_reducible exact keeps_lostEffect (keeps_markFailed (keeps_noteRange h))

theorem keeps_tryAttempts {s : State} {region a target stripe : Nat} {w : RepairFor} : ∀ {x0 : List (Nat × Nat)} {x1 : State}, Keeps s x1 →
    Keeps s (tryAttempts region a target stripe w x0 x1)
  | [], _, h => keeps_escalationFailed h
  | (_, _) :: _, _, h => by
    rw [tryAttempts]
    split
    · with_reducible exact keeps_tryAttempts h
    · dsimp only
      split
      · with_reducible exact keeps_mk (keeps_takeTag h)
      · with_reducible exact keeps_launchPackets (keeps_mk (keeps_takeTag h))

theorem keeps_rebuildOrder {s t : State} {a : Nat} {w : RepairFor} (h : Keeps s t) : Keeps s (rebuildOrder a w t) := by
  unfold rebuildOrder
  try dsimp only
  split
  · with_reducible exact h
  · with_reducible exact keeps_count (keeps_noteRange (keeps_storeRepaired h))

theorem keeps_escalate {s t : State} {region : Nat} {addr : Nat} {w : RepairFor} (h : Keeps s t) : Keeps s (escalate region addr w t) := by
  unfold escalate
  try dsimp only
  split
  · with_reducible exact keeps_rebuildOrder h
  · split
    · with_reducible exact h
    · split
      · split
        · with_reducible exact keeps_escalationFailed h
        · with_reducible exact keeps_listedFails h
      · with_reducible exact keeps_tryAttempts h

theorem keeps_escalateAll {s t : State} {region : Nat} {bad : List Nat} {w : RepairFor} (h : Keeps s t) : Keeps s (escalateAll region bad w t) := by
  unfold escalateAll
  try dsimp only
  with_reducible exact keeps_foldl (fun _ _ k1 => keeps_escalate k1) h

theorem keeps_escalateUnread {s t : State} {region : Nat} {pages : List Nat} {w : RepairFor} (h : Keeps s t) : Keeps s (escalateUnread region pages
    w t) := by
  unfold escalateUnread
  try dsimp only
  with_reducible exact keeps_escalateAll h

theorem keeps_launchAttempt {s t : State} {a : Attempt} (h : Keeps s t) : Keeps s (launchAttempt a t) := by
  unfold launchAttempt
  try dsimp only
  with_reducible exact keeps_launchPackets (keeps_mk h)

theorem keeps_startDeferred {s t : State}  (h : Keeps s t) : Keeps s (startDeferred t) := by
  unfold startDeferred
  try dsimp only
  with_reducible exact keeps_foldl (fun _ _ k1 => keeps_launchAttempt k1) h

theorem keeps_repairWork {s t : State} {n : Nat} (h : Keeps s t) : Keeps s (repairWork n t).2 := by
  unfold repairWork
  try dsimp only
  with_reducible exact keeps_foldl (fun _ _ k1 => keeps_charge (keeps_launchAttempt k1)) h

theorem keeps_dropAttempt {s t : State} {a : Attempt} (h : Keeps s t) : Keeps s (dropAttempt a t) := by
  unfold dropAttempt
  try dsimp only
  with_reducible exact keeps_mk h

theorem keeps_attemptFailed {s t : State} {a : Attempt} (h : Keeps s t) : Keeps s (attemptFailed a t) := by
  unfold attemptFailed
  try dsimp only
  with_reducible exact keeps_tryAttempts (keeps_dropAttempt h)

theorem keeps_attemptDone {s t : State} {a : Attempt} {page : Bytes} (h : Keeps s t) : Keeps s (attemptDone a page t) := by
  unfold attemptDone
  try dsimp only
  split
  · with_reducible exact keeps_foldl (fun _ _ k2 => keeps_noteRange (keeps_dropAttempt k2)) h
  · with_reducible refine keeps_reportRepaired (keeps_storeRepaired ?_)
    split
    · with_reducible exact keeps_withdrawOffer (keeps_foldl (fun _ _ k6 => keeps_noteRange (keeps_dropAttempt k6)) h)
    · with_reducible exact keeps_foldl (fun _ _ k5 => keeps_noteRange (keeps_dropAttempt k5)) h

theorem keeps_finishRanges {s t : State}  (h : Keeps s t) : Keeps s (finishRanges t) := by
  unfold finishRanges
  try dsimp only
  with_reducible refine keeps_foldl ?_ (keeps_mk h)
  intro _ _ k1
  split
  · with_reducible exact keeps_complete k1
  · with_reducible exact k1

theorem keeps_clearBuffer {s t : State} {tag : Nat} (h : Keeps s t) : Keeps s (clearBuffer tag t) := by
  unfold clearBuffer
  try dsimp only
  with_reducible exact keeps_mk h

theorem keeps_sendMarker {s t : State} {dst : Coord} {kind : Nat} {role : Nat} {mask : BitVec 16} {chunk : Nat} {position : Nat} (h : Keeps s t) :
    Keeps s (sendMarker dst kind role mask chunk position t) := by
  unfold sendMarker
  try dsimp only
  with_reducible exact keeps_send h

theorem keeps_sendAccum {s t : State} {dst : Coord} {slot : Nat} {page : Nat} {bs : Bytes} (h : Keeps s t) : Keeps s (sendAccum dst slot page bs t)
    := by
  unfold sendAccum
  try dsimp only
  with_reducible exact keeps_send h

theorem keeps_issueDelta {s t : State} {h' : Nat} {e : QueueEnt} {ps : List (Nat × Bytes)} (h : Keeps s t) : Keeps s (issueDelta h' e ps t) := by
  unfold issueDelta
  try dsimp only
  with_reducible exact keeps_count (keeps_mk (keeps_sendMarker (keeps_foldl (fun _ _ k4 => keeps_sendAccum k4) h)))

theorem keeps_sendDelta {s t : State} {h' : Nat} {e : QueueEnt} (h : Keeps s t) : Keeps s (sendDelta h' e t).2 := by
  unfold sendDelta
  try dsimp only
  split
  · simp only
    with_reducible exact keeps_issueDelta (keeps_gather h (fun _ _ k4 => keeps_readPage k4))
  · simp only
    split
    · with_reducible exact keeps_gather h (fun _ _ k4 => keeps_readPage k4)
    · with_reducible exact keeps_escalateUnread (keeps_gather h (fun _ _ k5 => keeps_readPage k5))

theorem keeps_drainQueue {s t : State} {h' : Nat} {x0 : Nat} (h : Keeps s t) : Keeps s (drainQueue h' x0 t) := by
  induction x0 generalizing t with
  | zero =>
    unfold drainQueue
    try dsimp only
    with_reducible exact h
  | succ n ih =>
    unfold drainQueue
    try dsimp only
    split
    · with_reducible exact h
    · split
      · split
        · with_reducible exact ih (keeps_mk (keeps_sendDelta h))
        · with_reducible exact keeps_sendDelta h
      · split
        · with_reducible exact h
        · with_reducible exact keeps_count (keeps_mk h)

theorem keeps_sendProgress {s t : State} {h' : Nat} {timer : Bool} (h : Keeps s t) : Keeps s (sendProgress h' timer t) := by
  unfold sendProgress
  try dsimp only
  split
  · with_reducible exact keeps_mk (keeps_sendMarker h)
  · with_reducible exact h

theorem keeps_sendFinal {s t : State} {h' : Nat} (h : Keeps s t) : Keeps s (sendFinal h' t) := by
  unfold sendFinal
  try dsimp only
  split
  · with_reducible exact keeps_mk (keeps_sendMarker h)
  · with_reducible exact h

theorem keeps_memberSend {s t : State} {h' : Nat} (h : Keeps s t) : Keeps s (memberSend h' t) := by
  unfold memberSend
  try dsimp only
  split
  · with_reducible exact h
  · with_reducible exact keeps_sendFinal (keeps_sendProgress (keeps_drainQueue h))

theorem keeps_memberSendAll {s t : State}  (h : Keeps s t) : Keeps s (memberSendAll t) := by
  unfold memberSendAll
  try dsimp only
  with_reducible exact keeps_foldl (fun _ _ k1 => keeps_memberSend k1) h

theorem keeps_flushAck {s t : State} {dest : Coord} (h : Keeps s t) : Keeps s (flushAck dest t) := by
  unfold flushAck
  try dsimp only
  with_reducible exact keeps_mk (keeps_send h)

theorem keeps_ackPending {s t : State} {dest : Coord} {stripe : Nat} (h : Keeps s t) : Keeps s (ackPending dest stripe t) := by
  unfold ackPending
  try dsimp only
  split
  · with_reducible exact keeps_flushAck (keeps_mk h)
  · with_reducible exact keeps_mk h

theorem keeps_sendLimits {s t : State}  (h : Keeps s t) : Keeps s (sendLimits t) := by
  unfold sendLimits
  try dsimp only
  split
  · with_reducible exact h
  · with_reducible refine keeps_foldl ?_ h
    intro _ _ k2
    split
    · with_reducible exact keeps_flushAck k2
    · with_reducible exact k2

theorem keeps_freeRelays {s t : State}  (h : Keeps s t) : Keeps s (freeRelays t) := by
  unfold freeRelays
  try dsimp only
  with_reducible exact keeps_mk h

theorem keeps_settleOwed {s t : State}  (h : Keeps s t) : Keeps s (settleOwed t) := by
  unfold settleOwed
  try dsimp only
  with_reducible exact keeps_freeRelays (keeps_sendLimits (keeps_freeRelays (keeps_foldl (fun _ _ k4 => keeps_ackPending k4) (keeps_mk h))))

theorem keeps_openRelay {s t : State} {g : Nat} {i : Nat} (h : Keeps s t) : Keeps s (openRelay g i t) := by
  unfold openRelay
  try dsimp only
  split
  · with_reducible exact h
  · with_reducible exact keeps_mk (keeps_storeZeroPages h)

theorem keeps_combine {s t : State} {g : Nat} {i : Nat} {m : Nat} {page : Nat} {bs : Bytes} (h : Keeps s t) : Keeps s (combine g i m page bs t) := by
  unfold combine
  try dsimp only
  split
  · with_reducible exact h
  · with_reducible exact keeps_mk (keeps_foldl (fun _ _ k3 => keeps_accumPage k3) (keeps_openRelay h))

theorem keeps_combinedPages {s t : State} {e : RelayEnt} {h' : Nat} (h : Keeps s t) : Keeps s (combinedPages e h' t).2 := by
  unfold combinedPages
  try dsimp only
  with_reducible exact keeps_gather h (fun _ _ k1 => keeps_readPage k1)

theorem keeps_issueCombined {s t : State} {e : RelayEnt} {h' : Nat} {ps : List (Nat × Bytes)} (h : Keeps s t) : Keeps s (issueCombined e h' ps t) :=
    by
  unfold issueCombined
  try dsimp only
  with_reducible exact keeps_count (keeps_sendMarker (keeps_foldl (fun _ _ k3 => keeps_sendAccum k3) h))

theorem keeps_sendCombined {s t : State} {e : RelayEnt} {h' : Nat} (h : Keeps s t) : Keeps s (sendCombined e h' t).2 := by
  unfold sendCombined
  try dsimp only
  split
  · simp only
    with_reducible exact keeps_issueCombined (keeps_combinedPages h)
  · simp only
    with_reducible exact keeps_escalateUnread (keeps_combinedPages h)

theorem keeps_relayStripe {s t : State} {e : RelayEnt} (h : Keeps s t) : Keeps s (relayStripe e t) := by
  unfold relayStripe
  try dsimp only
  with_reducible refine keeps_mk (keeps_foldl_snd ?_ h)
  intro _ _ k2
  simp only
  with_reducible exact keeps_sendCombined k2

theorem keeps_checkComplete {s t : State} {i : Nat} (h : Keeps s t) : Keeps s (checkComplete i t) := by
  unfold checkComplete
  try dsimp only
  split
  · with_reducible exact h
  · split
    · with_reducible exact h
    · split
      · with_reducible exact h
      · split
        · with_reducible exact h
        · split
          · with_reducible exact keeps_mk h
          · with_reducible exact keeps_relayStripe h

theorem keeps_relayFinal {s t : State}  (h : Keeps s t) : Keeps s (relayFinal t) := by
  unfold relayFinal
  try dsimp only
  split
  · with_reducible exact keeps_mk (keeps_foldl (fun _ _ k3 => keeps_sendMarker k3) h)
  · with_reducible exact h

theorem keeps_holderSettle {s t : State}  (h : Keeps s t) : Keeps s (holderSettle t) := by
  unfold holderSettle
  try dsimp only
  with_reducible exact keeps_settleOwed (keeps_relayFinal h)

theorem keeps_sweepMember {s t : State} {sender : Coord} {hi : Nat} (h : Keeps s t) : Keeps s (sweepMember sender hi t) := by
  unfold sweepMember
  try dsimp only
  with_reducible refine keeps_foldl ?_ h
  intro _ _ k1
  split
  · split
    · with_reducible exact keeps_checkComplete (keeps_setArrived k1)
    · with_reducible exact k1
  · split
    · with_reducible exact keeps_checkComplete (keeps_setArrived k1)
    · with_reducible exact k1

theorem keeps_sweepRelay {s t : State} {sender : Coord} (h : Keeps s t) : Keeps s (sweepRelay sender t) := by
  unfold sweepRelay
  try dsimp only
  with_reducible refine keeps_foldl ?_ h
  intro _ _ k1
  split
  · with_reducible exact k1
  · with_reducible refine keeps_foldl ?_ k1
    intro _ _ k4
    split
    · with_reducible exact keeps_setArrived k4
    · with_reducible exact k4

theorem keeps_putGrad {s t : State} {g : GradFrame} (h : Keeps s t) : Keeps s (putGrad g t) := by
  unfold putGrad
  try dsimp only
  with_reducible exact keeps_mk h

theorem keeps_mergeWrite {s t : State} {r : Nat} {a : Nat} {bs : Bytes} {w : RepairFor} (h : Keeps s t) : Keeps s (mergeWrite r a bs w t) := by
  unfold mergeWrite
  try dsimp only
  with_reducible exact keeps_escalateAll (keeps_writePart h)

theorem keeps_refreshTouch {s t : State} {p : Plan} {t' : TensorEntry} (h : Keeps s t) : Keeps s (refreshTouch p t' t) := by
  unfold refreshTouch
  try dsimp only
  split
  · with_reducible exact h
  · with_reducible exact keeps_mergeWrite h

theorem keeps_writeHealth {s t : State} {p : Plan} {x : Nat} {t' : TensorEntry} {flags : Nat} {nonRes : Nat} {sat : Nat} {touched : Nat} {counts :
    Nat × Nat} (h : Keeps s t) : Keeps s (writeHealth p x t' flags nonRes sat touched counts t) := by
  unfold writeHealth
  try dsimp only
  split
  · with_reducible exact keeps_report (keeps_mergeWrite h)
  · with_reducible exact keeps_mergeWrite h

theorem keeps_stageChunks {s t : State} {x0 : List Nat} (h : Keeps s t) : Keeps s (stageChunks x0 t).2.2 := by
  induction x0 generalizing t with
  | nil =>
    unfold stageChunks
    try dsimp only
    with_reducible exact h
  | cons y ys ih =>
    unfold stageChunks
    try dsimp only
    split
    · with_reducible exact ih h
    · split
      · with_reducible exact ih (keeps_mk (keeps_readChunk h))
      · with_reducible exact ih (keeps_readChunk h)

theorem keeps_stageGradient {s t : State} {p : Plan} {t' : TensorEntry} {x0 : List (Nat × Nat)} {x1 : Mem} (h : Keeps s t) : Keeps s (stageGradient
    p t' x0 x1 t).2.2 := by
  induction x0 generalizing t x1 with
  | nil =>
    unfold stageGradient
    try dsimp only
    with_reducible exact h
  | cons y ys ih =>
    unfold stageGradient
    try dsimp only
    with_reducible exact ih (keeps_readSpan h)

theorem keeps_closeChunk {s t : State} {c : Nat} (h : Keeps s t) : Keeps s (closeChunk c t) := by
  unfold closeChunk
  try dsimp only
  with_reducible exact keeps_mk h

theorem keeps_runPart {s t : State} {p : Plan} {t' : TensorEntry} {touched : List Nat} {chunks : List Nat} {hi : Nat} {gm : Mem} (h : Keeps s t) :
    Keeps s (runPart p t' touched chunks hi gm t) := by
  unfold runPart
  try dsimp only
  with_reducible exact keeps_foldl (fun _ _ k1 => keeps_closeChunk k1) (keeps_mk (keeps_wideAdd h))

theorem keeps_closeTensor {s t : State} {p : Plan} {x : Nat × TensorEntry} {touched : List Nat} (h : Keeps s t) : Keeps s (closeTensor p x touched
    t) := by
  unfold closeTensor
  try dsimp only
  with_reducible refine keeps_regPut (keeps_count (keeps_count ?_))
  split
  · with_reducible exact keeps_writeHealth h
  · with_reducible exact h

theorem keeps_nextTensor {s t : State}  (h : Keeps s t) : Keeps s (nextTensor t) := by
  unfold nextTensor
  try dsimp only
  with_reducible exact keeps_mk h

theorem keeps_stageTensor {s t : State} {p : Plan} {x : Nat × TensorEntry} (h : Keeps s t) : Keeps s (stageTensor p x t).2 := by
  unfold stageTensor
  try dsimp only
  split
  · simp only
    with_reducible refine keeps_closeTensor (keeps_runPart (keeps_stageGradient ?_))
    split
    · simp only
      with_reducible exact keeps_stageChunks h
    · with_reducible exact keeps_readSpan (keeps_stageChunks h)
  · simp only
    with_reducible refine keeps_escalateAll (keeps_escalateAll (keeps_mk (keeps_runPart (keeps_stageGradient ?_))))
    split
    · simp only
      with_reducible exact keeps_stageChunks h
    · with_reducible exact keeps_readSpan (keeps_stageChunks h)

theorem keeps_stageTensors {s t : State} {p : Plan} {x0 : List (Nat × TensorEntry)} (h : Keeps s t) : Keeps s (stageTensors p x0 t) := by
  induction x0 generalizing t with
  | nil =>
    unfold stageTensors
    try dsimp only
    with_reducible exact keeps_mk h
  | cons y ys ih =>
    unfold stageTensors
    try dsimp only
    split
    · with_reducible exact ih (keeps_nextTensor (keeps_writeHealth h))
    · split
      · with_reducible exact ih (keeps_nextTensor (keeps_writeHealth h))
      · split
        · with_reducible exact ih (keeps_nextTensor (keeps_stageTensor h))
        · with_reducible exact keeps_stageTensor h

theorem keeps_scanTensor {s t : State} {p : Plan} {t' : TensorEntry} (h : Keeps s t) : Keeps s (scanTensor p t' t).2 := by
  unfold scanTensor
  try dsimp only
  split
  · simp only
    with_reducible exact keeps_refreshTouch (keeps_putGrad (keeps_mk (keeps_readSpan h)))
  · simp only
    with_reducible exact keeps_readSpan h

theorem keeps_scanTensors {s t : State} {p : Plan} {x0 : List (Nat × TensorEntry)} (h : Keeps s t) : Keeps s (scanTensors p x0 t).2 := by
  induction x0 generalizing t with
  | nil =>
    unfold scanTensors
    try dsimp only
    with_reducible exact h
  | cons y ys ih =>
    unfold scanTensors
    try dsimp only
    split
    · with_reducible exact ih h
    · with_reducible exact ih (keeps_scanTensor h)

theorem keeps_openAssembly {s t : State}  (h : Keeps s t) : Keeps s (openAssembly t) := by
  unfold openAssembly
  try dsimp only
  split
  · with_reducible exact h
  · with_reducible exact keeps_mk (keeps_regPut (keeps_widePut h))

theorem keeps_assemble {s t : State}  (h : Keeps s t) : Keeps s (assemble t) := by
  unfold assemble
  try dsimp only
  split
  · with_reducible exact h
  · split
    · split
      · with_reducible exact keeps_stageTensors (keeps_mk (keeps_scanTensors (keeps_openAssembly h)))
      · with_reducible exact keeps_escalateAll (keeps_scanTensors (keeps_openAssembly h))
    · with_reducible exact keeps_stageTensors (keeps_openAssembly h)

theorem keeps_enqueueDelta {s t : State} {pos : Nat} {c : Nat} {u' : Nat} {mask : BitVec 16} {extra : BitVec 16} (h : Keeps s t) : Keeps s
    (enqueueDelta pos c u' mask extra t) := by
  unfold enqueueDelta
  try dsimp only
  with_reducible exact keeps_mk h

theorem keeps_writePlotChunk {s t : State} {c : Nat} {bs : Bytes} (h : Keeps s t) : Keeps s (writePlotChunk c bs t) := by
  unfold writePlotChunk
  try dsimp only
  with_reducible exact keeps_withdrawOffer (keeps_storeChunk h)

theorem keeps_oldContent {s t : State} {c : Nat} (h : Keeps s t) : Keeps s (oldContent c t).2 := by
  unfold oldContent
  try dsimp only
  split
  · with_reducible exact h
  · split
    · simp only
      with_reducible exact keeps_readChunk h
    · simp only
      with_reducible exact keeps_escalateAll (keeps_readChunk h)

theorem keeps_writeDelta {s t : State} {pos : Nat} {c : Nat} {u' : Nat} {bs : Bytes} {pages : List (Nat × Bytes)} (h : Keeps s t) : Keeps s
    (writeDelta pos c u' bs pages t) := by
  unfold writeDelta
  try dsimp only
  with_reducible exact keeps_enqueueDelta (keeps_writePlotChunk (keeps_regPut (keeps_mk (keeps_foldl (fun _ _ k5 => keeps_storePage k5) h))))

theorem keeps_noteCopied {s t : State} {c : Nat} (h : Keeps s t) : Keeps s (noteCopied c t) := by
  unfold noteCopied
  try dsimp only
  split
  · with_reducible exact keeps_mk h
  · with_reducible exact h

theorem keeps_writeChanged {s t : State} {pos : Nat} {c : Nat} {bs : Bytes} (h : Keeps s t) : Keeps s (writeChanged pos c bs t).2 := by
  unfold writeChanged
  try dsimp only
  split
  · simp only
    with_reducible exact keeps_noteCopied (keeps_writePlotChunk h)
  · split
    · simp only
      with_reducible exact keeps_sendMarker (keeps_writePlotChunk h)
    · split
      · simp only
        with_reducible exact keeps_oldContent h
      · split
        · simp only
          with_reducible exact keeps_oldContent h
        · split
          · simp only [keeps_mk_iff]
            with_reducible exact keeps_oldContent h
          · simp only
            with_reducible exact keeps_writeDelta (keeps_oldContent h)

theorem keeps_writeLoop {s t : State} {x0 : Nat} (h : Keeps s t) : Keeps s (writeLoop x0 t) := by
  induction x0 generalizing t with
  | zero =>
    unfold writeLoop
    try dsimp only
    with_reducible exact h
  | succ n ih =>
    unfold writeLoop
    try dsimp only
    split
    · with_reducible exact h
    · split
      · split
        · with_reducible exact keeps_mk h
        · split
          · with_reducible exact keeps_writeChanged h
          · with_reducible refine ih ?_
            split
            · with_reducible exact keeps_memberSendAll (keeps_mk (keeps_writeChanged h))
            · with_reducible exact keeps_mk (keeps_writeChanged h)
      · split
        · with_reducible exact keeps_writeChanged h
        · with_reducible refine ih ?_
          split
          · with_reducible exact keeps_memberSendAll (keeps_mk (keeps_writeChanged h))
          · with_reducible exact keeps_mk (keeps_writeChanged h)

theorem keeps_finishUpdate {s t : State}  (h : Keeps s t) : Keeps s (finishUpdate t) := by
  unfold finishUpdate
  try dsimp only
  with_reducible exact keeps_memberSendAll (keeps_mk h)

theorem keeps_continueUpdate {s t : State}  (h : Keeps s t) : Keeps s (continueUpdate t) := by
  unfold continueUpdate
  try dsimp only
  split
  · with_reducible exact h
  · split
    · split
      · with_reducible exact keeps_finishUpdate (keeps_writeLoop (keeps_mk h))
      · with_reducible exact keeps_writeLoop (keeps_mk h)
    · split
      · with_reducible exact keeps_finishUpdate (keeps_writeLoop (keeps_mk (keeps_assemble h)))
      · with_reducible exact keeps_writeLoop (keeps_mk (keeps_assemble h))

theorem keeps_beginUpdate {s t : State}  (h : Keeps s t) : Keeps s (beginUpdate t) := by
  unfold beginUpdate
  try dsimp only
  with_reducible exact keeps_continueUpdate (keeps_mk h)

theorem keeps_pokeBasin {s t : State}  (h : Keeps s t) : Keeps s (pokeBasin t) := by
  unfold pokeBasin
  try dsimp only
  split
  · with_reducible exact h
  · with_reducible exact keeps_holderSettle (keeps_memberSendAll (keeps_continueUpdate h))

theorem keeps_setPondState {s t : State} {st : Nat} {step : Nat} (h : Keeps s t) : Keeps s (setPondState st step t) := by
  unfold setPondState
  try dsimp only
  with_reducible exact keeps_regPut (keeps_regPut h)

theorem keeps_startCopy {s t : State} {p : Plan} (h : Keeps s t) : Keeps s (startCopy p t) := by
  unfold startCopy
  try dsimp only
  with_reducible exact keeps_setPondState (keeps_mk (keeps_mergeWrite h))

theorem keeps_writePondRecord {s t : State} {p : Plan} {body : Bytes} (h : Keeps s t) : Keeps s (writePondRecord p body t) := by
  unfold writePondRecord
  try dsimp only
  with_reducible exact keeps_setPondState (keeps_mk (keeps_storePage (keeps_storePage (keeps_storePages h))))

theorem keeps_finishCopy {s t : State} {p : Plan} (h : Keeps s t) : Keeps s (finishCopy p t).2 := by
  unfold finishCopy
  try dsimp only
  split
  · simp only
    with_reducible exact keeps_escalateAll (keeps_readSpan (keeps_readSpan h))
  · simp only
    with_reducible exact keeps_writePondRecord (keeps_readSpan (keeps_readSpan h))

theorem keeps_copyChunk {s t : State} {c : PondCopy} (h : Keeps s t) : Keeps s (copyChunk c t) := by
  unfold copyChunk
  try dsimp only
  split
  · with_reducible exact keeps_mk (keeps_storeChunk (keeps_readChunk h))
  · with_reducible exact keeps_escalateAll (keeps_readChunk h)

theorem keeps_copyChunks {s t : State} {x0 : Nat} (h : Keeps s t) : Keeps s (copyChunks x0 t).2 := by
  induction x0 generalizing t with
  | zero =>
    unfold copyChunks
    try dsimp only
    with_reducible exact h
  | succ n ih =>
    unfold copyChunks
    try dsimp only
    split
    · with_reducible exact h
    · split
      · with_reducible exact h
      · with_reducible exact ih (keeps_charge (keeps_copyChunk h))

theorem keeps_refreshSlots {s t : State}  (h : Keeps s t) : Keeps s (refreshSlots t) := by
  unfold refreshSlots
  try dsimp only
  with_reducible exact keeps_regPut (keeps_regPut h)

theorem keeps_putDrain {s t : State} {d : Drain} (h : Keeps s t) : Keeps s (putDrain d t) := by
  unfold putDrain
  try dsimp only
  with_reducible exact keeps_mk h

theorem keeps_slotWrite {s t : State} {off : Nat} {bs : Bytes} (h : Keeps s t) : Keeps s (slotWrite off bs t) := by
  unfold slotWrite
  try dsimp only
  with_reducible exact keeps_wideAdd (keeps_flashWrite h)

theorem keeps_issueBarrier {s t : State} {b : Barrier} (h : Keeps s t) : Keeps s (issueBarrier b t) := by
  unfold issueBarrier
  try dsimp only
  with_reducible exact keeps_mk h

theorem keeps_endDrain {s t : State} {d : Drain} {r : Result} (h : Keeps s t) : Keeps s (endDrain d r t) := by
  unfold endDrain
  try dsimp only
  split
  · with_reducible exact keeps_complete (keeps_mk h)
  · with_reducible exact keeps_mk h

theorem keeps_beginDrain_begin_ {s t : State} {d : Drain} {p : Plan} {h' : Bytes} (h : Keeps s t) : Keeps s (beginDrain.begin_ d p h' t) := by
  unfold beginDrain.begin_
  try dsimp only
  split
  · with_reducible exact keeps_endDrain h
  · split
    · with_reducible exact keeps_endDrain h
    · with_reducible exact keeps_refreshSlots (keeps_putDrain (keeps_mk h))

theorem keeps_beginDrain {s t : State} {d : Drain} (h : Keeps s t) : Keeps s (beginDrain d t) := by
  unfold beginDrain
  try dsimp only
  split
  · with_reducible exact keeps_endDrain h
  · split
    · with_reducible exact keeps_endDrain h
    · split
      · with_reducible exact keeps_endDrain (keeps_escalateAll (keeps_readSpan (keeps_readSpan h)))
      · split
        · with_reducible exact keeps_endDrain (keeps_escalateAll (keeps_readSpan (keeps_readSpan h)))
        · split
          · split
            · with_reducible exact keeps_endDrain (keeps_escalateAll (keeps_readSpan (keeps_readSpan h)))
            · with_reducible exact keeps_beginDrain_begin_ (keeps_escalateAll (keeps_readSpan (keeps_readSpan h)))
          · with_reducible exact keeps_beginDrain_begin_ (keeps_escalateAll (keeps_readSpan (keeps_readSpan h)))

theorem keeps_queueFrame {s t : State} {p : Plan} {d : Drain} {x : Shard} {f : Bytes} (h : Keeps s t) : Keeps s (queueFrame p d x f t) := by
  unfold queueFrame
  try dsimp only
  split <;> exact keeps_putDrain h

theorem keeps_drainChunk {s t : State} {p : Plan} {d : Drain} {x : Shard} (h : Keeps s t) : Keeps s (drainChunk p d x t).2 := by
  unfold drainChunk
  try dsimp only
  split
  · simp only
    with_reducible exact keeps_putDrain h
  · split
    · simp only
      with_reducible exact keeps_queueFrame (keeps_wideAdd (keeps_readChunk h))
    · simp only
      with_reducible exact keeps_putDrain (keeps_count (keeps_escalateAll (keeps_wideAdd (keeps_readChunk h))))

theorem keeps_drainChunks {s t : State} {x0 : Nat} {x1 : Nat} (h : Keeps s t) : Keeps s (drainChunks x0 x1 t).2 := by
  induction x0 generalizing t x1 with
  | zero =>
    unfold drainChunks
    try dsimp only
    with_reducible exact h
  | succ n ih =>
    unfold drainChunks
    try dsimp only
    split
    · with_reducible exact h
    · split
      · split
        · with_reducible exact h
        · split
          · with_reducible exact h
          · with_reducible exact ih (keeps_charge (keeps_drainChunk h))
      · with_reducible exact h

theorem keeps_issueOut {s t : State} {x0 : List (Nat × Bytes)} {x1 : Nat} (h : Keeps s t) : Keeps s (issueOut x0 x1 t).2 := by
  induction x0 generalizing t x1 with
  | nil =>
    unfold issueOut
    try dsimp only
    with_reducible exact h
  | cons y ys ih =>
    unfold issueOut
    try dsimp only
    split
    · with_reducible exact h
    · split
      · with_reducible exact ih (keeps_slotWrite h)
      · simp only
        with_reducible exact keeps_slotWrite h

theorem keeps_drainNext {s t : State}  (h : Keeps s t) : Keeps s (drainNext t) := by
  unfold drainNext
  try dsimp only
  split
  · with_reducible exact h
  · split
    · with_reducible exact h
    · split
      · split
        · with_reducible exact keeps_putDrain h
        · with_reducible exact h
      · with_reducible exact keeps_issueBarrier h

theorem keeps_drainBarrier {s t : State}  (h : Keeps s t) : Keeps s (drainBarrier t) := by
  unfold drainBarrier
  try dsimp only
  split
  · with_reducible exact h
  · split
    · with_reducible exact keeps_putDrain h
    · split
      · with_reducible exact keeps_putDrain h
      · split
        · with_reducible exact keeps_putDrain h
        · with_reducible exact keeps_refreshSlots (keeps_count (keeps_endDrain h))

theorem keeps_resumeDrain {s t : State}  (h : Keeps s t) : Keeps s (resumeDrain t) := by
  unfold resumeDrain
  try dsimp only
  split
  · split
    · with_reducible exact keeps_drainBarrier h
    · with_reducible exact h
  · with_reducible exact h

theorem keeps_drainFlash {s t : State}  (h : Keeps s t) : Keeps s (drainFlash t) := by
  unfold drainFlash
  try dsimp only
  split
  · with_reducible exact h
  · split
    · with_reducible exact keeps_drainNext (keeps_resumeDrain h)
    · with_reducible exact keeps_drainNext (keeps_putDrain (keeps_issueOut (keeps_drainNext (keeps_resumeDrain h))))

theorem keeps_voidTarget {s t : State}  (h : Keeps s t) : Keeps s (voidTarget t) := by
  unfold voidTarget
  try dsimp only
  split
  · split
    · with_reducible exact h
    · with_reducible exact keeps_flashWrite h
  · with_reducible exact h

theorem keeps_drainFailed {s t : State}  (h : Keeps s t) : Keeps s (drainFailed t) := by
  unfold drainFailed
  try dsimp only
  split
  · split
    · with_reducible exact h
    · with_reducible exact keeps_refreshSlots (keeps_endDrain (keeps_count (keeps_voidTarget h)))
  · with_reducible exact h

theorem keeps_drainAfterCopy {s t : State}  (h : Keeps s t) : Keeps s (drainAfterCopy t) := by
  unfold drainAfterCopy
  try dsimp only
  split
  · split
    · with_reducible exact keeps_beginDrain h
    · with_reducible exact h
  · with_reducible exact h

theorem keeps_stopCopy {s t : State} {c : PondCopy} {r : Result} (h : Keeps s t) : Keeps s (stopCopy c r t) := by
  unfold stopCopy
  try dsimp only
  split
  · with_reducible exact keeps_complete (keeps_mk h)
  · with_reducible exact keeps_mk h

theorem keeps_closeCopy {s t : State} {c : PondCopy} {done : Bool} (h : Keeps s t) : Keeps s (closeCopy c done t) := by
  unfold closeCopy
  try dsimp only
  split
  · with_reducible exact h
  · with_reducible refine keeps_drainAfterCopy ?_
    split
    · with_reducible exact keeps_mk h
    · with_reducible exact keeps_stopCopy h

theorem keeps_endCopy {s t : State}  (h : Keeps s t) : Keeps s (endCopy t) := by
  unfold endCopy
  try dsimp only
  split
  · with_reducible exact h
  · split
    · split
      · with_reducible exact h
      · with_reducible exact keeps_stopCopy h
    · split
      · with_reducible exact h
      · split
        · with_reducible exact h
        · with_reducible exact keeps_closeCopy (keeps_finishCopy h)

theorem keeps_continueCopy {s t : State} {n : Nat} (h : Keeps s t) : Keeps s (continueCopy n t).2 := by
  unfold continueCopy
  try dsimp only
  with_reducible exact keeps_endCopy (keeps_copyChunks h)

theorem keeps_copyAll {s t : State}  (h : Keeps s t) : Keeps s (copyAll t) := by
  unfold copyAll
  try dsimp only
  with_reducible exact keeps_continueCopy h

theorem keeps_pokeCopy {s t : State}  (h : Keeps s t) : Keeps s (pokeCopy t) := by
  unfold pokeCopy
  try dsimp only
  split
  · split
    · with_reducible exact keeps_copyAll h
    · with_reducible exact h
  · with_reducible exact h

theorem keeps_endStream {s t : State} {x : Stream} {d : Desc} {r : Result} (h : Keeps s t) : Keeps s (endStream x d r t) := by
  unfold endStream
  try dsimp only
  with_reducible exact keeps_refreshSlots (keeps_complete (keeps_mk h))

theorem keeps_putReady {s t : State} {a : Nat} {v : Nat} (h : Keeps s t) : Keeps s (putReady a v t) := by
  unfold putReady
  try dsimp only
  split
  · with_reducible exact keeps_mergeWrite h
  · with_reducible exact keeps_hbmPut h

theorem keeps_streamDone {s t : State} {x : Stream} {d : Desc} (h : Keeps s t) : Keeps s (streamDone x d t) := by
  unfold streamDone
  try dsimp only
  split
  · with_reducible exact keeps_endStream (keeps_putReady h)
  · with_reducible exact keeps_endStream (keeps_count (keeps_regPut (keeps_putReady h)))

theorem keeps_streamChunks {s t : State} {x0 : Nat} (h : Keeps s t) : Keeps s (streamChunks x0 t).2 := by
  induction x0 generalizing t with
  | zero =>
    unfold streamChunks
    try dsimp only
    with_reducible exact h
  | succ n ih =>
    unfold streamChunks
    try dsimp only
    split
    · with_reducible exact h
    · split
      · with_reducible exact ih (keeps_mk h)
      · split
        · with_reducible exact ih (keeps_endStream h)
        · split
          · with_reducible exact ih (keeps_endStream h)
          · split
            · with_reducible exact h
            · split
              · with_reducible exact ih (keeps_mk (keeps_charge (keeps_wideAdd (keeps_hbmPut h))))
              · with_reducible exact ih (keeps_streamDone (keeps_charge (keeps_wideAdd (keeps_hbmPut h))))

theorem keeps_readSource {s t : State} {x : Source} {lo : Nat} {n : Nat} (h : Keeps s t) : Keeps s (readSource x lo n t).2 := by
  unfold readSource
  try dsimp only
  split
  · with_reducible exact h
  · split
    · split
      · with_reducible exact h
      · split
        · with_reducible exact h
        · split
          · split
            · split
              · with_reducible exact h
              · split
                · simp only
                  with_reducible exact keeps_readSpan h
                · simp only
                  with_reducible exact keeps_escalateAll (keeps_readSpan h)
            · split
              · with_reducible exact h
              · split
                · simp only
                  with_reducible exact keeps_readSpan h
                · simp only
                  with_reducible exact keeps_escalateAll (keeps_readSpan h)
          · split
            · split
              · split
                · with_reducible exact h
                · split
                  · simp only
                    with_reducible exact keeps_readSpan h
                  · simp only
                    with_reducible exact keeps_escalateAll (keeps_readSpan h)
              · split
                · with_reducible exact h
                · split
                  · simp only
                    with_reducible exact keeps_readSpan h
                  · simp only
                    with_reducible exact keeps_escalateAll (keeps_readSpan h)
            · simp only
              split
              · split
                · with_reducible exact h
                · split
                  · simp only
                    with_reducible exact keeps_readSpan h
                  · simp only
                    with_reducible exact keeps_escalateAll (keeps_readSpan h)
              · split
                · with_reducible exact h
                · split
                  · simp only
                    with_reducible exact keeps_readSpan h
                  · simp only
                    with_reducible exact keeps_escalateAll (keeps_readSpan h)
    · split
      · split
        · split <;> exact h
        · with_reducible exact h
      · with_reducible exact h

theorem keeps_sendRestore {s t : State} {dst : Coord} {r : RestoreRec} (h : Keeps s t) : Keeps s (sendRestore dst r t) := by
  unfold sendRestore
  try dsimp only
  with_reducible exact keeps_sendStore h

theorem keeps_sendVerdictRec {s t : State} {r : RestoreRec} (h : Keeps s t) : Keeps s (sendVerdictRec r t) := by
  unfold sendVerdictRec
  try dsimp only
  with_reducible exact keeps_send h

theorem keeps_scramble {s t : State} {a n : Nat} (h : Keeps s t) : Keeps s (scramble a n t) :=
  keeps_foldl (fun _ _ hu => keeps_mem hu id (writeBytes_wf _ _) id id)
    (keeps_mem (keeps_takeFree (keeps_takeFree h)) (writeBytes_wf _ _) id id id)

theorem keeps_applyRestored {s t : State} {p : Plan} {step : Nat} {slices : List (Nat × Nat × Nat)} {rebuild : Bool} (h : Keeps s t) : Keeps s
    (applyRestored p step slices rebuild t) := by
  unfold applyRestored
  try dsimp only
  split
  · split
    · with_reducible exact keeps_basinEvent (keeps_mk (keeps_foldl (fun _ _ k5 => keeps_makeAbsent (keeps_setWhole k5)) (keeps_mk
        (keeps_mergeWrite (keeps_mergeWrite h)))))
    · with_reducible exact keeps_mk (keeps_foldl (fun _ _ k4 => keeps_makeAbsent (keeps_setWhole k4)) (keeps_mk (keeps_mergeWrite
        (keeps_mergeWrite h))))
  · split
    · with_reducible exact keeps_basinEvent (keeps_mk (keeps_foldl (fun _ _ k5 => keeps_makeAbsent (keeps_setWhole k5)) (keeps_mk
        (keeps_mergeWrite (keeps_mergeWrite h)))))
    · with_reducible exact keeps_mk (keeps_foldl (fun _ _ k4 => keeps_makeAbsent (keeps_setWhole k4)) (keeps_mk (keeps_mergeWrite
        (keeps_mergeWrite h))))

theorem keeps_endRestore {s t : State} {status : Nat} {stage : Nat} {undef : Bool} (h : Keeps s t) : Keeps s (endRestore status stage undef t) := by
  unfold endRestore
  try dsimp only
  split
  · with_reducible refine keeps_complete (keeps_refreshSlots (keeps_mk ?_))
    split
    · with_reducible exact keeps_mk (keeps_scramble h)
    · with_reducible exact h
  · with_reducible refine keeps_refreshSlots (keeps_mk ?_)
    split
    · with_reducible exact keeps_mk (keeps_scramble h)
    · with_reducible exact h

theorem keeps_takeBytes {s t : State} {c : Nat} {lo : Nat} {bs : Bytes} {from_ : Coord} (h : Keeps s t) : Keeps s (takeBytes c lo bs from_ t) := by
  unfold takeBytes
  try dsimp only
  split
  · with_reducible exact h
  · with_reducible exact keeps_mk h

theorem keeps_finishChunk {s t : State} {c : Nat} (h : Keeps s t) : Keeps s (finishChunk c t) := by
  unfold finishChunk
  try dsimp only
  split
  · with_reducible exact h
  · split
    · with_reducible exact h
    · split
      · with_reducible exact keeps_mk h
      · with_reducible exact keeps_mk (keeps_writePlotChunk (keeps_mk h))

theorem keeps_sendCredits {s t : State}  (h : Keeps s t) : Keeps s (sendCredits t) := by
  unfold sendCredits
  try dsimp only
  split
  · with_reducible exact h
  · split
    · with_reducible exact keeps_mk (keeps_foldl (fun _ _ k4 => keeps_sendRestore k4) h)
    · with_reducible exact h

theorem keeps_pushSpan {s t : State} {dst : Coord} {c : Nat} {lo : Nat} {bs : Bytes} (h : Keeps s t) : Keeps s (pushSpan dst c lo bs t) := by
  unfold pushSpan
  try dsimp only
  with_reducible exact keeps_mk (keeps_pushBytes h)

theorem keeps_putPiece {s t : State} {p : Piece} {q : Piece} (h : Keeps s t) : Keeps s (putPiece p q t) := by
  unfold putPiece
  try dsimp only
  with_reducible exact keeps_mk h

theorem keeps_withdraw {s t : State} {p : Piece} (h : Keeps s t) : Keeps s (withdraw p t) := by
  unfold withdraw
  try dsimp only
  with_reducible exact keeps_sendRestore (keeps_putPiece h)

theorem keeps_pushPiece {s t : State} {x0 : Nat} {x1 : Piece} (h : Keeps s t) : Keeps s (pushPiece x0 x1 t) := by
  induction x0 generalizing t x1 with
  | zero =>
    unfold pushPiece
    try dsimp only
    with_reducible exact h
  | succ n ih =>
    unfold pushPiece
    try dsimp only
    split
    · with_reducible exact h
    · split
      · with_reducible exact h
      · split
        · with_reducible exact keeps_putPiece h
        · split
          · with_reducible exact h
          · split
            · with_reducible exact keeps_withdraw (keeps_readSource h)
            · with_reducible exact ih (keeps_putPiece (keeps_pushSpan (keeps_readSource h)))

theorem keeps_pushAll {s t : State}  (h : Keeps s t) : Keeps s (pushAll t) := by
  unfold pushAll
  try dsimp only
  with_reducible exact keeps_foldl (fun _ _ k1 => keeps_pushPiece k1) h

theorem keeps_fallBack {s t : State} {fuel : Nat} {p : Piece} (h : Keeps s t) : Keeps s (fallBack fuel p t) := by
  induction fuel generalizing t p with
  | zero =>
    unfold fallBack
    try dsimp only
    with_reducible exact h
  | succ n ih =>
    unfold fallBack
    try dsimp only
    split
    · with_reducible exact keeps_putPiece (keeps_mk h)
    · split
      · split
        · with_reducible exact ih (keeps_readSource (keeps_count (keeps_putPiece h)))
        · with_reducible exact keeps_foldl (fun _ _ k4 => keeps_finishChunk (keeps_takeBytes k4)) (keeps_readSource (keeps_count (keeps_putPiece h)))
      · with_reducible refine keeps_sendRestore ?_
        split
        · with_reducible exact keeps_count (keeps_putPiece h)
        · with_reducible exact keeps_sendRestore (keeps_count (keeps_putPiece h))

theorem keeps_moveLocal {s t : State} {p : Piece} (h : Keeps s t) : Keeps s (moveLocal p t) := by
  unfold moveLocal
  try dsimp only
  split
  · with_reducible exact h
  · split
    · with_reducible exact keeps_fallBack (keeps_readSource h)
    · with_reducible exact keeps_foldl (fun _ _ k3 => keeps_takeBytes k3) (keeps_readSource h)

theorem keeps_applyDone {s t : State} {status : Nat} (h : Keeps s t) : Keeps s (applyDone status t) := by
  unfold applyDone
  try dsimp only
  split
  · with_reducible exact h
  · split
    · split
      · with_reducible refine keeps_endRestore ?_
        split
        · with_reducible exact h
        · with_reducible exact keeps_applyRestored h
      · with_reducible exact keeps_endRestore h
    · with_reducible exact keeps_endRestore h

theorem keeps_pumpDone {s t : State} {force : Bool} (h : Keeps s t) : Keeps s (pumpDone force t) := by
  unfold pumpDone
  try dsimp only
  split
  · with_reducible exact h
  · split
    · with_reducible exact h
    · split
      · with_reducible exact keeps_sendRestore (keeps_mk h)
      · split
        · with_reducible exact keeps_applyDone (keeps_sendVerdictRec (keeps_mk h))
        · with_reducible exact h

theorem keeps_pumpMove {s t : State}  (h : Keeps s t) : Keeps s (pumpMove t) := by
  unfold pumpMove
  try dsimp only
  split
  · with_reducible exact h
  · with_reducible exact keeps_pumpDone (keeps_pushAll (keeps_sendCredits h))

theorem keeps_applyChoice {s t : State} {v : RestoreRec} (h : Keeps s t) : Keeps s (applyChoice v t) := by
  unfold applyChoice
  try dsimp only
  split
  · with_reducible exact keeps_endRestore (keeps_mk h)
  · split
    · with_reducible exact keeps_endRestore (keeps_mk h)
    · with_reducible exact keeps_pumpMove (keeps_foldl (fun _ _ k4 => keeps_finishChunk k4) (keeps_foldl (fun _ _ k5 => keeps_moveLocal k5)
        (keeps_mk h)))

theorem keeps_pumpChoice {s t : State} {force : Bool} (h : Keeps s t) : Keeps s (pumpChoice force t) := by
  unfold pumpChoice
  try dsimp only
  split
  · with_reducible exact h
  · split
    · with_reducible exact h
    · split
      · with_reducible exact keeps_sendRestore (keeps_mk h)
      · split
        · with_reducible exact keeps_applyChoice (keeps_sendVerdictRec (keeps_mk h))
        · with_reducible exact h

theorem keeps_putStaged {s t : State} {l : List Nat} (h : Keeps s t) : Keeps s (putStaged l t) := by
  unfold putStaged
  try dsimp only
  with_reducible exact keeps_regPut (keeps_mk h)

theorem keeps_refreshCfg {s t : State}  (h : Keeps s t) : Keeps s (refreshCfg t) := by
  unfold refreshCfg
  try dsimp only
  with_reducible exact keeps_regPut h

theorem keeps_markStaged {s t : State} {off : Nat} {byMap : Bool} (h : Keeps s t) : Keeps s (markStaged off byMap t) := by
  unfold markStaged
  try dsimp only
  with_reducible exact keeps_refreshCfg (keeps_putStaged (keeps_mk h))

theorem keeps_stageOne {s t : State} {off : Nat} {v : Word} {byMap : Bool} (h : Keeps s t) : Keeps s (stageOne off v byMap t) := by
  unfold stageOne
  try dsimp only
  with_reducible exact keeps_markStaged (keeps_regSet h)

theorem keeps_stage {s t : State} {off : Nat} {v : Word} {byMap : Bool} (h : Keeps s t) : Keeps s (stage off v byMap t) := by
  unfold stage
  try dsimp only
  split
  · with_reducible exact keeps_markStaged (keeps_mk h)
  · split
    · split
      · with_reducible exact keeps_stageOne (keeps_stageOne (keeps_mk h))
      · with_reducible exact keeps_stageOne h
    · with_reducible exact keeps_stageOne h

theorem keeps_discardStaged {s t : State}  (h : Keeps s t) : Keeps s (discardStaged t) := by
  unfold discardStaged
  try dsimp only
  with_reducible exact keeps_putStaged (keeps_foldl (fun _ _ k2 => keeps_regSet k2) (keeps_mk h))

theorem keeps_dropPlan {s t : State} {standby : Bool} {cause : Nat} {p : Plan} (h : Keeps s t) : Keeps s (dropPlan standby cause p t) := by
  unfold dropPlan
  try dsimp only
  with_reducible refine keeps_planLostEvent ?_
  split <;> exact keeps_mk h

theorem keeps_reauditPlans {s t : State}  (h : Keeps s t) : Keeps s (reauditPlans t) := by
  unfold reauditPlans
  try dsimp only
  split
  · split
    · split
      · split
        · with_reducible exact h
        · with_reducible exact keeps_dropPlan h
      · split
        · with_reducible exact keeps_dropPlan h
        · with_reducible exact keeps_dropPlan (keeps_dropPlan h)
    · split
      · with_reducible exact h
      · with_reducible exact keeps_dropPlan h
  · split
    · split
      · with_reducible exact h
      · with_reducible exact keeps_dropPlan h
    · with_reducible exact h

theorem keeps_allAbsent {s t : State}  (h : Keeps s t) : Keeps s (allAbsent t) := by
  unfold allAbsent
  try dsimp only
  with_reducible exact keeps_mk h

theorem keeps_endRepairs {s t : State}  (h : Keeps s t) : Keeps s (endRepairs t) := by
  unfold endRepairs
  try dsimp only
  with_reducible exact keeps_finishRanges (keeps_mk (keeps_foldl (fun _ _ k3 => keeps_noteRange k3) h))

theorem keeps_refuseWaiting {s t : State} {q : Fin 16} (h : Keeps s t) : Keeps s (refuseWaiting q t) := by
  unfold refuseWaiting
  try dsimp only
  with_reducible exact keeps_foldl (fun _ _ k1 => keeps_complete k1) (keeps_setRing h)

theorem keeps_dropPondWork {s t : State}  (h : Keeps s t) : Keeps s (dropPondWork t) := by
  unfold dropPondWork
  try dsimp only
  split
  · split
    · with_reducible refine keeps_endDrain ?_
      split
      · with_reducible exact h
      · split
        · with_reducible exact keeps_mk h
        · split
          · with_reducible exact keeps_complete (keeps_mk h)
          · with_reducible exact keeps_mk h
    · split
      · with_reducible exact h
      · split
        · with_reducible exact keeps_mk h
        · split
          · with_reducible exact keeps_complete (keeps_mk h)
          · with_reducible exact keeps_mk h
  · split
    · with_reducible exact h
    · split
      · with_reducible exact keeps_mk h
      · split
        · with_reducible exact keeps_complete (keeps_mk h)
        · with_reducible exact keeps_mk h

theorem keeps_teardown {s t : State} {oldTag : Nat} (h : Keeps s t) : Keeps s (teardown oldTag t) := by
  unfold teardown
  try dsimp only
  with_reducible refine keeps_allAbsent (keeps_mk ?_)
  split
  · with_reducible refine keeps_foldl (fun _ _ k4 => keeps_refuseWaiting k4) (keeps_endRepairs ?_)
    split
    · with_reducible exact keeps_endRestore (keeps_dropPondWork (keeps_widePut (keeps_regPut h)))
    · with_reducible exact keeps_dropPondWork (keeps_widePut (keeps_regPut h))
  · with_reducible refine keeps_endRepairs ?_
    split
    · with_reducible exact keeps_endRestore (keeps_dropPondWork (keeps_widePut (keeps_regPut h)))
    · with_reducible exact keeps_dropPondWork (keeps_widePut (keeps_regPut h))

theorem keeps_zeroManifests {s t : State}  (h : Keeps s t) : Keeps s (zeroManifests t) := by
  unfold zeroManifests
  try dsimp only
  with_reducible exact keeps_foldl (fun _ _ k1 => keeps_flashWrite k1) h

theorem keeps_applySnap {s t : State}  (h : Keeps s t) : Keeps s (applySnap t) := by
  unfold applySnap
  try dsimp only
  split
  · with_reducible exact keeps_issueBarrier (keeps_flashWrite (keeps_zeroManifests (keeps_regPut (keeps_regPut (keeps_zeroManifests h)))))
  · with_reducible exact keeps_regPut (keeps_regPut h)

theorem keeps_commitFailed {s t : State} {f : Failure} {byMode : Bool} (h : Keeps s t) : Keeps s (commitFailed f byMode t) := by
  unfold commitFailed
  try dsimp only
  with_reducible exact keeps_event (keeps_flagEvent (keeps_count (keeps_refreshCfg (keeps_regPut (keeps_regPut h)))))

theorem keeps_applyCommit {s t : State} {byMode : Bool} (h : Keeps s t) : Keeps s (applyCommit byMode t).2 := by
  unfold applyCommit
  try dsimp only
  split
  · simp only
    with_reducible exact keeps_commitFailed (keeps_mk h)
  · simp only
    split
    · split
      · split
        · with_reducible exact keeps_refreshSlots (keeps_reauditPlans (keeps_teardown (keeps_mk (keeps_refreshCfg (keeps_regPut (keeps_count
            (keeps_widePut (keeps_putStaged (keeps_applySnap (keeps_mk (keeps_foldl (fun _ _ k17 => keeps_regSet k17) (keeps_mk
            h))))))))))))
        · with_reducible exact keeps_refreshSlots (keeps_teardown (keeps_mk (keeps_refreshCfg (keeps_regPut (keeps_count (keeps_widePut
            (keeps_putStaged (keeps_applySnap (keeps_mk (keeps_foldl (fun _ _ k16 => keeps_regSet k16) (keeps_mk h)))))))))))
      · split
        · with_reducible exact keeps_refreshSlots (keeps_reauditPlans (keeps_teardown (keeps_refreshCfg (keeps_regPut (keeps_count (keeps_widePut
            (keeps_putStaged (keeps_applySnap (keeps_mk (keeps_foldl (fun _ _ k16 => keeps_regSet k16) (keeps_mk h)))))))))))
        · with_reducible exact keeps_refreshSlots (keeps_teardown (keeps_refreshCfg (keeps_regPut (keeps_count (keeps_widePut (keeps_putStaged
            (keeps_applySnap (keeps_mk (keeps_foldl (fun _ _ k15 => keeps_regSet k15) (keeps_mk h))))))))))
    · split
      · split
        · with_reducible exact keeps_refreshSlots (keeps_reauditPlans (keeps_mk (keeps_refreshCfg (keeps_regPut (keeps_count (keeps_widePut
            (keeps_putStaged (keeps_applySnap (keeps_mk (keeps_foldl (fun _ _ k16 => keeps_regSet k16) (keeps_mk h)))))))))))
        · with_reducible exact keeps_refreshSlots (keeps_mk (keeps_refreshCfg (keeps_regPut (keeps_count (keeps_widePut (keeps_putStaged
            (keeps_applySnap (keeps_mk (keeps_foldl (fun _ _ k15 => keeps_regSet k15) (keeps_mk h))))))))))
      · split
        · with_reducible exact keeps_refreshSlots (keeps_reauditPlans (keeps_refreshCfg (keeps_regPut (keeps_count (keeps_widePut (keeps_putStaged
            (keeps_applySnap (keeps_mk (keeps_foldl (fun _ _ k15 => keeps_regSet k15) (keeps_mk h))))))))))
        · with_reducible exact keeps_refreshSlots (keeps_refreshCfg (keeps_regPut (keeps_count (keeps_widePut (keeps_putStaged (keeps_applySnap
            (keeps_mk (keeps_foldl (fun _ _ k14 => keeps_regSet k14) (keeps_mk h)))))))))

theorem keeps_applyPending {s t : State}  (h : Keeps s t) : Keeps s (applyPending t) := by
  unfold applyPending
  try dsimp only
  split
  · with_reducible exact keeps_applyCommit h
  · with_reducible exact h

theorem keeps_requestCommit {s t : State}  (h : Keeps s t) : Keeps s (requestCommit t) := by
  unfold requestCommit
  try dsimp only
  split
  · with_reducible exact keeps_applyPending (keeps_refreshCfg (keeps_mk h))
  · with_reducible exact keeps_refreshCfg (keeps_mk h)

theorem keeps_sendTree {s t : State} {t' : Nat} {window : Nat} {offset : Nat} {payload : Payload} (h : Keeps s t) : Keeps s (sendTree t' window
    offset payload t) := by
  unfold sendTree
  try dsimp only
  with_reducible exact keeps_send h

theorem keeps_sendFrame {s t : State} {dst : Coord} {k : RKey} {i : RInfo} {q : Nat} {fault : Bool} {a : FrameAcc} (h : Keeps s t) : Keeps s
    (sendFrame dst k i q fault a t) := by
  unfold sendFrame
  try dsimp only
  split <;> exact keeps_sendPartial h

theorem keeps_updReach {s t : State} {k : RKey} {f : Reach → Reach} (h : Keeps s t) : Keeps s (updReach k f t) := by
  unfold updReach
  try dsimp only
  with_reducible exact keeps_mk h

theorem keeps_addInto {s t : State} {k : RKey} {f : Nat} {n : Nat} {kid : Option Nat} {lanes : List Lane} {exps : List Int} (h : Keeps s t) : Keeps
    s (addInto k f n kid lanes exps t) := by
  unfold addInto
  try dsimp only
  split
  · with_reducible exact h
  · split
    · with_reducible exact keeps_updReach h
    · with_reducible exact keeps_count (keeps_updReach h)

theorem keeps_newReach {s t : State} {k : RKey} {i : RInfo} (h : Keeps s t) : Keeps s (newReach k i t) := by
  unfold newReach
  try dsimp only
  split
  · with_reducible exact h
  · with_reducible exact keeps_mk h

theorem keeps_updResult {s t : State} {k : RKey} {f : ReachResult → ReachResult} (h : Keeps s t) : Keeps s (updResult k f t) := by
  unfold updResult
  try dsimp only
  with_reducible refine keeps_mk ?_
  split
  · with_reducible exact h
  · with_reducible exact keeps_mk h

theorem keeps_noteResidue {s t : State} {c : Nat} (h : Keeps s t) : Keeps s (noteResidue c t) := by
  unfold noteResidue
  try dsimp only
  with_reducible exact keeps_mk h

theorem keeps_takeExps {s t : State} {k : RKey} {i : RInfo} {f : Nat} {es : List Int} (h : Keeps s t) : Keeps s (takeExps k i f es t) := by
  unfold takeExps
  try dsimp only
  split
  · with_reducible exact h
  · with_reducible refine keeps_foldl ?_ h
    intro _ _ k2
    split
    · with_reducible exact keeps_mergeWrite (keeps_mk k2)
    · with_reducible exact k2

theorem keeps_convertFrame {s t : State} {k : RKey} {i : RInfo} {f : Nat} {n : Nat} {fault : Bool} {ls : List Lane} (h : Keeps s t) : Keeps s
    (convertFrame k i f n fault ls t) := by
  unfold convertFrame
  try dsimp only
  split
  · with_reducible exact h
  · split
    · with_reducible exact h
    · split
      · with_reducible refine keeps_refreshTouch (keeps_putGrad (keeps_mergeWrite ?_))
        split
        · with_reducible refine keeps_updResult (keeps_noteResidue ?_)
          split
          · with_reducible exact h
          · with_reducible exact keeps_count h
        · split
          · with_reducible exact h
          · with_reducible exact keeps_count h
      · with_reducible refine keeps_mergeWrite ?_
        split
        · with_reducible refine keeps_updResult (keeps_noteResidue ?_)
          split
          · with_reducible exact h
          · with_reducible exact keeps_count h
        · split
          · with_reducible exact h
          · with_reducible exact keeps_count h

theorem keeps_takeResult {s t : State} {k : RKey} {i : RInfo} {f : Nat} {n : Nat} {fault : Bool} {ls : List Lane} {es : List Int} (h : Keeps s t) :
    Keeps s (takeResult k i f n fault ls es t) := by
  unfold takeResult
  try dsimp only
  with_reducible refine keeps_updResult ?_
  split
  · with_reducible exact keeps_takeExps h
  · with_reducible exact keeps_convertFrame h

theorem keeps_takeRecord {s t : State} {k : RKey} {i : RInfo} {rec : ResultRec} {fault : Bool} (h : Keeps s t) : Keeps s (takeRecord k i rec fault
    t) := by
  unfold takeRecord
  try dsimp only
  with_reducible refine keeps_updResult ?_
  split
  · with_reducible refine keeps_mk ?_
    split
    · split
      · split
        · with_reducible exact keeps_noteResidue h
        · with_reducible exact keeps_mk (keeps_noteResidue h)
      · with_reducible exact keeps_noteResidue h
    · split
      · split
        · with_reducible exact h
        · with_reducible exact keeps_mk h
      · with_reducible exact h
  · split
    · split
      · split
        · with_reducible exact keeps_noteResidue h
        · with_reducible exact keeps_mk (keeps_noteResidue h)
      · with_reducible exact keeps_noteResidue h
    · split
      · split
        · with_reducible exact h
        · with_reducible exact keeps_mk h
      · with_reducible exact h

theorem keeps_sendResult {s t : State} {k : RKey} {i : RInfo} {fault : Bool} {rec : ResultRec} (h : Keeps s t) : Keeps s (sendResult k i fault rec
    t) := by
  unfold sendResult
  try dsimp only
  with_reducible exact keeps_takeRecord (keeps_sendTree h)

theorem keeps_settleReach {s t : State} {force : Bool} {k : RKey} {i : RInfo} (h : Keeps s t) : Keeps s (settleReach force k i t) := by
  unfold settleReach
  try dsimp only
  split
  · with_reducible exact h
  · split
    · split
      · with_reducible exact h
      · with_reducible exact keeps_sendResult (keeps_count (keeps_count (keeps_count h)))
    · split
      · with_reducible exact h
      · with_reducible exact keeps_sendResult (keeps_count (keeps_count (keeps_count (keeps_mk h))))

theorem keeps_rootClose {s t : State} {k : RKey} {i : RInfo} {r : Reach} (h : Keeps s t) : Keeps s (rootClose k i r t) := by
  unfold rootClose
  try dsimp only
  with_reducible exact keeps_settleReach (keeps_foldl (fun _ _ k2 => keeps_takeResult (keeps_sendTree k2)) h)

theorem keeps_path1Close {s t : State} {k : RKey} {i : RInfo} {r : Reach} (h : Keeps s t) : Keeps s (path1Close k i r t) := by
  unfold path1Close
  try dsimp only
  with_reducible exact keeps_foldl (fun _ _ k1 => keeps_sendPartial k1) h

theorem keeps_retryClose {s t : State} {k : RKey} {i : RInfo} (h : Keeps s t) : Keeps s (retryClose k i t) := by
  unfold retryClose
  try dsimp only
  split
  · split
    · with_reducible exact keeps_sendResult (keeps_foldl (fun _ _ k4 => keeps_takeResult (keeps_sendTree k4)) (keeps_updReach h))
    · with_reducible exact keeps_sendResult (keeps_updReach h)
  · with_reducible exact h

theorem keeps_sendReady {s t : State} {force : Bool} {dst : Coord} {k : RKey} {i : RInfo} {kids : List Nat} {x0 : List FrameAcc} (h : Keeps s t) :
    Keeps s (sendReady force dst k i kids x0 t) := by
  induction x0 generalizing t with
  | nil =>
    unfold sendReady
    try dsimp only
    with_reducible exact h
  | cons y ys ih =>
    unfold sendReady
    try dsimp only
    split
    · with_reducible exact h
    · split
      · with_reducible exact ih h
      · split
        · with_reducible exact ih (keeps_updReach (keeps_sendFrame h))
        · with_reducible exact h

theorem keeps_advanceReach {s t : State} {force : Bool} {k : RKey} (h : Keeps s t) : Keeps s (advanceReach force k t) := by
  unfold advanceReach
  try dsimp only
  split
  · split
    · with_reducible exact h
    · split
      · split
        · split
          · with_reducible exact keeps_count (keeps_updReach h)
          · split
            · with_reducible exact keeps_sendReady (keeps_count (keeps_updReach h))
            · split
              · with_reducible exact keeps_updReach (keeps_sendPartial (keeps_sendReady (keeps_count (keeps_updReach h))))
              · with_reducible exact keeps_sendReady (keeps_count (keeps_updReach h))
        · split
          · with_reducible exact keeps_count (keeps_updReach h)
          · split
            · with_reducible exact keeps_sendReady (keeps_count (keeps_updReach h))
            · split
              · with_reducible exact keeps_updReach (keeps_sendPartial (keeps_sendReady (keeps_count (keeps_updReach h))))
              · with_reducible exact keeps_sendReady (keeps_count (keeps_updReach h))
      · split
        · with_reducible exact keeps_count (keeps_updReach h)
        · split
          · with_reducible exact keeps_count (keeps_updReach h)
          · split
            · with_reducible exact keeps_path1Close (keeps_updReach (keeps_count (keeps_updReach h)))
            · with_reducible exact keeps_rootClose (keeps_updReach (keeps_count (keeps_updReach h)))
  · with_reducible exact h

theorem keeps_openFor {s t : State} {k : RKey} {i : RInfo} (h : Keeps s t) : Keeps s (openFor k i t) := by
  unfold openFor
  try dsimp only
  split
  · with_reducible exact h
  · with_reducible refine keeps_newReach ?_
    split
    · with_reducible exact keeps_advanceReach h
    · split
      · split
        · with_reducible exact keeps_advanceReach h
        · with_reducible exact h
      · with_reducible exact h

theorem keeps_contribute {s t : State} {k : RKey} (h : Keeps s t) : Keeps s (contribute k t) := by
  unfold contribute
  try dsimp only
  split
  · with_reducible exact h
  · split
    · with_reducible exact keeps_openFor h
    · split
      · with_reducible exact keeps_updReach (keeps_openFor h)
      · with_reducible refine keeps_updReach (keeps_foldl ?_ (keeps_openFor h))
        intro _ _ k5
        split
        · with_reducible exact keeps_addInto k5
        · with_reducible refine keeps_addInto ?_
          split
          · with_reducible exact k5
          · with_reducible exact keeps_count (keeps_count k5)

theorem keeps_pumpTurn {s t : State} {i : Nat} {x0 : Nat} (h : Keeps s t) : Keeps s (pumpTurn i x0 t) := by
  induction x0 generalizing t with
  | zero =>
    unfold pumpTurn
    try dsimp only
    with_reducible exact h
  | succ n ih =>
    unfold pumpTurn
    try dsimp only
    split
    · with_reducible exact h
    · split
      · with_reducible exact h
      · split
        · split
          · with_reducible exact h
          · with_reducible exact ih (keeps_mk h)
        · with_reducible refine ih (keeps_advanceReach (keeps_advanceReach ?_))
          split
          · split
            · with_reducible exact keeps_contribute (keeps_mk h)
            · with_reducible exact keeps_contribute (keeps_contribute (keeps_mk h))
          · with_reducible exact keeps_contribute (keeps_mk h)

theorem keeps_retryReach {s t : State} {k : RKey} {i : RInfo} {counted : Bool} (h : Keeps s t) : Keeps s (retryReach k i counted t) := by
  unfold retryReach
  try dsimp only
  with_reducible refine keeps_foldl ?_ (keeps_mk h)
  intro _ _ k1
  with_reducible refine keeps_advanceReach ?_
  split
  · with_reducible exact keeps_contribute k1
  · with_reducible exact keeps_updReach (keeps_openFor k1)

theorem keeps_pumpRetry {s t : State}  (h : Keeps s t) : Keeps s (pumpRetry t) := by
  unfold pumpRetry
  try dsimp only
  split
  · with_reducible exact h
  · with_reducible refine keeps_foldl ?_ h
    intro _ _ k2
    split
    · split
      · with_reducible exact k2
      · with_reducible exact keeps_retryReach k2
    · with_reducible exact k2

theorem keeps_pumpReduction {s t : State}  (h : Keeps s t) : Keeps s (pumpReduction t) := by
  unfold pumpReduction
  try dsimp only
  with_reducible exact keeps_pumpRetry (keeps_foldl (fun _ _ k2 => keeps_pumpTurn k2) (keeps_foldl (fun _ _ k3 => keeps_advanceReach k3) h))

theorem keeps_discardColl {s t : State} {k : RKey} (h : Keeps s t) : Keeps s (discardColl k t) := by
  unfold discardColl
  try dsimp only
  with_reducible exact keeps_mk h

theorem keeps_abortUp {s t : State} {k : RKey} (h : Keeps s t) : Keeps s (abortUp k t) := by
  unfold abortUp
  try dsimp only
  split
  · with_reducible exact h
  · with_reducible refine keeps_discardColl ?_
    split
    · with_reducible exact keeps_sendPartial h
    · split
      · with_reducible exact h
      · split
        · split
          · with_reducible exact keeps_sendTree (keeps_sendPartial h)
          · with_reducible exact keeps_sendPartial h
        · split
          · with_reducible exact keeps_sendTree h
          · with_reducible exact h

theorem keeps_withPacket {s t : State} {p : Prefix} {sender : Coord} {down : Bool} {offset : Nat} {go : RInfo → State → State} (h : Keeps s t) (hgo
    : ∀ y0 u, Keeps s u → Keeps s (go y0 u)) : Keeps s (withPacket p sender down offset go t) := by
  unfold withPacket
  try dsimp only
  split
  · with_reducible exact h
  · split
    · with_reducible exact keeps_count h
    · split
      · with_reducible exact keeps_abortUp (keeps_count h)
      · split
        · split
          · with_reducible exact h
          · with_reducible exact hgo _ _ h
        · with_reducible exact h

theorem keeps_upFrame {s t : State} {p : Prefix} {sender : Coord} {offset : Nat} {lanes : List Lane} {exps : List Int} (h : Keeps s t) : Keeps s
    (upFrame p sender offset lanes exps t) := by
  unfold upFrame
  try dsimp only
  with_reducible refine keeps_withPacket h ?_
  intro _ _ k1
  split
  · with_reducible exact k1
  · split
    · split
      · with_reducible exact keeps_count k1
      · split
        · with_reducible exact k1
        · with_reducible refine keeps_pumpReduction ?_
          split
          · with_reducible exact keeps_updReach (keeps_addInto (keeps_openFor k1))
          · with_reducible exact keeps_addInto (keeps_openFor k1)
    · split
      · with_reducible exact keeps_count k1
      · split
        · with_reducible exact k1
        · with_reducible refine keeps_pumpReduction ?_
          split
          · with_reducible exact keeps_updReach (keeps_addInto (keeps_openFor k1))
          · with_reducible exact keeps_addInto (keeps_openFor k1)

theorem keeps_upRecord {s t : State} {p : Prefix} {sender : Coord} {bitmap : List Nat} (h : Keeps s t) : Keeps s (upRecord p sender bitmap t) := by
  unfold upRecord
  try dsimp only
  with_reducible refine keeps_withPacket h ?_
  intro _ _ k1
  split
  · split
    · with_reducible exact keeps_count k1
    · with_reducible exact keeps_pumpReduction (keeps_updReach (keeps_openFor k1))
  · split
    · with_reducible exact keeps_count k1
    · with_reducible exact keeps_pumpReduction (keeps_updReach (keeps_openFor k1))

theorem keeps_sendChainRec {s t : State} {dst : Coord} {r : ChainRec} (h : Keeps s t) : Keeps s (sendChainRec dst r t) := by
  unfold sendChainRec
  try dsimp only
  with_reducible exact keeps_sendStore h

theorem keeps_requestClosures {s t : State}  (h : Keeps s t) : Keeps s (requestClosures t) := by
  unfold requestClosures
  try dsimp only
  split
  · with_reducible exact h
  · split
    · with_reducible exact h
    · split
      · with_reducible exact keeps_mk h
      · with_reducible refine keeps_foldl ?_ (keeps_mk h)
        intro _ _ k4
        split
        · with_reducible exact keeps_sendChainRec k4
        · with_reducible exact k4

theorem keeps_pushChunk {s t : State} {dst : Coord} {c : Nat} (h : Keeps s t) : Keeps s (pushChunk dst c t) := by
  unfold pushChunk
  try dsimp only
  split
  · with_reducible exact keeps_sendPages (keeps_third (by assumption) (keeps_readChunk h))
  · with_reducible exact keeps_escalateAll (keeps_third (by assumption) (keeps_readChunk h))

theorem keeps_serveClosures {s t : State}  (h : Keeps s t) : Keeps s (serveClosures t) := by
  unfold serveClosures
  try dsimp only
  split
  · with_reducible exact h
  · with_reducible exact keeps_foldl (fun _ _ k2 => keeps_foldl (fun _ _ k4 => keeps_pushChunk k4) k2) (keeps_mk h)

theorem keeps_joinRebuild {s t : State} {positions : List Nat} (h : Keeps s t) : Keeps s (joinRebuild positions t) := by
  unfold joinRebuild
  try dsimp only
  with_reducible exact keeps_mk h

theorem keeps_askLate {s t : State}  (h : Keeps s t) : Keeps s (askLate t) := by
  unfold askLate
  try dsimp only
  with_reducible exact keeps_foldl (fun _ _ k1 => keeps_foldl (fun _ _ k3 => keeps_sendChainRec k3) k1) (keeps_mk h)

theorem keeps_giveUpChain {s t : State} {i : Nat} {j : Nat} (h : Keeps s t) : Keeps s (giveUpChain i j t) := by
  unfold giveUpChain
  try dsimp only
  with_reducible exact keeps_mk h

theorem keeps_addRebuild {s t : State} {i : Nat} {j : Nat} (h : Keeps s t) : Keeps s (addRebuild i j t) := by
  unfold addRebuild
  try dsimp only
  split
  · with_reducible exact h
  · with_reducible exact keeps_mk h

theorem keeps_askRedo {s t : State}  (h : Keeps s t) : Keeps s (askRedo t) := by
  unfold askRedo
  try dsimp only
  with_reducible refine keeps_foldl ?_ (keeps_mk h)
  intro _ _ k1
  split
  · with_reducible exact keeps_addRebuild k1
  · with_reducible exact keeps_sendChainRec k1

theorem keeps_settleRefill {s t : State} {committed : Nat} (h : Keeps s t) : Keeps s (settleRefill committed t) := by
  unfold settleRefill
  try dsimp only
  split
  · with_reducible exact h
  · with_reducible exact keeps_askRedo (keeps_askLate (keeps_mk h))

theorem keeps_stepEvent {s t : State} {status : Nat} {tensor : Nat} {first : Nat} (h : Keeps s t) : Keeps s (stepEvent status tensor first t) := by
  unfold stepEvent
  try dsimp only
  with_reducible exact keeps_event h

theorem keeps_commitStep {s t : State} {commitAt : Nat} {announce : Bool} (h : Keeps s t) : Keeps s (commitStep commitAt announce t) := by
  unfold commitStep
  try dsimp only
  with_reducible refine keeps_startDeferred ?_
  split
  · with_reducible exact keeps_settleRefill (keeps_mk h)
  · with_reducible exact keeps_mk h

theorem keeps_reportIncomplete {s t : State} {first : Nat} (h : Keeps s t) : Keeps s (reportIncomplete first t) := by
  unfold reportIncomplete
  try dsimp only
  with_reducible exact keeps_stepEvent (keeps_flagEvent (keeps_mk h))

theorem keeps_takeVerdict {s t : State} {v : Verdict} (h : Keeps s t) : Keeps s (takeVerdict v t) := by
  unfold takeVerdict
  try dsimp only
  split
  · split
    · with_reducible exact keeps_commitStep h
    · with_reducible exact h
  · split
    · with_reducible exact h
    · split
      · with_reducible exact keeps_commitStep (keeps_mk h)
      · split
        · with_reducible exact h
        · with_reducible exact keeps_reportIncomplete (keeps_mk h)

theorem keeps_sendVerdict {s t : State} {v : Verdict} (h : Keeps s t) : Keeps s (sendVerdict v t) := by
  unfold sendVerdict
  try dsimp only
  with_reducible exact keeps_takeVerdict (keeps_send h)

theorem keeps_sendCommitted {s t : State}  (h : Keeps s t) : Keeps s (sendCommitted t) := by
  unfold sendCommitted
  try dsimp only
  with_reducible exact keeps_mk (keeps_sendVerdict (keeps_mk h))

theorem keeps_sendIncomplete {s t : State}  (h : Keeps s t) : Keeps s (sendIncomplete t) := by
  unfold sendIncomplete
  try dsimp only
  with_reducible exact keeps_sendVerdict (keeps_mk h)

theorem keeps_pumpAgree {s t : State} {force : Bool} (h : Keeps s t) : Keeps s (pumpAgree force t) := by
  unfold pumpAgree
  try dsimp only
  split
  · with_reducible exact h
  · split
    · split
      · with_reducible exact keeps_sendStore (keeps_mk h)
      · with_reducible exact h
    · split
      · with_reducible exact keeps_sendCommitted h
      · with_reducible exact h

theorem keeps_takeContribution {s t : State} {sender : Coord} {k : Contribution} (h : Keeps s t) : Keeps s (takeContribution sender k t) := by
  unfold takeContribution
  try dsimp only
  split
  · with_reducible exact h
  · with_reducible refine keeps_pumpAgree (keeps_mk ?_)
    split
    · split
      · with_reducible exact keeps_send (keeps_mk h)
      · with_reducible exact h
    · split
      · with_reducible exact keeps_send (keeps_mk h)
      · with_reducible exact h

theorem keeps_poke {s t : State}  (h : Keeps s t) : Keeps s (poke t) := by
  unfold poke
  try dsimp only
  with_reducible exact keeps_pumpAgree (keeps_finishRanges (keeps_pokeCopy (keeps_serveClosures (keeps_pokeBasin h))))

theorem keeps_putRun {s t : State} {r : TurnRun} (h : Keeps s t) : Keeps s (putRun r t) := by
  unfold putRun
  try dsimp only
  with_reducible exact keeps_mk h

theorem keeps_turnEvent {s t : State} {status : Nat} {r : TurnRun} (h : Keeps s t) : Keeps s (turnEvent status r t) := by
  unfold turnEvent
  try dsimp only
  with_reducible exact keeps_event h

theorem keeps_dropLease {s t : State}  (h : Keeps s t) : Keeps s (dropLease t) := by
  unfold dropLease
  try dsimp only
  with_reducible refine keeps_mk ?_
  split
  · with_reducible exact keeps_mk h
  · with_reducible exact h

theorem keeps_raiseClaim {s t : State}  (h : Keeps s t) : Keeps s (raiseClaim t) := by
  unfold raiseClaim
  try dsimp only
  with_reducible exact keeps_foldl (fun _ _ k1 => keeps_count k1) (keeps_mk h)

theorem keeps_reportColl {s t : State} {p : Plan} {c : Nat × CollEntry} {f : CollFinding} (h : Keeps s t) : Keeps s (reportColl p c f t) := by
  unfold reportColl
  try dsimp only
  split
  · with_reducible exact h
  · split
    · with_reducible exact keeps_count (keeps_report h)
    · with_reducible exact keeps_event (keeps_report h)

theorem keeps_settlePolicies {s t : State} {p : Plan} (h : Keeps s t) : Keeps s (settlePolicies p t) := by
  unfold settlePolicies
  try dsimp only
  split
  · with_reducible exact keeps_count h
  · with_reducible exact keeps_foldl (fun _ _ k2 => keeps_writeHealth k2) (keeps_count (keeps_count h))

theorem keeps_reportColls {s t : State} {p : Plan} (h : Keeps s t) : Keeps s (reportColls p t) := by
  unfold reportColls
  try dsimp only
  split
  · with_reducible exact h
  · with_reducible exact keeps_foldl (fun _ _ k2 => keeps_reportColl k2) (keeps_mk h)

theorem keeps_failCheck {s t : State}  (h : Keeps s t) : Keeps s (failCheck t) := by
  unfold failCheck
  try dsimp only
  split
  · split
    · with_reducible exact keeps_reportColls (keeps_mk h)
    · with_reducible exact keeps_mk h
  · with_reducible exact keeps_mk h

theorem keeps_settleCheck {s t : State}  (h : Keeps s t) : Keeps s (settleCheck t).2 := by
  unfold settleCheck
  try dsimp only
  split
  · with_reducible exact h
  · split
    · simp only
      with_reducible exact keeps_stepEvent (keeps_mk (keeps_settlePolicies (keeps_reportColls h)))
    · simp only [keeps_mk_iff]
      with_reducible exact keeps_settlePolicies (keeps_reportColls h)

theorem keeps_resyncHolder {s t : State}  (h : Keeps s t) : Keeps s (resyncHolder t) := by
  unfold resyncHolder
  try dsimp only
  with_reducible refine keeps_foldl ?_ h
  intro _ _ k1
  split
  · with_reducible exact k1
  · with_reducible refine keeps_foldl ?_ k1
    intro _ _ k4
    split
    · with_reducible exact keeps_ackPending k4
    · with_reducible exact k4

theorem keeps_resyncMember {s t : State}  (h : Keeps s t) : Keeps s (resyncMember t) := by
  unfold resyncMember
  try dsimp only
  with_reducible exact keeps_foldl (fun _ _ k1 => keeps_sendMarker k1) (keeps_foldl (fun _ _ k2 => keeps_sendMarker (keeps_mk k2)) (keeps_foldl
      (fun _ _ k3 => keeps_sendDelta k3) (keeps_count h)))

theorem keeps_resyncRelay {s t : State}  (h : Keeps s t) : Keeps s (resyncRelay t) := by
  unfold resyncRelay
  try dsimp only
  split
  · with_reducible refine keeps_foldl (fun _ _ k2 => keeps_sendMarker k2) (keeps_foldl ?_ h)
    intro _ _ k3
    split
    · with_reducible exact k3
    · with_reducible exact keeps_foldl (fun _ _ k6 => keeps_sendCombined k6) k3
  · with_reducible refine keeps_foldl ?_ h
    intro _ _ k2
    split
    · with_reducible exact k2
    · with_reducible exact keeps_foldl (fun _ _ k5 => keeps_sendCombined k5) k2

theorem keeps_resync {s t : State}  (h : Keeps s t) : Keeps s (resync t) := by
  unfold resync
  try dsimp only
  split
  · with_reducible exact keeps_mk h
  · split
    · with_reducible exact keeps_resyncRelay (keeps_resyncMember (keeps_resyncHolder (keeps_mk h)))
    · with_reducible exact keeps_resyncMember (keeps_resyncHolder (keeps_mk h))

theorem keeps_mirrorWork {s t : State} {inputs : Bytes} (h : Keeps s t) : Keeps s (mirrorWork inputs t) := by
  unfold mirrorWork
  try dsimp only
  split
  · with_reducible exact h
  · with_reducible exact keeps_pushBytes (keeps_storePages h)

theorem keeps_noScales {s t : State} {p : Plan} {t' : TurnEntry} (h : Keeps s t) : Keeps s (noScales p t' t) := by
  unfold noScales
  try dsimp only
  with_reducible exact keeps_foldl (fun _ _ k1 => keeps_mergeWrite k1) (keeps_mk h)

theorem keeps_reduceWork {s t : State} {i : Nat} {t' : TurnEntry} {out : Bool} (h : Keeps s t) : Keeps s (reduceWork i t' out t) := by
  unfold reduceWork
  try dsimp only
  split
  · with_reducible exact h
  · with_reducible exact keeps_pumpTurn (keeps_mk h)

theorem keeps_updateWork {s t : State}  (h : Keeps s t) : Keeps s (updateWork t) := by
  unfold updateWork
  try dsimp only
  with_reducible refine keeps_poke ?_
  split
  · split
    · with_reducible exact keeps_mk (keeps_requestClosures (keeps_resync h))
    · with_reducible exact keeps_beginUpdate (keeps_mk (keeps_requestClosures (keeps_resync h)))
  · split
    · with_reducible exact keeps_mk h
    · with_reducible exact keeps_beginUpdate (keeps_mk h)

theorem keeps_commitWork {s t : State} {r : TurnRun} (h : Keeps s t) : Keeps s (commitWork r t) := by
  unfold commitWork
  try dsimp only
  with_reducible refine keeps_pumpAgree (keeps_mk ?_)
  split
  · split
    · with_reducible exact keeps_mk h
    · with_reducible exact h
  · split
    · with_reducible exact keeps_mk h
    · with_reducible exact h

theorem keeps_turnCopy {s t : State} {i : Nat} {p : Plan} (h : Keeps s t) : Keeps s (turnCopy i p t) := by
  unfold turnCopy
  try dsimp only
  with_reducible exact keeps_mk h

theorem keeps_pondWork {s t : State} {i : Nat} (h : Keeps s t) : Keeps s (pondWork i t) := by
  unfold pondWork
  try dsimp only
  split
  · with_reducible exact h
  · with_reducible exact keeps_copyAll (keeps_turnCopy (keeps_startCopy h))

theorem keeps_turnWork {s t : State} {r : TurnRun} (h : Keeps s t) : Keeps s (turnWork r t) := by
  unfold turnWork
  try dsimp only
  split
  · with_reducible exact keeps_mirrorWork h
  · split
    · with_reducible exact keeps_reduceWork h
    · split
      · with_reducible exact keeps_pumpRetry h
      · split
        · with_reducible exact keeps_putRun (keeps_settleCheck h)
        · split
          · with_reducible exact keeps_updateWork h
          · split
            · with_reducible exact keeps_commitWork h
            · split
              · with_reducible exact keeps_pondWork h
              · with_reducible exact h

theorem keeps_refuseRun {s t : State} {r : TurnRun} {status : Nat} (h : Keeps s t) : Keeps s (refuseRun r status t) := by
  unfold refuseRun
  try dsimp only
  split
  · with_reducible refine keeps_reduceWork (keeps_turnEvent ?_)
    split
    · split
      · with_reducible exact keeps_count (keeps_putRun h)
      · with_reducible exact keeps_report (keeps_count (keeps_putRun h))
    · split
      · with_reducible exact keeps_count (keeps_putRun h)
      · with_reducible exact keeps_report (keeps_count (keeps_putRun h))
  · split
    · with_reducible refine keeps_failCheck (keeps_turnEvent ?_)
      split
      · split
        · with_reducible exact keeps_count (keeps_putRun h)
        · with_reducible exact keeps_report (keeps_count (keeps_putRun h))
      · split
        · with_reducible exact keeps_count (keeps_putRun h)
        · with_reducible exact keeps_report (keeps_count (keeps_putRun h))
    · split
      · with_reducible refine keeps_reportIncomplete (keeps_turnEvent ?_)
        split
        · with_reducible exact keeps_count (keeps_putRun h)
        · with_reducible exact keeps_report (keeps_count (keeps_putRun h))
      · with_reducible refine keeps_turnEvent ?_
        split
        · with_reducible exact keeps_count (keeps_putRun h)
        · with_reducible exact keeps_report (keeps_count (keeps_putRun h))

theorem keeps_acceptRun {s t : State} {r : TurnRun} (h : Keeps s t) : Keeps s (acceptRun r t) := by
  unfold acceptRun
  try dsimp only
  with_reducible refine keeps_turnWork ?_
  split
  · with_reducible refine keeps_raiseClaim ?_
    split
    · with_reducible exact keeps_mk (keeps_putRun h)
    · with_reducible exact keeps_putRun h
  · split
    · with_reducible exact keeps_mk (keeps_putRun h)
    · with_reducible exact keeps_putRun h

theorem keeps_judgeRun {s t : State} {r : TurnRun} (h : Keeps s t) : Keeps s (judgeRun r t) := by
  unfold judgeRun
  try dsimp only
  split
  · with_reducible exact keeps_refuseRun (keeps_mk h)
  · split
    · with_reducible exact keeps_refuseRun (keeps_mk h)
    · split
      · with_reducible exact keeps_acceptRun (keeps_mk h)
      · with_reducible exact keeps_refuseRun (keeps_mk h)

theorem keeps_turnCome {s t : State} {q : Planned} (h : Keeps s t) : Keeps s (turnCome q t) := by
  unfold turnCome
  try dsimp only
  split
  · split
    · with_reducible exact keeps_noScales h
    · with_reducible exact h
  · with_reducible exact h

theorem keeps_meetTurn {s t : State} {q : Planned} {inputs : Bytes} (h : Keeps s t) : Keeps s (meetTurn q inputs t) := by
  unfold meetTurn
  try dsimp only
  split
  · with_reducible exact h
  · split
    · with_reducible exact keeps_refuseRun (keeps_turnCome (keeps_mk h))
    · split
      · with_reducible exact keeps_judgeRun (keeps_turnCome (keeps_mk h))
      · with_reducible exact keeps_turnCome (keeps_mk h)

theorem keeps_meetUpdate {s t : State} {q : Planned} (h : Keeps s t) : Keeps s (meetUpdate q t) := by
  unfold meetUpdate
  try dsimp only
  split
  · with_reducible refine keeps_meetTurn ?_
    split
    · with_reducible exact keeps_meetTurn h
    · with_reducible exact h
  · split
    · split
      · split
        · with_reducible exact keeps_meetTurn h
        · with_reducible exact keeps_refuseRun (keeps_mk (keeps_meetTurn h))
      · split
        · with_reducible exact h
        · with_reducible exact keeps_refuseRun (keeps_mk h)
    · with_reducible refine keeps_meetTurn ?_
      split
      · with_reducible exact keeps_meetTurn h
      · with_reducible exact h

theorem keeps_setCtl {s t : State} {c : Fin 4} {r : Controller} (h : Keeps s t) : Keeps s (setCtl c r t) := by
  unfold setCtl
  try dsimp only
  with_reducible exact keeps_mk h

theorem keeps_abandonMove {s t : State}  (h : Keeps s t) : Keeps s (abandonMove t) := by
  unfold abandonMove
  try dsimp only
  split
  · split
    · with_reducible exact h
    · with_reducible exact keeps_regPut (keeps_mk h)
  · with_reducible exact h

theorem keeps_fwEvent {s t : State} {status : Nat} {action : Nat} {version : Nat} {check : Nat} {cause : Nat} (h : Keeps s t) : Keeps s (fwEvent
    status action version check cause t) := by
  unfold fwEvent
  try dsimp only
  with_reducible exact keeps_event h

theorem keeps_lapseActivation {s t : State}  (h : Keeps s t) : Keeps s (lapseActivation t) := by
  unfold lapseActivation
  try dsimp only
  split
  · with_reducible exact keeps_fwEvent (keeps_mk h)
  · with_reducible exact h

theorem keeps_beginRestart {s t : State} {cs : List (Fin 4)} (h : Keeps s t) : Keeps s (beginRestart cs t) := by
  unfold beginRestart
  try dsimp only
  with_reducible refine keeps_foldl ?_ (keeps_lapseActivation (keeps_abandonMove h))
  intro _ _ k1
  split
  · with_reducible exact k1
  · with_reducible exact keeps_mk (keeps_count (keeps_setCtl k1))

theorem keeps_trapController {s t : State} {c : Fin 4} {cause : Nat} {addr : Nat} (h : Keeps s t) : Keeps s (trapController c cause addr t) := by
  unfold trapController
  try dsimp only
  with_reducible exact keeps_mk (keeps_beginRestart (keeps_setCtl (keeps_flagEvent (keeps_regPut (keeps_count h)))))

theorem keeps_bufferLost {s t : State} {which : Nat} (h : Keeps s t) : Keeps s (bufferLost which t) := by
  unfold bufferLost
  try dsimp only
  split
  · with_reducible exact keeps_foldl (fun _ _ k2 => keeps_attemptFailed k2) (keeps_mk h)
  · with_reducible exact keeps_mk h

theorem keeps_planLost {s t : State} {which : Nat} (h : Keeps s t) : Keeps s (planLost which t) := by
  unfold planLost
  try dsimp only
  split
  · with_reducible exact keeps_dropPlan h
  · with_reducible exact h

theorem keeps_reachLost {s t : State} {which : Nat} (h : Keeps s t) : Keeps s (reachLost which t) := by
  unfold reachLost
  try dsimp only
  split
  · with_reducible exact keeps_updReach h
  · with_reducible exact h

theorem keeps_undoLost {s t : State} {which : Nat} (h : Keeps s t) : Keeps s (undoLost which t) := by
  unfold undoLost
  try dsimp only
  split
  · with_reducible exact keeps_escalateAll h
  · with_reducible exact h

theorem keeps_chunkLost {s t : State} {which : Nat} (h : Keeps s t) : Keeps s (chunkLost which t) := by
  unfold chunkLost
  try dsimp only
  split
  · with_reducible exact keeps_reportUnrecoverable (keeps_mk h)
  · with_reducible exact h

theorem keeps_sramLost {s t : State} {u' : Upset} (h : Keeps s t) : Keeps s (sramLost u' t) := by
  unfold sramLost
  try dsimp only
  split
  · with_reducible exact keeps_trapController h
  · split
    · with_reducible exact keeps_haltRing h
    · split
      · with_reducible exact keeps_reachLost h
      · split
        · with_reducible exact keeps_bankLost h
        · split
          · with_reducible exact keeps_undoLost h
          · split
            · with_reducible exact keeps_planLost h
            · split
              · with_reducible exact keeps_bufferLost h
              · split
                · with_reducible exact keeps_chunkLost h
                · with_reducible exact h

theorem keeps_applyUpset {s t : State} {u' : Upset} (h : Keeps s t) : Keeps s (applyUpset u' t) := by
  unfold applyUpset
  try dsimp only
  split
  · with_reducible exact h
  · with_reducible exact keeps_count h
  · with_reducible exact keeps_sramLost (keeps_regPut (keeps_count h))

theorem keeps_checkEntry {s t : State}  (h : Keeps s t) : Keeps s (checkEntry t) := by
  unfold checkEntry
  try dsimp only
  split
  · split
    · with_reducible exact keeps_abandonMove h
    · with_reducible exact h
  · with_reducible exact h

theorem keeps_computeStore {s t : State} {a : Nat} {x0 : Bytes} (h : Keeps s t) : Keeps s (computeStore a x0 t) := by
  induction x0 generalizing t a with
  | nil =>
    unfold computeStore
    try dsimp only
    with_reducible exact h
  | cons y ys ih =>
    unfold computeStore
    try dsimp only
    with_reducible refine ih ?_
    split
    · with_reducible exact h
    · with_reducible exact keeps_hbmPut h

theorem keeps_flipByte {s t : State} {a : Nat} {b : Byte} (h : Keeps s t) : Keeps s (flipByte a b t) := by
  unfold flipByte
  split
  · with_reducible exact keeps_mem h (xorInto_wf _ _) id id id
  · with_reducible exact keeps_mem h id (xorInto_wf _ _) id id

theorem keeps_applyEnv {s t : State} {e : Env} (h : Keeps s t) : Keeps s (applyEnv e t) := by
  unfold applyEnv
  try dsimp only
  with_reducible refine keeps_checkEntry ?_
  split
  · with_reducible refine keeps_mk ?_
    split
    · with_reducible exact keeps_foldl (fun _ _ k5 => keeps_flipByte k5) (keeps_mk (keeps_foldl (fun _ _ k7 => keeps_computeStore k7) (keeps_foldl
        (fun _ _ k8 => keeps_hostWrite k8) (keeps_landFixes (keeps_mk h)))))
    · with_reducible exact keeps_foldl (fun _ _ k5 => keeps_applyUpset k5) (keeps_foldl (fun _ _ k6 => keeps_flipByte k6) (keeps_mk (keeps_foldl
        (fun _ _ k8 => keeps_computeStore k8) (keeps_foldl (fun _ _ k9 => keeps_hostWrite k9) (keeps_landFixes (keeps_mk h))))))
  · split
    · with_reducible exact keeps_foldl (fun _ _ k4 => keeps_flipByte k4) (keeps_mk (keeps_foldl (fun _ _ k6 => keeps_computeStore k6) (keeps_foldl
        (fun _ _ k7 => keeps_hostWrite k7) (keeps_landFixes (keeps_mk h)))))
    · with_reducible exact keeps_foldl (fun _ _ k4 => keeps_applyUpset k4) (keeps_foldl (fun _ _ k5 => keeps_flipByte k5) (keeps_mk (keeps_foldl
        (fun _ _ k7 => keeps_computeStore k7) (keeps_foldl (fun _ _ k8 => keeps_hostWrite k8) (keeps_landFixes (keeps_mk h))))))

theorem keeps_wake {s t : State}  (h : Keeps s t) : Keeps s (wake t) := by
  unfold wake
  try dsimp only
  split
  · with_reducible exact keeps_abandonMove h
  · split
    · with_reducible exact keeps_regPut (keeps_mk h)
    · with_reducible exact h

theorem keeps_actOnRequest {s t : State}  (h : Keeps s t) : Keeps s (actOnRequest t) := by
  unfold actOnRequest
  try dsimp only
  split
  · with_reducible exact h
  · split
    · with_reducible exact keeps_mk h
    · with_reducible exact keeps_regPut (keeps_mk h)

theorem keeps_dropPacket {s t : State} {reg : Nat} {cause : Nat} {quad : Nat} (h : Keeps s t) : Keeps s (dropPacket reg cause quad t) := by
  unfold dropPacket
  try dsimp only
  with_reducible exact keeps_regPut (keeps_widePut (keeps_count h))

theorem keeps_dropEvent {s t : State} {get : Job → DropClass} {put : DropClass → Job → Job} {status : Nat} {quad : Nat} (h : Keeps s t) : Keeps s
    (dropEvent get put status quad t) := by
  unfold dropEvent
  try dsimp only
  split
  · with_reducible exact keeps_event (keeps_mk h)
  · with_reducible exact keeps_mk h

theorem keeps_dropClosed {s t : State} {w : Nat} (h : Keeps s t) : Keeps s (dropClosed w t) := by
  unfold dropClosed
  try dsimp only
  split
  · with_reducible exact keeps_count h
  · split <;> exact keeps_count h

theorem keeps_intake {s t : State} {h' : PktHead} {cls : Nat} {window : Nat} {len : Nat} (h : Keeps s t) : Keeps s (intake h' cls window len t).2 :=
    by
  unfold intake
  try dsimp only
  split
  · with_reducible exact h
  · split
    · simp only
      with_reducible exact keeps_dropPacket h
    · split
      · simp only
        with_reducible exact keeps_dropEvent (keeps_dropPacket h)
      · split
        · simp only
          with_reducible exact keeps_dropEvent (keeps_dropPacket h)
        · split
          · simp only
            split
            · with_reducible exact keeps_dropClosed h
            · with_reducible exact keeps_dropPacket h
          · split
            · simp only
              with_reducible exact keeps_dropPacket h
            · split
              · simp only
                with_reducible exact keeps_dropPacket h
              · split
                · simp only
                  with_reducible exact keeps_dropPacket h
                · split
                  · simp only
                    with_reducible exact keeps_dropEvent (keeps_dropPacket h)
                  · simp only
                    split
                    · with_reducible exact keeps_wake h
                    · with_reducible exact h

theorem keeps_receive {s t : State} {h' : PktHead} {cls : Nat} {window : Nat} {len : Nat} {go : State → State} (h : Keeps s t) (hgo : ∀ u, Keeps s u
    → Keeps s (go u)) : Keeps s (receive h' cls window len go t) := by
  unfold receive
  try dsimp only
  split
  · with_reducible exact keeps_intake h
  · split
    · with_reducible exact keeps_count (keeps_intake h)
    · with_reducible exact hgo _ (keeps_intake h)

theorem keeps_switchPlans {s t : State} {n : Nat} (h : Keeps s t) : Keeps s (switchPlans n t) := by
  unfold switchPlans
  try dsimp only
  split
  · split
    · simp only
      split
      · with_reducible exact keeps_mk h
      · split <;> exact keeps_mk h
    · split
      · with_reducible exact keeps_mk h
      · split
        · with_reducible exact keeps_mk h
        · with_reducible exact h
  · split
    · simp only
      split
      · with_reducible exact keeps_mk h
      · split <;> exact keeps_mk h
    · split
      · with_reducible exact keeps_mk h
      · split
        · with_reducible exact keeps_mk h
        · with_reducible exact h
  · split
    · simp only
      split
      · with_reducible exact keeps_mk h
      · split <;> exact keeps_mk h
    · split
      · with_reducible exact keeps_mk h
      · split
        · with_reducible exact keeps_mk h
        · with_reducible exact h

theorem keeps_beginStep {s t : State} {n : Nat} {at_ : Nat} {firstTurn : Nat} (h : Keeps s t) : Keeps s (beginStep n at_ firstTurn t) := by
  unfold beginStep
  try dsimp only
  split
  · split
    · split
      · with_reducible exact keeps_mk (keeps_switchPlans h)
      · with_reducible exact keeps_applyPending (keeps_mk (keeps_switchPlans h))
    · split
      · with_reducible exact keeps_mk (keeps_switchPlans h)
      · with_reducible exact keeps_applyPending (keeps_mk (keeps_switchPlans h))
  · split
    · split
      · with_reducible exact keeps_mk (keeps_switchPlans h)
      · with_reducible exact keeps_applyPending (keeps_mk (keeps_switchPlans h))
    · split
      · with_reducible exact keeps_mk (keeps_switchPlans h)
      · with_reducible exact keeps_applyPending (keeps_mk (keeps_switchPlans h))

theorem keeps_execStepStart {e : Env} (s : State) : KeepsNext s (execStepStart e s) := by
  unfold execStepStart
  try dsimp only
  split
  · with_reducible refine keepsNext_next ?_
    split
    · with_reducible exact keeps_dropLease (keeps_beginStep (keeps_applyEnv (keeps_refl _)))
    · with_reducible exact keeps_applyEnv (keeps_refl _)
  · with_reducible exact keepsNext_next (keeps_applyEnv (keeps_refl _))

theorem keeps_startTurn {s t : State} {k : Nat} {i : Nat} {inputs : Bytes} (h : Keeps s t) : Keeps s (startTurn k i inputs t) := by
  unfold startTurn
  try dsimp only
  split
  · with_reducible exact h
  · split
    · with_reducible exact keeps_applyPending h
    · with_reducible refine keeps_dropLease ?_
      split
      · with_reducible refine keeps_meetUpdate ?_
        split
        · with_reducible exact keeps_mk (keeps_applyPending h)
        · with_reducible exact keeps_applyPending h
      · with_reducible refine keeps_meetTurn ?_
        split
        · with_reducible exact keeps_mk (keeps_applyPending h)
        · with_reducible exact keeps_applyPending h

theorem keeps_execMirrorTurn {e : Env} {i : Nat} {inputs : Bytes} (s : State) : KeepsNext s (execMirrorTurn e i inputs s) := by
  unfold execMirrorTurn
  try dsimp only
  with_reducible exact keepsNext_next (keeps_startTurn (keeps_applyEnv (keeps_refl _)))

theorem keeps_execScaleTurn {e : Env} {i : Nat} (s : State) : KeepsNext s (execScaleTurn e i s) := by
  unfold execScaleTurn
  try dsimp only
  with_reducible exact keepsNext_next (keeps_startTurn (keeps_applyEnv (keeps_refl _)))

theorem keeps_execReduceTurn {e : Env} {i : Nat} (s : State) : KeepsNext s (execReduceTurn e i s) := by
  unfold execReduceTurn
  try dsimp only
  with_reducible exact keepsNext_next (keeps_startTurn (keeps_applyEnv (keeps_refl _)))

theorem keeps_execGapTurn {e : Env} {i : Nat} (s : State) : KeepsNext s (execGapTurn e i s) := by
  unfold execGapTurn
  try dsimp only
  with_reducible exact keepsNext_next (keeps_startTurn (keeps_applyEnv (keeps_refl _)))

theorem keeps_execCheckTurn {e : Env} {i : Nat} (s : State) : KeepsNext s (execCheckTurn e i s) := by
  unfold execCheckTurn
  try dsimp only
  with_reducible exact keepsNext_next (keeps_startTurn (keeps_applyEnv (keeps_refl _)))

theorem keeps_execUpdateTurn {e : Env} {i : Nat} (s : State) : KeepsNext s (execUpdateTurn e i s) := by
  unfold execUpdateTurn
  try dsimp only
  with_reducible exact keepsNext_next (keeps_startTurn (keeps_applyEnv (keeps_refl _)))

theorem keeps_execDeltaTurn {e : Env} {i : Nat} (s : State) : KeepsNext s (execDeltaTurn e i s) := by
  unfold execDeltaTurn
  try dsimp only
  with_reducible exact keepsNext_next (keeps_startTurn (keeps_applyEnv (keeps_refl _)))

theorem keeps_execCommitTurn {e : Env} {i : Nat} (s : State) : KeepsNext s (execCommitTurn e i s) := by
  unfold execCommitTurn
  try dsimp only
  with_reducible exact keepsNext_next (keeps_startTurn (keeps_applyEnv (keeps_refl _)))

theorem keeps_execPondTurn {e : Env} {i : Nat} (s : State) : KeepsNext s (execPondTurn e i s) := by
  unfold execPondTurn
  try dsimp only
  with_reducible exact keepsNext_next (keeps_startTurn (keeps_applyEnv (keeps_refl _)))

theorem keeps_finishRun {s t : State} {r : TurnRun} {energy : Nat} (h : Keeps s t) : Keeps s (finishRun r energy t) := by
  unfold finishRun
  try dsimp only
  with_reducible refine keeps_dropLease ?_
  split
  · split
    · simp only
      split
      · with_reducible exact keeps_turnEvent (keeps_flagEvent (keeps_count (keeps_putRun (keeps_mk h))))
      · with_reducible exact keeps_report (keeps_turnEvent (keeps_flagEvent (keeps_count (keeps_putRun (keeps_mk h)))))
    · split
      · with_reducible exact keeps_turnEvent (keeps_flagEvent (keeps_count (keeps_putRun (keeps_mk h))))
      · with_reducible exact keeps_report (keeps_turnEvent (keeps_flagEvent (keeps_count (keeps_putRun (keeps_mk h)))))
  · split
    · simp only
      split
      · with_reducible exact keeps_putRun (keeps_mk h)
      · with_reducible exact keeps_report (keeps_putRun (keeps_mk h))
    · split
      · with_reducible exact keeps_putRun (keeps_mk h)
      · with_reducible exact keeps_report (keeps_putRun (keeps_mk h))

theorem keeps_execTurnWorkComplete {e : Env} {i : Nat} {energy : Nat} (s : State) : KeepsNext s (execTurnWorkComplete e i energy s) := by
  unfold execTurnWorkComplete
  try dsimp only
  split
  · with_reducible refine keepsNext_next ?_
    split
    · with_reducible exact keeps_actOnRequest (keeps_finishRun (keeps_applyEnv (keeps_refl _)))
    · with_reducible exact keeps_applyEnv (keeps_refl _)
  · with_reducible exact keepsNext_next (keeps_applyEnv (keeps_refl _))

theorem keeps_evalWaiting {s t : State} {r : TurnRun} (h : Keeps s t) : Keeps s (evalWaiting r t) := by
  unfold evalWaiting
  try dsimp only
  split
  · with_reducible exact h
  · split
    · with_reducible exact h
    · split
      · with_reducible exact keeps_refuseRun h
      · with_reducible exact keeps_judgeRun h

theorem keeps_evalTurn {s t : State} {r : TurnRun} (h : Keeps s t) : Keeps s (evalTurn r t) := by
  unfold evalTurn
  try dsimp only
  split
  · with_reducible exact h
  · split
    · with_reducible exact keeps_evalWaiting h
    · split
      · with_reducible exact keeps_evalWaiting h
      · split
        · split
          · with_reducible exact keeps_evalWaiting h
          · split
            · with_reducible exact keeps_refuseRun (keeps_evalWaiting h)
            · with_reducible exact keeps_evalWaiting (keeps_evalWaiting h)
        · with_reducible exact keeps_evalWaiting h

theorem keeps_passTurn {s t : State} {q : Planned} (h : Keeps s t) : Keeps s (passTurn q t) := by
  unfold passTurn
  try dsimp only
  split
  · split
    · with_reducible exact keeps_putRun h
    · with_reducible exact h
  · with_reducible exact h

theorem keeps_evalAll {s t : State}  (h : Keeps s t) : Keeps s (evalAll t) := by
  unfold evalAll
  try dsimp only
  with_reducible exact keeps_foldl (fun _ _ k1 => keeps_evalTurn k1) h

theorem keeps_execTurnPlannedEnd {e : Env} {i : Nat} (s : State) : KeepsNext s (execTurnPlannedEnd e i s) := by
  unfold execTurnPlannedEnd
  try dsimp only
  split
  · with_reducible exact keepsNext_next (keeps_applyEnv (keeps_refl _))
  · split
    · with_reducible exact keepsNext_next (keeps_applyEnv (keeps_refl _))
    · with_reducible refine keepsNext_next (keeps_dropLease ?_)
      split
      · split
        · split
          · simp only
            split
            · with_reducible exact keeps_failCheck (keeps_mk (keeps_passTurn (keeps_evalTurn (keeps_applyEnv (keeps_refl _)))))
            · with_reducible exact keeps_mk (keeps_passTurn (keeps_evalTurn (keeps_applyEnv (keeps_refl _))))
          · split
            · with_reducible exact keeps_failCheck (keeps_passTurn (keeps_evalTurn (keeps_applyEnv (keeps_refl _))))
            · with_reducible exact keeps_passTurn (keeps_evalTurn (keeps_applyEnv (keeps_refl _)))
        · split
          · simp only
            split
            · with_reducible exact keeps_failCheck (keeps_mk (keeps_applyEnv (keeps_refl _)))
            · with_reducible exact keeps_mk (keeps_applyEnv (keeps_refl _))
          · split
            · with_reducible exact keeps_failCheck (keeps_applyEnv (keeps_refl _))
            · with_reducible exact keeps_applyEnv (keeps_refl _)
      · split
        · simp only
          split
          · with_reducible exact keeps_failCheck (keeps_mk (keeps_applyEnv (keeps_refl _)))
          · with_reducible exact keeps_mk (keeps_applyEnv (keeps_refl _))
        · split
          · with_reducible exact keeps_failCheck (keeps_applyEnv (keeps_refl _))
          · with_reducible exact keeps_applyEnv (keeps_refl _)

theorem keeps_lateRun {s t : State} {r : TurnRun} (h : Keeps s t) : Keeps s (lateRun r t) := by
  unfold lateRun
  try dsimp only
  split
  · with_reducible exact keeps_turnEvent (keeps_flagEvent (keeps_count h))
  · with_reducible exact keeps_report (keeps_turnEvent (keeps_flagEvent (keeps_count h)))

theorem keeps_execUpdateWaitTimeout {e : Env} {energy : Nat} (s : State) : KeepsNext s (execUpdateWaitTimeout e energy s) := by
  unfold execUpdateWaitTimeout
  try dsimp only
  split
  · with_reducible exact keepsNext_next (keeps_applyEnv (keeps_refl _))
  · split
    · with_reducible refine keepsNext_next ?_
      split
      · with_reducible exact keeps_finishRun (keeps_mk (keeps_applyEnv (keeps_refl _)))
      · with_reducible exact keeps_lateRun (keeps_mk (keeps_applyEnv (keeps_refl _)))
    · with_reducible exact keepsNext_next (keeps_mk (keeps_applyEnv (keeps_refl _)))

theorem keeps_execLeaseRaise {e : Env} {i : Nat} (s : State) : KeepsNext s (execLeaseRaise e i s) := by
  unfold execLeaseRaise
  try dsimp only
  with_reducible refine keepsNext_next ?_
  split
  · with_reducible exact keeps_mk (keeps_applyEnv (keeps_refl _))
  · with_reducible exact keeps_applyEnv (keeps_refl _)

theorem keeps_execLeaseGrant {e : Env} (s : State) : KeepsNext s (execLeaseGrant e s) := by
  unfold execLeaseGrant
  try dsimp only
  split
  · with_reducible exact keepsNext_next (keeps_applyEnv (keeps_refl _))
  · with_reducible exact keepsNext_next (keeps_dropLease (keeps_evalAll (keeps_mk (keeps_applyEnv (keeps_refl _)))))

theorem keeps_execBreach {e : Env} (s : State) : KeepsNext s (execBreach e s) := by
  unfold execBreach
  try dsimp only
  with_reducible refine keepsNext_next ?_
  split
  · with_reducible exact keeps_flagEvent (keeps_count (keeps_mk (keeps_applyEnv (keeps_refl _))))
  · with_reducible exact keeps_applyEnv (keeps_refl _)

theorem keeps_execLockDrop {e : Env} (s : State) : KeepsNext s (execLockDrop e s) := by
  unfold execLockDrop
  try dsimp only
  split
  · with_reducible exact keepsNext_next (keeps_applyEnv (keeps_refl _))
  · split
    · with_reducible exact keepsNext_next (keeps_mk (keeps_applyEnv (keeps_refl _)))
    · with_reducible refine keepsNext_next ?_
      split
      · with_reducible exact keeps_event (keeps_flagEvent (keeps_count (keeps_mk (keeps_applyEnv (keeps_refl _)))))
      · with_reducible exact keeps_flagEvent (keeps_count (keeps_mk (keeps_applyEnv (keeps_refl _))))

theorem keeps_execLockRegain {e : Env} (s : State) : KeepsNext s (execLockRegain e s) := by
  unfold execLockRegain
  try dsimp only
  split
  · with_reducible exact keepsNext_next (keeps_applyEnv (keeps_refl _))
  · with_reducible refine keepsNext_next ?_
    split
    · with_reducible exact keeps_event (keeps_mk (keeps_applyEnv (keeps_refl _)))
    · with_reducible exact keeps_mk (keeps_applyEnv (keeps_refl _))

theorem keeps_execReplicaSample {e : Env} {chain : Fin 24} {reading : Nat} (s : State) : KeepsNext s (execReplicaSample e chain reading s) := by
  unfold execReplicaSample
  try dsimp only
  split
  · with_reducible exact keepsNext_next (keeps_applyEnv (keeps_refl _))
  · with_reducible exact keepsNext_next (keeps_mk (keeps_applyEnv (keeps_refl _)))

theorem keeps_badAccess {s t : State} {off : Nat} (h : Keeps s t) : Keeps s (badAccess off t) := by
  unfold badAccess
  try dsimp only
  with_reducible exact keeps_regPut (keeps_count h)

theorem keeps_hostWriteTo {s t : State} {off : Nat} {go : State → State} (h : Keeps s t) (hgo : ∀ u, Keeps s u → Keeps s (go u)) : Keeps s
    (hostWriteTo off go t) := by
  unfold hostWriteTo
  try dsimp only
  split
  · with_reducible exact h
  · split
    · with_reducible exact keeps_badAccess h
    · with_reducible exact hgo _ h

theorem keeps_ringWrite {s t : State} {base : Nat} {n : Nat} {off : Nat} {v : Word} (h : Keeps s t) : Keeps s (ringWrite base n off v t) := by
  unfold ringWrite
  try dsimp only
  split
  · split
    · with_reducible exact h
    · with_reducible exact keeps_mk h
  · split
    · split
      · with_reducible exact h
      · with_reducible exact keeps_regSet (keeps_regSet (keeps_mk h))
    · split
      · with_reducible exact h
      · split
        · with_reducible exact keeps_regPut h
        · with_reducible exact keeps_badAccess h

theorem keeps_commitWrite {s t : State} {v : Word} (h : Keeps s t) : Keeps s (commitWrite v t) := by
  unfold commitWrite
  try dsimp only
  split
  · with_reducible exact keeps_count h
  · split
    · with_reducible exact keeps_refreshCfg (keeps_discardStaged h)
    · split
      · with_reducible exact keeps_requestCommit h
      · with_reducible exact h

theorem keeps_plainWrite {s t : State} {off : Nat} {v : Word} (h : Keeps s t) : Keeps s (plainWrite off v t) := by
  unfold plainWrite
  try dsimp only
  split
  · with_reducible exact h
  · split
    · with_reducible exact keeps_commitWrite h
    · split
      · with_reducible exact h
      · split
        · split
          · with_reducible exact h
          · with_reducible exact keeps_badAccess h
        · split
          · with_reducible exact h
          · with_reducible exact h
          · with_reducible exact h
          · with_reducible exact keeps_regSet h
          · with_reducible exact keeps_regPut h
          · split
            · with_reducible exact keeps_ringWrite h
            · split
              · with_reducible exact keeps_regPut h
              · with_reducible exact keeps_badAccess h
          · split
            · with_reducible exact keeps_ringWrite h
            · split
              · with_reducible exact keeps_regPut h
              · with_reducible exact keeps_badAccess h

theorem keeps_execRegisterWrite {e : Env} {off : Nat} {v : Word} (s : State) : KeepsNext s (execRegisterWrite e off v s) := by
  unfold execRegisterWrite
  try dsimp only
  with_reducible refine keepsNext_next ?_
  split
  · with_reducible exact keeps_wake (keeps_plainWrite (keeps_applyEnv (keeps_refl _)))
  · with_reducible exact keeps_hostWriteTo (keeps_applyEnv (keeps_refl _)) (fun _ k3 => keeps_plainWrite k3)

theorem keeps_execShadowRegisterWrite {e : Env} {off : Nat} {v : Word} (s : State) : KeepsNext s (execShadowRegisterWrite e off v s) := by
  unfold execShadowRegisterWrite
  try dsimp only
  split
  · with_reducible exact keepsNext_next (keeps_applyEnv (keeps_refl _))
  · with_reducible refine keepsNext_next (keeps_hostWriteTo (keeps_applyEnv (keeps_refl _)) ?_)
    intro _ k3
    split
    · with_reducible exact keeps_count k3
    · with_reducible exact keeps_stage k3

theorem keeps_execConfigCommit {e : Env} (s : State) : KeepsNext s (execConfigCommit e s) := by
  unfold execConfigCommit
  try dsimp only
  with_reducible exact keepsNext_next (keeps_hostWriteTo (keeps_applyEnv (keeps_refl _)) (fun _ k2 => keeps_commitWrite k2))

theorem keeps_execConfigDiscard {e : Env} (s : State) : KeepsNext s (execConfigDiscard e s) := by
  unfold execConfigDiscard
  try dsimp only
  with_reducible exact keepsNext_next (keeps_hostWriteTo (keeps_applyEnv (keeps_refl _)) (fun _ k2 => keeps_commitWrite k2))

theorem keeps_execConfigCommitApply {e : Env} (s : State) : KeepsNext s (execConfigCommitApply e s) := by
  unfold execConfigCommitApply
  try dsimp only
  with_reducible refine keepsNext_next ?_
  split
  · with_reducible exact keeps_applyPending (keeps_applyEnv (keeps_refl _))
  · with_reducible exact keeps_applyEnv (keeps_refl _)

theorem keeps_execErrorInject {e : Env} {n : Fin 24} {v : Word} (s : State) : KeepsNext s (execErrorInject e n v s) := by
  unfold execErrorInject
  try dsimp only
  with_reducible exact keepsNext_next (keeps_hostWriteTo (keeps_applyEnv (keeps_refl _)) (fun _ k2 => keeps_mk k2))

theorem keeps_execBadRegisterAccess {e : Env} {off : Nat} {isWrite : Bool} (s : State) : KeepsNext s (execBadRegisterAccess e off isWrite s) := by
  unfold execBadRegisterAccess
  try dsimp only
  with_reducible refine keepsNext_next ?_
  split
  · split
    · with_reducible exact keeps_applyEnv (keeps_refl _)
    · with_reducible exact keeps_badAccess (keeps_applyEnv (keeps_refl _))
  · simp only
    split
    · with_reducible exact keeps_mk (keeps_applyEnv (keeps_refl _))
    · with_reducible exact keeps_badAccess (keeps_mk (keeps_applyEnv (keeps_refl _)))

theorem keeps_readPlain {s t : State} {off : Nat} (h : Keeps s t) : Keeps s (readPlain off t) := by
  unfold readPlain
  try dsimp only
  split
  · with_reducible exact keeps_mk h
  · split
    · with_reducible exact keeps_mk h
    · split <;> exact keeps_mk h

theorem keeps_execWideRegisterCapture {e : Env} {off : Nat} (s : State) : KeepsNext s (execWideRegisterCapture e off s) := by
  unfold execWideRegisterCapture
  try dsimp only
  with_reducible refine keepsNext_next ?_
  split
  · with_reducible exact keeps_mk (keeps_applyEnv (keeps_refl _))
  · with_reducible exact keeps_readPlain (keeps_applyEnv (keeps_refl _))

theorem keeps_execIntakeEntryCapture {e : Env} {w : Fin 64} (s : State) : KeepsNext s (execIntakeEntryCapture e w s) := by
  unfold execIntakeEntryCapture
  try dsimp only
  with_reducible exact keepsNext_next (keeps_mk (keeps_applyEnv (keeps_refl _)))

theorem keeps_copySlots {s t : State} {q : Fin 16} {x0 : Nat} {x1 : Nat} (h : Keeps s t) : Keeps s (copySlots q x0 x1 t) := by
  induction x0 generalizing t x1 with
  | zero =>
    unfold copySlots
    try dsimp only
    with_reducible exact h
  | succ n ih =>
    unfold copySlots
    try dsimp only
    split
    · with_reducible exact h
    · split
      · with_reducible exact h
      · with_reducible exact ih (keeps_setRing h)

theorem keeps_writeHead {s t : State} {q : Fin 16} {old : Nat} (h : Keeps s t) : Keeps s (writeHead q old t) := by
  unfold writeHead
  try dsimp only
  split
  · with_reducible exact h
  · with_reducible exact keeps_hostWrite h

theorem keeps_takeReady {s t : State} {q : Fin 16} {x0 : Nat} (h : Keeps s t) : Keeps s (takeReady q x0 t) := by
  induction x0 generalizing t with
  | zero =>
    unfold takeReady
    try dsimp only
    with_reducible exact h
  | succ n ih =>
    unfold takeReady
    try dsimp only
    split
    · with_reducible exact h
    · split
      · with_reducible exact h
      · split
        · split
          · with_reducible exact ih (keeps_complete (keeps_setRing (keeps_mk h)))
          · with_reducible exact ih (keeps_setRing (keeps_mk h))
        · split
          · with_reducible exact ih (keeps_complete (keeps_setRing (keeps_mk (keeps_wake h))))
          · with_reducible exact ih (keeps_setRing (keeps_mk (keeps_wake h)))

theorem keeps_pollRing {s t : State} {q : Fin 16} (h : Keeps s t) : Keeps s (pollRing q t) := by
  unfold pollRing
  try dsimp only
  split
  · with_reducible exact h
  · split
    · with_reducible exact keeps_haltRing (keeps_setRing h)
    · with_reducible exact keeps_takeReady (keeps_writeHead (keeps_copySlots (keeps_takeReady (keeps_flushLost (keeps_setRing h)))))

theorem keeps_execRingPoll {e : Env} {q : Fin 16} (s : State) : KeepsNext s (execRingPoll e q s) := by
  unfold execRingPoll
  try dsimp only
  with_reducible exact keepsNext_next (keeps_pollRing (keeps_applyEnv (keeps_refl _)))

theorem keeps_execDescriptorStart {e : Env} {q : Fin 16} (s : State) : KeepsNext s (execDescriptorStart e q s) := by
  unfold execDescriptorStart
  try dsimp only
  split
  · with_reducible exact keepsNext_next (keeps_applyEnv (keeps_refl _))
  · with_reducible refine keepsNext_next ?_
    split
    · split
      · with_reducible refine keeps_refreshSlots ?_
        split
        · with_reducible exact keeps_count (keeps_setRing (keeps_applyEnv (keeps_refl _)))
        · with_reducible exact keeps_setRing (keeps_applyEnv (keeps_refl _))
      · split
        · with_reducible exact keeps_count (keeps_setRing (keeps_applyEnv (keeps_refl _)))
        · with_reducible exact keeps_setRing (keeps_applyEnv (keeps_refl _))
    · with_reducible exact keeps_applyEnv (keeps_refl _)

theorem keeps_undefinedBytes {s t : State} {a : Nat} {n : Nat} (h : Keeps s t) : Keeps s (undefinedBytes a n t).2 := by
  unfold undefinedBytes
  try dsimp only
  with_reducible exact keeps_takeFree h

theorem keeps_scrambleHost {s t : State} {a : Nat} {n : Nat} (h : Keeps s t) : Keeps s (scrambleHost a n t) := by
  unfold scrambleHost
  try dsimp only
  with_reducible exact keeps_hostWrite (keeps_undefinedBytes h)

theorem keeps_scrambleFlash {s t : State} {a : Nat} {n : Nat} (h : Keeps s t) : Keeps s (scrambleFlash a n t) := by
  unfold scrambleFlash
  try dsimp only
  with_reducible exact keeps_flashWrite (keeps_undefinedBytes h)

theorem keeps_scrambleRegion {s t : State} {r : Nat} {off : Nat} {n : Nat} (h : Keeps s t) : Keeps s (scrambleRegion r off n t) := by
  unfold scrambleRegion
  try dsimp only
  split
  · with_reducible exact keeps_scramble h
  · with_reducible exact h

theorem keeps_undefineNamed {s t : State} {d : Desc} (h : Keeps s t) : Keeps s (undefineNamed d t) := by
  unfold undefineNamed
  try dsimp only
  split
  · with_reducible exact keeps_foldl (fun _ _ k2 => keeps_scrambleRegion k2) h
  · split
    · with_reducible exact keeps_scrambleRegion h
    · split
      · with_reducible exact keeps_setPondState (keeps_scrambleRegion (keeps_mk h))
      · split
        · with_reducible exact keeps_scrambleRegion h
        · split
          · with_reducible exact keeps_scrambleHost h
          · split
            · with_reducible exact keeps_scrambleHost h
            · split
              · with_reducible exact keeps_scrambleHost h
              · split
                · with_reducible exact keeps_scrambleHost h
                · split
                  · with_reducible exact keeps_scramble h
                  · split
                    · with_reducible exact keeps_scrambleFlash h
                    · split
                      · with_reducible exact keeps_voidTarget h
                      · with_reducible exact h

theorem keeps_dropWork {s t : State} {q : Fin 16} {d : Desc} (h : Keeps s t) : Keeps s (dropWork q d t) := by
  unfold dropWork
  try dsimp only
  split
  · simp only
    split
    · with_reducible exact keeps_endRestore (keeps_mk h)
    · with_reducible exact keeps_mk h
  · simp only
    split
    · with_reducible exact keeps_endRestore (keeps_mk h)
    · with_reducible exact keeps_mk h

theorem keeps_internalFault {s t : State} {q : Fin 16} {d : Desc} (h : Keeps s t) : Keeps s (internalFault q d t) := by
  unfold internalFault
  try dsimp only
  split
  · with_reducible exact keeps_refreshSlots (keeps_complete (keeps_event (keeps_flagEvent (keeps_dropWork (keeps_undefineNamed h)))))
  · with_reducible exact keeps_refreshSlots (keeps_event (keeps_flagEvent (keeps_dropWork (keeps_undefineNamed h))))

theorem keeps_withDesc {s t : State} {q : Fin 16} {j : Nat} {op : Nat} {go : Desc → State → State} (h : Keeps s t) (hgo : ∀ y0 u, Keeps s u → Keeps
    s (go y0 u)) : Keeps s (withDesc q j op go t) := by
  unfold withDesc
  try dsimp only
  split
  · with_reducible exact h
  · split
    · split
      · split
        · with_reducible exact keeps_refreshSlots (keeps_complete h)
        · split
          · with_reducible exact keeps_internalFault h
          · with_reducible exact keeps_charge (hgo _ _ h)
      · with_reducible exact h
    · with_reducible exact h

theorem keeps_enableRing {s t : State} {q : Fin 16} {reportIrq : Bool} (h : Keeps s t) : Keeps s (enableRing q reportIrq t) := by
  unfold enableRing
  try dsimp only
  split
  · with_reducible exact h
  · split <;> exact keeps_setRing h

theorem keeps_execRingEnable {e : Env} {q : Fin 16} {reportIrq : Bool} (s : State) : KeepsNext s (execRingEnable e q reportIrq s) := by
  unfold execRingEnable
  try dsimp only
  with_reducible exact keepsNext_next (keeps_hostWriteTo (keeps_applyEnv (keeps_refl _)) (fun _ k2 => keeps_enableRing k2))

theorem keeps_disableRing {s t : State} {q : Fin 16} {reportIrq : Bool} (h : Keeps s t) : Keeps s (disableRing q reportIrq t) := by
  unfold disableRing
  try dsimp only
  split
  · with_reducible exact h
  · split
    · with_reducible exact keeps_setRing h
    · with_reducible exact keeps_foldl (fun _ _ k3 => keeps_complete k3) (keeps_setRing h)

theorem keeps_execRingDisable {e : Env} {q : Fin 16} {reportIrq : Bool} (s : State) : KeepsNext s (execRingDisable e q reportIrq s) := by
  unfold execRingDisable
  try dsimp only
  with_reducible exact keepsNext_next (keeps_hostWriteTo (keeps_applyEnv (keeps_refl _)) (fun _ k2 => keeps_disableRing k2))

theorem keeps_execRingDisableDone {e : Env} {q : Fin 16} (s : State) : KeepsNext s (execRingDisableDone e q s) := by
  unfold execRingDisableDone
  try dsimp only
  with_reducible refine keepsNext_next ?_
  split
  · with_reducible exact keeps_setRing (keeps_applyEnv (keeps_refl _))
  · with_reducible exact keeps_applyEnv (keeps_refl _)

theorem keeps_resetRing {s t : State} {q : Fin 16} (h : Keeps s t) : Keeps s (resetRing q t) := by
  unfold resetRing
  try dsimp only
  split
  · with_reducible exact h
  · with_reducible exact keeps_refreshSlots (keeps_setRing h)

theorem keeps_execRingReset {e : Env} {q : Fin 16} (s : State) : KeepsNext s (execRingReset e q s) := by
  unfold execRingReset
  try dsimp only
  with_reducible exact keepsNext_next (keeps_hostWriteTo (keeps_applyEnv (keeps_refl _)) (fun _ k2 => keeps_resetRing k2))

theorem keeps_execRingResetDone {e : Env} {q : Fin 16} (s : State) : KeepsNext s (execRingResetDone e q s) := by
  unfold execRingResetDone
  try dsimp only
  with_reducible refine keepsNext_next ?_
  split
  · with_reducible exact keeps_setRing (keeps_applyEnv (keeps_refl _))
  · with_reducible exact keeps_applyEnv (keeps_refl _)

theorem keeps_execMsixHoldoffExpiry {e : Env} {q : Fin 16} (s : State) : KeepsNext s (execMsixHoldoffExpiry e q s) := by
  unfold execMsixHoldoffExpiry
  try dsimp only
  with_reducible refine keepsNext_next ?_
  split
  · with_reducible exact keeps_dueMsix (keeps_applyEnv (keeps_refl _))
  · with_reducible exact keeps_applyEnv (keeps_refl _)

theorem keeps_execHostAccessError {e : Env} {q : Fin 16} {addr : Nat} {ownRing : Bool} (s : State) : KeepsNext s (execHostAccessError e q addr
    ownRing s) := by
  unfold execHostAccessError
  try dsimp only
  with_reducible refine keepsNext_next ?_
  split
  · with_reducible exact keeps_refreshSlots (keeps_haltRing (keeps_applyEnv (keeps_refl _)))
  · with_reducible exact keeps_applyEnv (keeps_refl _)

theorem keeps_execFence {e : Env} {q : Fin 16} {j : Nat} (s : State) : KeepsNext s (execFence e q j s) := by
  unfold execFence
  try dsimp only
  with_reducible refine keepsNext_next (keeps_withDesc (keeps_applyEnv (keeps_refl _)) ?_)
  intro _ _ k2
  split
  · with_reducible exact keeps_complete k2
  · split
    · with_reducible exact keeps_complete k2
    · with_reducible exact k2

theorem keeps_execUnknownOpcode {e : Env} {q : Fin 16} {j : Nat} (s : State) : KeepsNext s (execUnknownOpcode e q j s) := by
  unfold execUnknownOpcode
  try dsimp only
  split
  · with_reducible exact keepsNext_next (keeps_applyEnv (keeps_refl _))
  · split
    · with_reducible refine keepsNext_next ?_
      split
      · with_reducible exact keeps_applyEnv (keeps_refl _)
      · with_reducible exact keeps_complete (keeps_applyEnv (keeps_refl _))
    · with_reducible exact keepsNext_next (keeps_applyEnv (keeps_refl _))

theorem keeps_regionChanged {s t : State} {r : Nat} (h : Keeps s t) : Keeps s (regionChanged r t) := by
  unfold regionChanged
  try dsimp only
  split
  · with_reducible exact keeps_mk h
  · split
    · with_reducible exact keeps_allAbsent (keeps_mk h)
    · split
      · with_reducible exact keeps_mk h
      · with_reducible exact keeps_setPondState (keeps_mk h)

theorem keeps_applyRegions {s t : State} {d : Desc} (h : Keeps s t) : Keeps s (applyRegions d t) := by
  unfold applyRegions
  try dsimp only
  with_reducible exact keeps_foldl (fun _ _ k1 => keeps_regionChanged k1) (keeps_foldl (fun _ _ k2 => keeps_setRegion k2) h)

theorem keeps_execRegionSet {e : Env} {q : Fin 16} {j : Nat} (s : State) : KeepsNext s (execRegionSet e q j s) := by
  unfold execRegionSet
  try dsimp only
  with_reducible refine keepsNext_next (keeps_withDesc (keeps_applyEnv (keeps_refl _)) ?_)
  intro _ _ k2
  split
  · with_reducible exact k2
  · split
    · with_reducible exact keeps_complete k2
    · split
      · with_reducible exact keeps_complete k2
      · with_reducible exact keeps_mk (keeps_applyRegions k2)

theorem keeps_finishRegions {s t : State}  (h : Keeps s t) : Keeps s (finishRegions t) := by
  unfold finishRegions
  try dsimp only
  with_reducible refine keeps_foldl ?_ (keeps_mk h)
  intro _ _ k1
  split
  · with_reducible exact keeps_complete k1
  · with_reducible exact k1

theorem keeps_execPartitionWindowsReport {e : Env} (s : State) : KeepsNext s (execPartitionWindowsReport e s) := by
  unfold execPartitionWindowsReport
  try dsimp only
  with_reducible refine keepsNext_next ?_
  split
  · with_reducible exact keeps_applyEnv (keeps_refl _)
  · split
    · with_reducible exact keeps_finishRegions (keeps_mk (keeps_applyEnv (keeps_refl _)))
    · with_reducible exact keeps_mk (keeps_applyEnv (keeps_refl _))

theorem keeps_fillSlots {s t : State} {off : Nat} {len : Nat} (h : Keeps s t) : Keeps s (fillSlots off len t) := by
  unfold fillSlots
  try dsimp only
  with_reducible refine keeps_foldl ?_ h
  intro _ _ k1
  split
  · with_reducible exact keeps_makePresent (keeps_putArrival k1)
  · with_reducible exact keeps_putArrival k1

theorem keeps_refreshPond {s t : State}  (h : Keeps s t) : Keeps s (refreshPond t) := by
  unfold refreshPond
  try dsimp only
  split
  · split
    · with_reducible exact h
    · with_reducible exact keeps_setPondState (keeps_mk h)
  · with_reducible exact h

theorem keeps_execStateFill {e : Env} {q : Fin 16} {j : Nat} (s : State) : KeepsNext s (execStateFill e q j s) := by
  unfold execStateFill
  try dsimp only
  with_reducible refine keepsNext_next (keeps_withDesc (keeps_applyEnv (keeps_refl _)) ?_)
  intro _ _ k2
  split
  · with_reducible exact keeps_complete k2
  · split
    · with_reducible exact keeps_complete k2
    · with_reducible refine keeps_complete ?_
      split
      · with_reducible exact keeps_withdrawOffer (keeps_foldl (fun _ _ k9 => keeps_storePage k9) k2)
      · split
        · with_reducible exact keeps_fillSlots (keeps_foldl (fun _ _ k10 => keeps_storePage k10) k2)
        · split
          · with_reducible exact keeps_refreshPond (keeps_mk (keeps_foldl (fun _ _ k12 => keeps_storePage k12) k2))
          · with_reducible exact keeps_foldl (fun _ _ k10 => keeps_storePage k10) k2

theorem keeps_takePlan {s t : State} {p : Plan} (h : Keeps s t) : Keeps s (takePlan p t) := by
  unfold takePlan
  try dsimp only
  with_reducible exact keeps_mergeWrite (keeps_mk h)

theorem keeps_execPlanLoad {e : Env} {q : Fin 16} {j : Nat} (s : State) : KeepsNext s (execPlanLoad e q j s) := by
  unfold execPlanLoad
  try dsimp only
  with_reducible refine keepsNext_next (keeps_withDesc (keeps_applyEnv (keeps_refl _)) ?_)
  intro _ _ k2
  split
  · with_reducible exact keeps_complete k2
  · split
    · with_reducible exact keeps_complete k2
    · split
      · with_reducible exact keeps_complete (keeps_mk (keeps_count k2))
      · with_reducible exact keeps_complete (keeps_takePlan (keeps_count k2))

theorem keeps_execPlanArm {e : Env} {q : Fin 16} {j : Nat} (s : State) : KeepsNext s (execPlanArm e q j s) := by
  unfold execPlanArm
  try dsimp only
  with_reducible refine keepsNext_next (keeps_withDesc (keeps_applyEnv (keeps_refl _)) ?_)
  intro _ _ k2
  split
  · with_reducible exact keeps_complete k2
  · split
    · with_reducible exact keeps_complete k2
    · split <;> exact keeps_complete (keeps_mk k2)

theorem keeps_execPlanRetire {e : Env} {q : Fin 16} {j : Nat} (s : State) : KeepsNext s (execPlanRetire e q j s) := by
  unfold execPlanRetire
  try dsimp only
  with_reducible refine keepsNext_next (keeps_withDesc (keeps_applyEnv (keeps_refl _)) ?_)
  intro _ _ k2
  split
  · with_reducible exact keeps_complete k2
  · with_reducible exact keeps_complete (keeps_mk k2)

theorem keeps_healthSpans {s t : State} {base : Nat} {first : Nat} {n : Nat} {h' : Nat} (h : Keeps s t) : Keeps s (healthSpans base first n h'
    t).2.2 := by
  unfold healthSpans
  try dsimp only
  with_reducible refine keeps_foldl_third ?_ h
  intro _ _ k1
  simp only
  with_reducible exact keeps_readSpan k1

theorem keeps_rewriteHealth {s t : State} {a : Nat} (h : Keeps s t) : Keeps s (rewriteHealth a t) := by
  unfold rewriteHealth
  try dsimp only
  split
  · with_reducible exact keeps_escalate h
  · with_reducible exact keeps_storePage (keeps_reportUnrecoverable h)

theorem keeps_healthAnswer {s t : State} {q : Fin 16} {d : Desc} {buf : Nat} {n : Nat} {out : Bytes} {bad : List Nat} (h : Keeps s t) : Keeps s
    (healthAnswer q d buf n out bad t) := by
  unfold healthAnswer
  try dsimp only
  with_reducible exact keeps_complete (keeps_hostWrite (keeps_foldl (fun _ _ k3 => keeps_rewriteHealth k3) h))

theorem keeps_execHealthRead {e : Env} {q : Fin 16} {j : Nat} (s : State) : KeepsNext s (execHealthRead e q j s) := by
  unfold execHealthRead
  try dsimp only
  with_reducible refine keepsNext_next (keeps_withDesc (keeps_applyEnv (keeps_refl _)) ?_)
  intro _ _ k2
  split
  · with_reducible exact keeps_complete k2
  · split
    · with_reducible exact keeps_complete k2
    · with_reducible exact keeps_healthAnswer (keeps_healthSpans k2)

theorem keeps_execCounterRead {e : Env} {q : Fin 16} {j : Nat} (s : State) : KeepsNext s (execCounterRead e q j s) := by
  unfold execCounterRead
  try dsimp only
  with_reducible refine keepsNext_next (keeps_withDesc (keeps_applyEnv (keeps_refl _)) ?_)
  intro _ _ k2
  split
  · with_reducible exact keeps_complete k2
  · with_reducible refine keeps_complete (keeps_hostWrite ?_)
    split
    · with_reducible exact keeps_foldl (fun _ _ k8 => keeps_regPut k8) k2
    · with_reducible exact k2

theorem keeps_scrubPage {s t : State} {r : Nat} {a : Nat} {w : RepairFor} (h : Keeps s t) : Keeps s (scrubPage r a w t) := by
  unfold scrubPage
  try dsimp only
  split
  · split
    · split
      · with_reducible exact keeps_noteRange (keeps_readPage h)
      · with_reducible exact keeps_readPage h
    · split
      · with_reducible exact keeps_noteRange (keeps_readPage h)
      · with_reducible exact keeps_readPage h
  · with_reducible refine keeps_escalate ?_
    split
    · split
      · with_reducible exact keeps_noteRange (keeps_readPage h)
      · with_reducible exact keeps_readPage h
    · split
      · with_reducible exact keeps_noteRange (keeps_readPage h)
      · with_reducible exact keeps_readPage h

theorem keeps_visitRange {s t : State} {q : Fin 16} {j : Nat} {r : Nat} {off : Nat} {len : Nat} {go : Nat → RepairFor → State → State} (h : Keeps s
    t) (hgo : ∀ y0 y1 u, Keeps s u → Keeps s (go y0 y1 u)) : Keeps s (visitRange q j r off len go t) := by
  unfold visitRange
  try dsimp only
  with_reducible exact keeps_finishRanges (keeps_foldl (fun _ _ k2 => hgo _ _ _ k2) (keeps_mk h))

theorem keeps_rangeDesc {s t : State} {q : Fin 16} {j : Nat} {op : Nat} {go : Nat → Nat → RepairFor → State → State} (h : Keeps s t) (hgo : ∀ y0 y1
    y2 u, Keeps s u → Keeps s (go y0 y1 y2 u)) : Keeps s (rangeDesc q j op go t) := by
  unfold rangeDesc
  try dsimp only
  with_reducible refine keeps_withDesc h ?_
  intro _ _ k1
  split
  · with_reducible exact k1
  · split
    · with_reducible exact keeps_complete k1
    · with_reducible exact keeps_visitRange k1 (fun _ _ _ k5 => hgo _ _ _ _ k5)

theorem keeps_execScrubRange {e : Env} {q : Fin 16} {j : Nat} (s : State) : KeepsNext s (execScrubRange e q j s) := by
  unfold execScrubRange
  try dsimp only
  with_reducible exact keepsNext_next (keeps_rangeDesc (keeps_applyEnv (keeps_refl _)) (fun _ _ _ _ k2 => keeps_scrubPage k2))

theorem keeps_execRepairRange {e : Env} {q : Fin 16} {j : Nat} (s : State) : KeepsNext s (execRepairRange e q j s) := by
  unfold execRepairRange
  try dsimp only
  with_reducible exact keepsNext_next (keeps_rangeDesc (keeps_applyEnv (keeps_refl _)) (fun _ _ _ _ k2 => keeps_escalate k2))

theorem keeps_execSnapPond {e : Env} {q : Fin 16} {j : Nat} (s : State) : KeepsNext s (execSnapPond e q j s) := by
  unfold execSnapPond
  try dsimp only
  with_reducible refine keepsNext_next (keeps_withDesc (keeps_applyEnv (keeps_refl _)) ?_)
  intro _ _ k2
  split
  · with_reducible exact keeps_complete k2
  · with_reducible exact keeps_complete k2
  · split
    · with_reducible exact k2
    · with_reducible exact keeps_mk (keeps_startCopy k2)

theorem keeps_execSnapDrain {e : Env} {q : Fin 16} {j : Nat} (s : State) : KeepsNext s (execSnapDrain e q j s) := by
  unfold execSnapDrain
  try dsimp only
  with_reducible refine keepsNext_next (keeps_withDesc (keeps_applyEnv (keeps_refl _)) ?_)
  intro _ _ k2
  split
  · with_reducible exact k2
  · split
    · with_reducible exact keeps_complete k2
    · split
      · with_reducible exact keeps_putDrain k2
      · with_reducible exact keeps_beginDrain k2

theorem keeps_execSnapExport {e : Env} {q : Fin 16} {j : Nat} (s : State) : KeepsNext s (execSnapExport e q j s) := by
  unfold execSnapExport
  try dsimp only
  with_reducible refine keepsNext_next (keeps_withDesc (keeps_applyEnv (keeps_refl _)) ?_)
  intro _ _ k2
  with_reducible refine keeps_refreshSlots ?_
  split
  · with_reducible exact keeps_complete k2
  · split
    · with_reducible exact keeps_complete k2
    · split
      · with_reducible exact keeps_complete k2
      · with_reducible exact keeps_complete (keeps_hostWrite k2)

theorem keeps_execSnapManifest {e : Env} {q : Fin 16} {j : Nat} (s : State) : KeepsNext s (execSnapManifest e q j s) := by
  unfold execSnapManifest
  try dsimp only
  with_reducible refine keepsNext_next (keeps_withDesc (keeps_applyEnv (keeps_refl _)) ?_)
  intro _ _ k2
  split
  · with_reducible exact keeps_complete k2
  · split
    · with_reducible exact keeps_complete k2
    · split
      · with_reducible exact keeps_complete k2
      · with_reducible exact keeps_complete (keeps_hostWrite k2)

theorem keeps_execStreamWindow {e : Env} {q : Fin 16} {j : Nat} (s : State) : KeepsNext s (execStreamWindow e q j s) := by
  unfold execStreamWindow
  try dsimp only
  with_reducible refine keepsNext_next (keeps_withDesc (keeps_applyEnv (keeps_refl _)) ?_)
  intro _ _ k2
  split
  · with_reducible exact k2
  · split
    · with_reducible exact keeps_refreshSlots (keeps_complete k2)
    · with_reducible exact keeps_mk k2

theorem keeps_execFlashBarrierDone {e : Env} (s : State) : KeepsNext s (execFlashBarrierDone e s) := by
  unfold execFlashBarrierDone
  try dsimp only
  split
  · with_reducible exact keepsNext_next (keeps_applyEnv (keeps_refl _))
  · with_reducible refine keepsNext_next ?_
    split
    · with_reducible exact keeps_drainBarrier (keeps_mk (keeps_applyEnv (keeps_refl _)))
    · with_reducible exact keeps_mk (keeps_applyEnv (keeps_refl _))

theorem keeps_execFlashWriteFailure {e : Env} (s : State) : KeepsNext s (execFlashWriteFailure e s) := by
  unfold execFlashWriteFailure
  try dsimp only
  with_reducible exact keepsNext_next (keeps_drainFailed (keeps_applyEnv (keeps_refl _)))

theorem keeps_execMalformedPacket {e : Env} {p : RawPkt} (s : State) : KeepsNext s (execMalformedPacket e p s) := by
  unfold execMalformedPacket
  try dsimp only
  with_reducible refine keepsNext_next ?_
  split
  · with_reducible exact keeps_intake (keeps_applyEnv (keeps_refl _))
  · with_reducible exact keeps_applyEnv (keeps_refl _)

theorem keeps_execUnmappedWindowPacket {e : Env} {p : RawPkt} (s : State) : KeepsNext s (execUnmappedWindowPacket e p s) := by
  unfold execUnmappedWindowPacket
  try dsimp only
  with_reducible refine keepsNext_next ?_
  split
  · with_reducible exact keeps_applyEnv (keeps_refl _)
  · with_reducible exact keeps_intake (keeps_applyEnv (keeps_refl _))

theorem keeps_storeBytes {s t : State} {r : Nat} {a : Nat} {bs : Bytes} (h : Keeps s t) : Keeps s (storeBytes r a bs t) := by
  unfold storeBytes
  try dsimp only
  split
  · with_reducible exact keeps_storePages h
  · with_reducible exact keeps_mergeWrite h

theorem keeps_takeMirror {s t : State} {p : Plan} {off : Nat} {bs : Bytes} (h : Keeps s t) : Keeps s (takeMirror p off bs t) := by
  unfold takeMirror
  try dsimp only
  split
  · with_reducible exact keeps_mk (keeps_storeBytes h)
  · with_reducible exact keeps_storeBytes h

theorem keeps_execMirroredInputStore {e : Env} {h' : PktHead} {bs : Bytes} (s : State) : KeepsNext s (execMirroredInputStore e h' bs s) := by
  unfold execMirroredInputStore
  try dsimp only
  with_reducible refine keepsNext_next (keeps_receive (keeps_applyEnv (keeps_refl _)) ?_)
  intro _ k2
  split
  · with_reducible exact keeps_takeMirror k2
  · with_reducible exact k2

theorem keeps_misplaced {s t : State}  (h : Keeps s t) : Keeps s (misplaced t) := by
  unfold misplaced
  try dsimp only
  with_reducible exact keeps_count h

theorem keeps_repeated {s t : State}  (h : Keeps s t) : Keeps s (repeated t) := by
  unfold repeated
  try dsimp only
  with_reducible exact keeps_count h

theorem keeps_addOverlay {s t : State} {slot : Nat} {page : Nat} {bs : Bytes} (h : Keeps s t) : Keeps s (addOverlay slot page bs t) := by
  unfold addOverlay
  try dsimp only
  with_reducible exact keeps_mk h

theorem keeps_applyDelta {s t : State} {slot : Nat} {c : Nat} {page : Nat} {sender : Coord} {bs : Bytes} (h : Keeps s t) : Keeps s (applyDelta slot
    c page sender bs t) := by
  unfold applyDelta
  try dsimp only
  split
  · split
    · with_reducible exact keeps_combine (keeps_notePending (keeps_addOverlay h))
    · with_reducible exact keeps_notePending (keeps_addOverlay h)
  · split
    · with_reducible exact keeps_combine (keeps_notePending (keeps_addOverlay (keeps_count (keeps_accumPage h))))
    · with_reducible exact keeps_notePending (keeps_addOverlay (keeps_count (keeps_accumPage h)))

theorem keeps_execAccumXor {e : Env} {h' : PktHead} {bs : Bytes} (s : State) : KeepsNext s (execAccumXor e h' bs s) := by
  unfold execAccumXor
  try dsimp only
  with_reducible refine keepsNext_next (keeps_receive (keeps_applyEnv (keeps_refl _)) ?_)
  intro _ k2
  split
  · with_reducible exact keeps_misplaced k2
  · split
    · with_reducible exact keeps_repeated k2
    · with_reducible exact keeps_applyDelta k2

theorem keeps_execChunkMarker {e : Env} {h' : PktHead} {step : Nat} {role : Nat} {mask : BitVec 16} {chunk : Nat} {position : Nat} (s : State) :
    KeepsNext s (execChunkMarker e h' step role mask chunk position s) := by
  unfold execChunkMarker
  try dsimp only
  with_reducible refine keepsNext_next (keeps_receive (keeps_applyEnv (keeps_refl _)) ?_)
  intro _ k2
  split
  · with_reducible exact keeps_misplaced k2
  · split
    · with_reducible exact keeps_repeated k2
    · with_reducible exact keeps_poke (keeps_checkComplete (keeps_setArrived (keeps_mk k2)))

theorem keeps_execInvalidateMarker {e : Env} {h' : PktHead} {step : Nat} {chunk : Nat} {mask : BitVec 16} {position : Nat} (s : State) : KeepsNext s
    (execInvalidateMarker e h' step chunk mask position s) := by
  unfold execInvalidateMarker
  try dsimp only
  with_reducible refine keepsNext_next (keeps_receive (keeps_applyEnv (keeps_refl _)) ?_)
  intro _ k2
  split
  · with_reducible exact keeps_misplaced k2
  · split
    · with_reducible exact keeps_misplaced k2
    · split
      · with_reducible exact keeps_repeated k2
      · with_reducible refine keeps_poke (keeps_checkComplete ?_)
        split
        · with_reducible exact keeps_foldl (fun _ _ k10 => keeps_sendMarker k10) (keeps_mk (keeps_makeAbsent (keeps_setArrived k2)))
        · with_reducible exact keeps_mk (keeps_makeAbsent (keeps_setArrived k2))

theorem keeps_takeProgress {s t : State} {sender : Coord} {hi : Nat} (h : Keeps s t) : Keeps s (takeProgress sender hi t) := by
  unfold takeProgress
  try dsimp only
  split
  · with_reducible exact h
  · with_reducible exact keeps_mk (keeps_sweepMember h)

theorem keeps_execProgressMarker {e : Env} {h' : PktHead} {step : Nat} {role : Nat} {position : Nat} (s : State) : KeepsNext s (execProgressMarker e
    h' step role position s) := by
  unfold execProgressMarker
  try dsimp only
  with_reducible refine keepsNext_next (keeps_receive (keeps_applyEnv (keeps_refl _)) ?_)
  intro _ k2
  split
  · with_reducible exact keeps_misplaced k2
  · with_reducible exact keeps_poke (keeps_takeProgress k2)

theorem keeps_execFinalMarker {e : Env} {h' : PktHead} {step : Nat} {role : Nat} (s : State) : KeepsNext s (execFinalMarker e h' step role s) := by
  unfold execFinalMarker
  try dsimp only
  with_reducible refine keepsNext_next (keeps_receive (keeps_applyEnv (keeps_refl _)) ?_)
  intro _ k2
  split
  · with_reducible exact keeps_misplaced k2
  · split
    · with_reducible exact keeps_poke (keeps_mk (keeps_takeProgress k2))
    · split
      · with_reducible exact keeps_poke (keeps_mk (keeps_sweepRelay k2))
      · with_reducible exact keeps_misplaced k2

theorem keeps_memberAck {s t : State} {h' : Nat} {k : AckBody} (h : Keeps s t) : Keeps s (memberAck h' k t) := by
  unfold memberAck
  try dsimp only
  with_reducible exact keeps_mk h

theorem keeps_relayAck {s t : State} {pos : Nat} {k : AckBody} (h : Keeps s t) : Keeps s (relayAck pos k t) := by
  unfold relayAck
  try dsimp only
  with_reducible exact keeps_mk h

theorem keeps_execAck {e : Env} {h' : PktHead} {k : AckBody} (s : State) : KeepsNext s (execAck e h' k s) := by
  unfold execAck
  try dsimp only
  with_reducible refine keepsNext_next (keeps_receive (keeps_applyEnv (keeps_refl _)) ?_)
  intro _ k2
  split
  · with_reducible exact keeps_misplaced k2
  · split
    · with_reducible exact keeps_poke (keeps_memberAck k2)
    · split
      · with_reducible exact keeps_poke (keeps_relayAck k2)
      · with_reducible exact keeps_misplaced k2

theorem keeps_execAckFlush {e : Env} {dest : Coord} (s : State) : KeepsNext s (execAckFlush e dest s) := by
  unfold execAckFlush
  try dsimp only
  with_reducible refine keepsNext_next ?_
  split
  · with_reducible exact keeps_flushAck (keeps_applyEnv (keeps_refl _))
  · with_reducible exact keeps_applyEnv (keeps_refl _)

theorem keeps_execProgressTimer {e : Env} {dest : Coord} (s : State) : KeepsNext s (execProgressTimer e dest s) := by
  unfold execProgressTimer
  try dsimp only
  split
  · with_reducible refine keepsNext_next ?_
    split
    · with_reducible exact keeps_sendProgress (keeps_applyEnv (keeps_refl _))
    · with_reducible exact keeps_applyEnv (keeps_refl _)
  · with_reducible exact keepsNext_next (keeps_applyEnv (keeps_refl _))

theorem keeps_execAgreementContribution {e : Env} {h' : PktHead} {k : Contribution} (s : State) : KeepsNext s (execAgreementContribution e h' k s)
    := by
  unfold execAgreementContribution
  try dsimp only
  with_reducible exact keepsNext_next (keeps_receive (keeps_applyEnv (keeps_refl _)) (fun _ k2 => keeps_takeContribution k2))

theorem keeps_execAgreeVerdict {e : Env} {h' : PktHead} {v : Verdict} (s : State) : KeepsNext s (execAgreeVerdict e h' v s) := by
  unfold execAgreeVerdict
  try dsimp only
  with_reducible exact keepsNext_next (keeps_receive (keeps_applyEnv (keeps_refl _)) (fun _ k2 => keeps_dropLease (keeps_takeVerdict k2)))

theorem keeps_execCommitCutoff {e : Env} (s : State) : KeepsNext s (execCommitCutoff e s) := by
  unfold execCommitCutoff
  try dsimp only
  with_reducible refine keepsNext_next ?_
  split
  · with_reducible exact keeps_pumpAgree (keeps_applyEnv (keeps_refl _))
  · with_reducible exact keeps_applyEnv (keeps_refl _)

theorem keeps_execCommitRootTimeout {e : Env} (s : State) : KeepsNext s (execCommitRootTimeout e s) := by
  unfold execCommitRootTimeout
  try dsimp only
  with_reducible refine keepsNext_next ?_
  split
  · with_reducible exact keeps_sendIncomplete (keeps_applyEnv (keeps_refl _))
  · with_reducible exact keeps_applyEnv (keeps_refl _)

theorem keeps_execNoVerdict {e : Env} (s : State) : KeepsNext s (execNoVerdict e s) := by
  unfold execNoVerdict
  try dsimp only
  with_reducible refine keepsNext_next ?_
  split
  · with_reducible exact keeps_reportIncomplete (keeps_mk (keeps_count (keeps_applyEnv (keeps_refl _))))
  · with_reducible exact keeps_applyEnv (keeps_refl _)

theorem keeps_downFrame {s t : State} {p : Prefix} {sender : Coord} {offset : Nat} {lanes : List Lane} {exps : List Int} (h : Keeps s t) : Keeps s
    (downFrame p sender offset lanes exps t) := by
  unfold downFrame
  try dsimp only
  with_reducible refine keeps_withPacket h ?_
  intro _ _ k1
  split
  · with_reducible exact k1
  · with_reducible exact keeps_takeResult k1

theorem keeps_execPartialFrame {e : Env} {h' : PktHead} {body : Payload} (s : State) : KeepsNext s (execPartialFrame e h' body s) := by
  unfold execPartialFrame
  try dsimp only
  split
  · with_reducible refine keepsNext_next ?_
    split
    · with_reducible exact keeps_applyEnv (keeps_refl _)
    · with_reducible exact keeps_receive (keeps_applyEnv (keeps_refl _)) (fun _ k4 => keeps_upFrame k4)
  · with_reducible exact keepsNext_next (keeps_applyEnv (keeps_refl _))

theorem keeps_execResultFrame {e : Env} {h' : PktHead} {body : Payload} (s : State) : KeepsNext s (execResultFrame e h' body s) := by
  unfold execResultFrame
  try dsimp only
  split
  · with_reducible refine keepsNext_next ?_
    split
    · with_reducible exact keeps_applyEnv (keeps_refl _)
    · with_reducible exact keeps_receive (keeps_applyEnv (keeps_refl _)) (fun _ k4 => keeps_downFrame k4)
  · with_reducible exact keepsNext_next (keeps_applyEnv (keeps_refl _))

theorem keeps_execRetryFrame {e : Env} {h' : PktHead} {p : Prefix} {ls : List Lane} (s : State) : KeepsNext s (execRetryFrame e h' p ls s) := by
  unfold execRetryFrame
  try dsimp only
  with_reducible refine keepsNext_next ?_
  split
  · with_reducible exact keeps_applyEnv (keeps_refl _)
  · split
    · with_reducible exact keeps_receive (keeps_applyEnv (keeps_refl _)) (fun _ k4 => keeps_downFrame k4)
    · with_reducible exact keeps_receive (keeps_applyEnv (keeps_refl _)) (fun _ k4 => keeps_upFrame k4)

theorem keeps_execPartialRecord {e : Env} {h' : PktHead} {p : Prefix} {bitmap : List Nat} (s : State) : KeepsNext s (execPartialRecord e h' p bitmap
    s) := by
  unfold execPartialRecord
  try dsimp only
  with_reducible refine keepsNext_next ?_
  split
  · with_reducible exact keeps_applyEnv (keeps_refl _)
  · with_reducible exact keeps_receive (keeps_applyEnv (keeps_refl _)) (fun _ k3 => keeps_upRecord k3)

theorem keeps_execResultRecord {e : Env} {h' : PktHead} {p : Prefix} {r : ResultRec} (s : State) : KeepsNext s (execResultRecord e h' p r s) := by
  unfold execResultRecord
  try dsimp only
  with_reducible refine keepsNext_next ?_
  split
  · with_reducible exact keeps_applyEnv (keeps_refl _)
  · with_reducible exact keeps_receive (keeps_applyEnv (keeps_refl _)) (fun _ k3 => keeps_withPacket k3 (fun _ _ k5 => keeps_pumpReduction
      (keeps_takeRecord k5)))

theorem keeps_takeAbort {s t : State} {p : Prefix} {sender : Coord} (h : Keeps s t) : Keeps s (takeAbort p sender t) := by
  unfold takeAbort
  try dsimp only
  split
  · with_reducible exact h
  · split
    · with_reducible exact keeps_count h
    · split
      · split
        · with_reducible exact keeps_count h
        · with_reducible refine keeps_discardColl ?_
          split
          · with_reducible exact keeps_count h
          · with_reducible exact h
      · split
        · with_reducible exact keeps_count h
        · with_reducible refine keeps_abortUp ?_
          split
          · with_reducible exact keeps_count h
          · with_reducible exact h

theorem keeps_execAbortRecord {e : Env} {h' : PktHead} {p : Prefix} (s : State) : KeepsNext s (execAbortRecord e h' p s) := by
  unfold execAbortRecord
  try dsimp only
  with_reducible refine keepsNext_next ?_
  split
  · with_reducible exact keeps_applyEnv (keeps_refl _)
  · with_reducible exact keeps_receive (keeps_applyEnv (keeps_refl _)) (fun _ k3 => keeps_pumpReduction (keeps_takeAbort k3))

theorem keeps_keepFinal {s t : State} {p : Prefix} {k : RKey} {i : RInfo} {f : Nat} {ls : List Lane} (h : Keeps s t) : Keeps s (keepFinal p k i f ls
    t) := by
  unfold keepFinal
  try dsimp only
  split
  · split
    · with_reducible exact keeps_updReach (keeps_mk h)
    · with_reducible exact keeps_mk h
  · with_reducible refine keeps_settleReach ?_
    split
    · with_reducible exact keeps_updReach (keeps_mk h)
    · with_reducible exact keeps_mk h

theorem keeps_takeFinal {s t : State} {p : Prefix} {sender : Coord} {offset : Nat} {ls : List Lane} (h : Keeps s t) : Keeps s (takeFinal p sender
    offset ls t) := by
  unfold takeFinal
  try dsimp only
  split
  · with_reducible exact h
  · split
    · with_reducible exact keeps_count h
    · split
      · with_reducible exact keeps_count h
      · split
        · with_reducible exact keeps_count h
        · split
          · with_reducible exact keeps_abortUp (keeps_count h)
          · split
            · with_reducible exact h
            · split
              · split
                · with_reducible exact keeps_count h
                · split
                  · with_reducible exact h
                  · with_reducible exact keeps_keepFinal h
              · split
                · with_reducible exact keeps_count h
                · split
                  · with_reducible exact h
                  · with_reducible exact keeps_keepFinal h

theorem keeps_execPath1FinalFrame {e : Env} {h' : PktHead} {p : Prefix} {ls : List Lane} (s : State) : KeepsNext s (execPath1FinalFrame e h' p ls s)
    := by
  unfold execPath1FinalFrame
  try dsimp only
  with_reducible refine keepsNext_next ?_
  split
  · with_reducible exact keeps_applyEnv (keeps_refl _)
  · with_reducible exact keeps_receive (keeps_applyEnv (keeps_refl _)) (fun _ k3 => keeps_pumpReduction (keeps_takeFinal k3))

theorem keeps_cutReach {s t : State} {k : RKey} {i : RInfo} (h : Keeps s t) : Keeps s (cutReach k i t) := by
  unfold cutReach
  try dsimp only
  split
  · with_reducible exact h
  · with_reducible exact keeps_advanceReach (keeps_openFor h)

theorem keeps_cutTurn {s t : State} {i : Nat} {path1 : Bool} {at_ : RInfo → Bool} (h : Keeps s t) : Keeps s (cutTurn i path1 at_ t) := by
  unfold cutTurn
  try dsimp only
  with_reducible refine keeps_foldl ?_ h
  intro _ _ k1
  split
  · split
    · with_reducible exact keeps_cutReach k1
    · with_reducible exact k1
  · with_reducible exact k1

theorem keeps_execReduceCutoff {e : Env} {i : Nat} {path1 : Bool} {root : Nat} (s : State) : KeepsNext s (execReduceCutoff e i path1 root s) := by
  unfold execReduceCutoff
  try dsimp only
  with_reducible refine keepsNext_next ?_
  split
  · with_reducible exact keeps_pumpReduction (keeps_cutTurn (keeps_applyEnv (keeps_refl _)))
  · with_reducible exact keeps_applyEnv (keeps_refl _)

theorem keeps_execReduceDeadline {e : Env} {i : Nat} (s : State) : KeepsNext s (execReduceDeadline e i s) := by
  unfold execReduceDeadline
  try dsimp only
  with_reducible refine keepsNext_next ?_
  split
  · with_reducible exact keeps_pumpReduction (keeps_cutTurn (keeps_applyEnv (keeps_refl _)))
  · with_reducible exact keeps_applyEnv (keeps_refl _)

theorem keeps_execDualPathSettle {e : Env} {coll : Nat} {reach : Nat} (s : State) : KeepsNext s (execDualPathSettle e coll reach s) := by
  unfold execDualPathSettle
  try dsimp only
  split
  · with_reducible exact keepsNext_next (keeps_applyEnv (keeps_refl _))
  · with_reducible refine keepsNext_next ?_
    split
    · with_reducible exact keeps_pumpReduction (keeps_settleReach (keeps_applyEnv (keeps_refl _)))
    · with_reducible exact keeps_applyEnv (keeps_refl _)

theorem keeps_execRetryDeadline {e : Env} (s : State) : KeepsNext s (execRetryDeadline e s) := by
  unfold execRetryDeadline
  try dsimp only
  with_reducible refine keepsNext_next ?_
  split
  · with_reducible refine keeps_foldl ?_ (keeps_applyEnv (keeps_refl _))
    intro _ _ k3
    split
    · with_reducible exact k3
    · with_reducible exact keeps_retryClose (keeps_openFor k3)
  · with_reducible exact keeps_applyEnv (keeps_refl _)

theorem keeps_sendChain {s t : State} {route : List Coord} {r : ChainRec} {ps : List (Nat × Bytes)} (h : Keeps s t) : Keeps s (sendChain route r ps
    t) := by
  unfold sendChain
  try dsimp only
  split
  · with_reducible exact h
  · split
    · with_reducible exact keeps_sendPages h
    · split <;> exact keeps_sendChainRec (keeps_sendPages h)

theorem keeps_sixteen {s t : State} {read : Nat → State → Option Bytes × State} (h : Keeps s t) (hread : ∀ y0 u, Keeps s u → Keeps s (read y0 u).2)
    : Keeps s (sixteen read t).2 := by
  unfold sixteen
  try dsimp only
  with_reducible exact keeps_gather h (fun _ _ k1 => hread _ _ k1)

theorem keeps_sourcePages {s t : State} {r : ChainRec} (h : Keeps s t) : Keeps s (sourcePages r t).2 := by
  unfold sourcePages
  try dsimp only
  split
  · split
    · with_reducible exact keeps_sixteen h (fun _ _ k3 => keeps_readPage k3)
    · with_reducible exact h
  · with_reducible exact keeps_sixteen h (fun _ _ k2 => keeps_readPage k2)

theorem keeps_committedPage {s t : State} {i : Nat} {n : Nat} (h : Keeps s t) : Keeps s (committedPage i n t).2 := by
  unfold committedPage
  try dsimp only
  split
  · with_reducible exact h
  · with_reducible exact keeps_supply h

theorem keeps_linkPage {s t : State} {r : ChainRec} {n : Nat} (h : Keeps s t) : Keeps s (linkPage r n t).2 := by
  unfold linkPage
  try dsimp only
  split
  · split
    · split
      · simp only
        with_reducible exact keeps_readPage h
      · with_reducible exact h
    · with_reducible exact h
  · simp only
    split
    · with_reducible exact keeps_committedPage h
    · with_reducible exact keeps_supply h

theorem keeps_noteForward {s t : State}  (h : Keeps s t) : Keeps s (noteForward t) := by
  unfold noteForward
  try dsimp only
  split
  · with_reducible exact keeps_mk h
  · with_reducible exact keeps_foldl (fun _ _ k2 => keeps_sendChainRec k2) (keeps_mk h)

theorem keeps_repairChain {s t : State} {j : ChainJob} (h : Keeps s t) : Keeps s (repairChain j t) := by
  unfold repairChain
  try dsimp only
  split
  · with_reducible exact keeps_escalateUnread h
  · split
    · split
      · with_reducible exact keeps_escalateUnread h
      · with_reducible exact h
    · with_reducible exact keeps_escalateUnread h

theorem keeps_runJob {s t : State} {j : ChainJob} (h : Keeps s t) : Keeps s (runJob j t) := by
  unfold runJob
  try dsimp only
  split
  · with_reducible refine keeps_repairChain ?_
    split
    · with_reducible exact keeps_sourcePages h
    · with_reducible exact h
  · split
    · with_reducible exact keeps_sendChain (keeps_sourcePages h)
    · with_reducible exact keeps_noteForward (keeps_sendChain h)

theorem keeps_pumpJobs {s t : State}  (h : Keeps s t) : Keeps s (pumpJobs t) := by
  unfold pumpJobs
  try dsimp only
  with_reducible exact keeps_foldl (fun _ _ k1 => keeps_runJob k1) (keeps_mk h)

theorem keeps_addJob {s t : State} {j : ChainJob} (h : Keeps s t) : Keeps s (addJob j t) := by
  unfold addJob
  try dsimp only
  with_reducible exact keeps_mk h

theorem keeps_queueChain {s t : State} {j : ChainJob} (h : Keeps s t) : Keeps s (queueChain j t) := by
  unfold queueChain
  try dsimp only
  with_reducible exact keeps_pumpJobs (keeps_addJob h)

theorem keeps_startSource {s t : State} {kind : Nat} {equation : Nat} {i : Nat} {g : Nat} {slot : Nat} (h : Keeps s t) : Keeps s (startSource kind
    equation i g slot t) := by
  unfold startSource
  try dsimp only
  split
  · split
    · with_reducible exact keeps_sendChainRec h
    · with_reducible exact h
  · with_reducible exact keeps_addJob h

theorem keeps_decoderSource {s t : State} {i : Nat} {j : Nat} {slot : Nat} (h : Keeps s t) : Keeps s (decoderSource i j slot t) := by
  unfold decoderSource
  try dsimp only
  split
  · split
    · with_reducible exact keeps_sendChainRec h
    · with_reducible exact h
  · split
    · with_reducible exact keeps_foldl (fun _ _ k3 => keeps_startSource k3) (keeps_startSource h)
    · with_reducible exact keeps_startSource h

theorem keeps_holderStart {s t : State} {i : Nat} (h : Keeps s t) : Keeps s (holderStart i t) := by
  unfold holderStart
  try dsimp only
  split
  · with_reducible exact h
  · split
    · split
      · split
        · with_reducible exact keeps_decoderSource h
        · with_reducible exact keeps_startSource h
      · with_reducible exact h
    · with_reducible exact keeps_decoderSource h

theorem keeps_noteClass {s t : State} {i : Nat} {cls : Nat} {pm : BitVec 16} {determined : Bool} (h : Keeps s t) : Keeps s (noteClass i cls pm
    determined t) := by
  unfold noteClass
  try dsimp only
  split
  · with_reducible exact h
  · with_reducible exact keeps_noteForward (keeps_mk h)

theorem keeps_placePages {s t : State} {i : Nat} {ps : List (Nat × Bytes)} (h : Keeps s t) : Keeps s (placePages i ps t) := by
  unfold placePages
  try dsimp only
  with_reducible exact keeps_foldl (fun _ _ k1 => keeps_storePage k1) h

theorem keeps_sendDecoded {s t : State} {i : Nat} {m : Nat} {cls : Nat} {pages : Option (List (Bool × Bytes))} {pm : BitVec 16} (h : Keeps s t) :
    Keeps s (sendDecoded i m cls pages pm t) := by
  unfold sendDecoded
  try dsimp only
  split
  · with_reducible exact keeps_noteClass (keeps_placePages h)
  · with_reducible exact keeps_sendChainRec (keeps_sendPages h)

theorem keeps_trySolve {s t : State} {i : Nat} (h : Keeps s t) : Keeps s (trySolve i t) := by
  unfold trySolve
  try dsimp only
  split
  · with_reducible exact h
  · with_reducible exact keeps_foldl (fun _ _ k2 => keeps_sendDecoded k2) (keeps_mk h)

theorem keeps_reportRefilled {s t : State} {status : Nat} {cause : Nat} (h : Keeps s t) : Keeps s (reportRefilled status cause t) := by
  unfold reportRefilled
  try dsimp only
  with_reducible refine keeps_event (keeps_regPut (keeps_mk ?_))
  split
  · with_reducible exact keeps_flagEvent h
  · split
    · with_reducible exact keeps_flagEvent h
    · with_reducible exact h

theorem keeps_judgeSpare {s t : State}  (h : Keeps s t) : Keeps s (judgeSpare t) := by
  unfold judgeSpare
  try dsimp only
  split
  · with_reducible exact h
  · split
    · with_reducible exact h
    · split
      · with_reducible exact h
      · with_reducible exact keeps_reportRefilled (keeps_mk h)

theorem keeps_classLocal {s t : State} {r : ChainRec} (h : Keeps s t) : Keeps s (classLocal r t) := by
  unfold classLocal
  try dsimp only
  split
  · with_reducible exact keeps_judgeSpare (keeps_noteClass h)
  · with_reducible exact h

theorem keeps_takeChainPages {s t : State} {sender : Coord} {slot : Nat} (h : Keeps s t) : Keeps s (takeChainPages sender slot t).2 := by
  unfold takeChainPages
  try dsimp only
  with_reducible exact keeps_mk h

theorem keeps_linkChain {s t : State} {route : List Coord} {r : ChainRec} {ps : List (Nat × Bytes)} (h : Keeps s t) : Keeps s (linkChain route r ps
    t) := by
  unfold linkChain
  try dsimp only
  split
  · with_reducible exact keeps_addJob h
  · split
    · with_reducible exact keeps_repairChain (keeps_sixteen h (fun _ _ k4 => keeps_linkPage k4))
    · with_reducible exact keeps_queueChain (keeps_sixteen h (fun _ _ k4 => keeps_linkPage k4))

theorem keeps_takeEquation {s t : State} {sender : Coord} {r : ChainRec} {ps : List (Nat × Bytes)} (h : Keeps s t) : Keeps s (takeEquation sender r
    ps t) := by
  unfold takeEquation
  try dsimp only
  split
  · split
    · with_reducible exact h
    · with_reducible exact keeps_judgeSpare (keeps_trySolve (keeps_mk h))
  · split
    · with_reducible exact h
    · with_reducible exact keeps_judgeSpare (keeps_trySolve (keeps_mk h))

theorem keeps_takeChain {s t : State} {sender : Coord} {r : ChainRec} (h : Keeps s t) : Keeps s (takeChain sender r t) := by
  unfold takeChain
  try dsimp only
  split
  · with_reducible exact h
  · split
    · split
      · with_reducible exact keeps_takeEquation h
      · with_reducible exact h
    · split
      · with_reducible exact h
      · split
        · with_reducible exact keeps_classLocal h
        · split
          · with_reducible exact keeps_takeChainPages h
          · split
            · with_reducible exact keeps_takeEquation (keeps_takeChainPages h)
            · with_reducible exact keeps_linkChain (keeps_takeChainPages h)

theorem keeps_runLink {s t : State} {j : ChainJob} (h : Keeps s t) : Keeps s (runLink j t) := by
  unfold runLink
  try dsimp only
  split
  · with_reducible exact keeps_giveUpChain (keeps_mk h)
  · split
    · with_reducible exact keeps_giveUpChain (keeps_repairChain (keeps_sixteen (keeps_mk h) (fun _ _ k5 => keeps_linkPage k5)))
    · with_reducible exact keeps_sendChain (keeps_sixteen (keeps_mk h) (fun _ _ k4 => keeps_linkPage k4))

theorem keeps_linkWork {s t : State} {x0 : Nat} (h : Keeps s t) : Keeps s (linkWork x0 t).2 := by
  induction x0 generalizing t with
  | zero =>
    unfold linkWork
    try dsimp only
    with_reducible exact h
  | succ n ih =>
    unfold linkWork
    try dsimp only
    split
    · with_reducible exact h
    · split
      · with_reducible exact h
      · with_reducible exact ih (keeps_charge (keeps_runLink (keeps_mk h)))

theorem keeps_startChains {s t : State} {x0 : Nat} (h : Keeps s t) : Keeps s (startChains x0 t).2 := by
  induction x0 generalizing t with
  | zero =>
    unfold startChains
    try dsimp only
    with_reducible exact h
  | succ n ih =>
    unfold startChains
    try dsimp only
    split
    · with_reducible exact h
    · split
      · with_reducible exact h
      · with_reducible exact ih (keeps_charge (keeps_runLink (keeps_mk h)))

theorem keeps_rebuildChains {s t : State} {n : Nat} (h : Keeps s t) : Keeps s (rebuildChains n t).2 := by
  unfold rebuildChains
  try dsimp only
  with_reducible exact keeps_startChains (keeps_linkWork h)

theorem keeps_placeSlot {s t : State} {slot : Nat} (h : Keeps s t) : Keeps s (placeSlot slot t) := by
  unfold placeSlot
  try dsimp only
  split
  · with_reducible exact keeps_mk h
  · split
    · with_reducible exact keeps_mk (keeps_makePresent (keeps_setWhole h))
    · with_reducible exact keeps_mk (keeps_event (keeps_mk (keeps_makePresent (keeps_setWhole h))))

theorem keeps_reportFrozen {s t : State} {cause : Nat} (h : Keeps s t) : Keeps s (reportFrozen cause t) := by
  unfold reportFrozen
  try dsimp only
  with_reducible exact keeps_event h

theorem keeps_freeze {s t : State}  (h : Keeps s t) : Keeps s (freeze t) := by
  unfold freeze
  try dsimp only
  with_reducible exact keeps_dropLease (keeps_applyPending (keeps_mk h))

theorem keeps_acceptRefill {s t : State} {m : RefillMsg} (h : Keeps s t) : Keeps s (acceptRefill m t) := by
  unfold acceptRefill
  try dsimp only
  with_reducible exact keeps_mk h

theorem keeps_adoptJob {s t : State} {m : RefillMsg} (h : Keeps s t) : Keeps s (adoptJob m t) := by
  unfold adoptJob
  try dsimp only
  with_reducible refine keeps_mk (keeps_foldl (fun _ _ k2 => keeps_makeAbsent (keeps_setWhole k2)) (keeps_mk ?_))
  split
  · split
    · split
      · split
        · with_reducible exact h
        · with_reducible exact keeps_mk h
      · simp only
        split <;> exact keeps_mk h
    · split
      · with_reducible exact h
      · with_reducible exact keeps_mk h
  · split
    · split
      · with_reducible exact h
      · with_reducible exact keeps_mk h
    · with_reducible exact h

theorem keeps_pushSpanTo {s t : State} {dst : Coord} {src : Nat} {at_ : Nat} {n : Nat} (h : Keeps s t) : Keeps s (pushSpanTo dst src at_ n t) := by
  unfold pushSpanTo
  try dsimp only
  split
  · with_reducible exact keeps_pushBytes (keeps_third (by assumption) (keeps_readSpan h))
  · with_reducible exact keeps_escalateAll (keeps_third (by assumption) (keeps_readSpan h))

theorem keeps_peerPush {s t : State} {p : Plan} {c : Nat × CollEntry} (h : Keeps s t) : Keeps s (peerPush p c t) := by
  unfold peerPush
  try dsimp only
  with_reducible refine keeps_foldl ?_ h
  intro _ _ k1
  split
  · with_reducible exact keeps_foldl (fun _ _ k4 => keeps_pushSpanTo k4) k1
  · with_reducible exact keeps_sendChainRec k1

theorem keeps_replicaPush {s t : State}  (h : Keeps s t) : Keeps s (replicaPush t) := by
  unfold replicaPush
  try dsimp only
  split
  · with_reducible exact h
  · split
    · with_reducible exact h
    · with_reducible refine keeps_foldl ?_ h
      intro _ _ k3
      split
      · with_reducible exact k3
      · with_reducible refine keeps_foldl ?_ k3
        intro _ _ k6
        split
        · with_reducible exact keeps_sendChainRec k6
        · with_reducible exact keeps_pushChunk k6

theorem keeps_inputPush {s t : State} {p : Plan} (h : Keeps s t) : Keeps s (inputPush p t) := by
  unfold inputPush
  try dsimp only
  with_reducible refine keeps_foldl ?_ h
  intro _ _ k1
  split
  · split
    · with_reducible exact keeps_pushSpanTo (keeps_pushSpanTo k1)
    · with_reducible exact keeps_pushSpanTo k1
  · split
    · with_reducible exact keeps_pushSpanTo k1
    · with_reducible exact k1

theorem keeps_takeRoles {s t : State}  (h : Keeps s t) : Keeps s (takeRoles t) := by
  unfold takeRoles
  try dsimp only
  split
  · with_reducible exact h
  · split
    · with_reducible exact keeps_raiseClaim (keeps_mk h)
    · with_reducible exact keeps_mk h

theorem keeps_startWork {s t : State}  (h : Keeps s t) : Keeps s (startWork t) := by
  unfold startWork
  try dsimp only
  split
  · with_reducible exact h
  · with_reducible refine keeps_judgeSpare ?_
    split
    · split
      · split
        · split
          · split
            · with_reducible refine keeps_foldl (fun _ _ k8 => keeps_trySolve k8) (keeps_event (keeps_replicaPush (keeps_foldl ?_ (keeps_pumpJobs
                (keeps_foldl (fun _ _ k13 => keeps_holderStart k13) h)))))
              intro _ _ k11
              split
              · with_reducible exact keeps_peerPush k11
              · with_reducible exact k11
            · with_reducible refine keeps_event (keeps_replicaPush (keeps_foldl ?_ (keeps_pumpJobs (keeps_foldl (fun _ _ k12 => keeps_holderStart
                k12) h))))
              intro _ _ k10
              split
              · with_reducible exact keeps_peerPush k10
              · with_reducible exact k10
          · split
            · with_reducible refine keeps_foldl (fun _ _ k8 => keeps_trySolve k8) (keeps_replicaPush (keeps_foldl ?_ (keeps_pumpJobs (keeps_foldl
                (fun _ _ k12 => keeps_holderStart k12) h))))
              intro _ _ k10
              split
              · with_reducible exact keeps_peerPush k10
              · with_reducible exact k10
            · with_reducible refine keeps_replicaPush (keeps_foldl ?_ (keeps_pumpJobs (keeps_foldl (fun _ _ k11 => keeps_holderStart k11) h)))
              intro _ _ k9
              split
              · with_reducible exact keeps_peerPush k9
              · with_reducible exact k9
        · split
          · split
            · with_reducible refine keeps_foldl (fun _ _ k8 => keeps_trySolve k8) (keeps_event (keeps_inputPush (keeps_replicaPush (keeps_foldl ?_
                (keeps_pumpJobs (keeps_foldl (fun _ _ k14 => keeps_holderStart k14) h))))))
              intro _ _ k12
              split
              · with_reducible exact keeps_peerPush k12
              · with_reducible exact k12
            · with_reducible refine keeps_event (keeps_inputPush (keeps_replicaPush (keeps_foldl ?_ (keeps_pumpJobs (keeps_foldl (fun _ _ k13 =>
                keeps_holderStart k13) h)))))
              intro _ _ k11
              split
              · with_reducible exact keeps_peerPush k11
              · with_reducible exact k11
          · split
            · with_reducible refine keeps_foldl (fun _ _ k8 => keeps_trySolve k8) (keeps_inputPush (keeps_replicaPush (keeps_foldl ?_
                (keeps_pumpJobs (keeps_foldl (fun _ _ k13 => keeps_holderStart k13) h)))))
              intro _ _ k11
              split
              · with_reducible exact keeps_peerPush k11
              · with_reducible exact k11
            · with_reducible refine keeps_inputPush (keeps_replicaPush (keeps_foldl ?_ (keeps_pumpJobs (keeps_foldl (fun _ _ k12 =>
                keeps_holderStart k12) h))))
              intro _ _ k10
              split
              · with_reducible exact keeps_peerPush k10
              · with_reducible exact k10
      · split
        · split
          · split
            · with_reducible exact keeps_foldl (fun _ _ k8 => keeps_trySolve k8) (keeps_event (keeps_pumpJobs (keeps_foldl (fun _ _ k11 =>
                keeps_holderStart k11) h)))
            · with_reducible exact keeps_event (keeps_pumpJobs (keeps_foldl (fun _ _ k10 => keeps_holderStart k10) h))
          · split
            · with_reducible exact keeps_foldl (fun _ _ k8 => keeps_trySolve k8) (keeps_pumpJobs (keeps_foldl (fun _ _ k10 => keeps_holderStart
                k10) h))
            · with_reducible exact keeps_pumpJobs (keeps_foldl (fun _ _ k9 => keeps_holderStart k9) h)
        · split
          · split
            · with_reducible exact keeps_foldl (fun _ _ k8 => keeps_trySolve k8) (keeps_event (keeps_inputPush (keeps_pumpJobs (keeps_foldl (fun _
                _ k12 => keeps_holderStart k12) h))))
            · with_reducible exact keeps_event (keeps_inputPush (keeps_pumpJobs (keeps_foldl (fun _ _ k11 => keeps_holderStart k11) h)))
          · split
            · with_reducible exact keeps_foldl (fun _ _ k8 => keeps_trySolve k8) (keeps_inputPush (keeps_pumpJobs (keeps_foldl (fun _ _ k11 =>
                keeps_holderStart k11) h)))
            · with_reducible exact keeps_inputPush (keeps_pumpJobs (keeps_foldl (fun _ _ k10 => keeps_holderStart k10) h))
    · split
      · split
        · split
          · split
            · with_reducible refine keeps_foldl (fun _ _ k8 => keeps_trySolve k8) (keeps_event (keeps_replicaPush (keeps_foldl ?_ h)))
              intro _ _ k11
              split
              · with_reducible exact keeps_peerPush k11
              · with_reducible exact k11
            · with_reducible refine keeps_event (keeps_replicaPush (keeps_foldl ?_ h))
              intro _ _ k10
              split
              · with_reducible exact keeps_peerPush k10
              · with_reducible exact k10
          · split
            · with_reducible refine keeps_foldl (fun _ _ k8 => keeps_trySolve k8) (keeps_replicaPush (keeps_foldl ?_ h))
              intro _ _ k10
              split
              · with_reducible exact keeps_peerPush k10
              · with_reducible exact k10
            · with_reducible refine keeps_replicaPush (keeps_foldl ?_ h)
              intro _ _ k9
              split
              · with_reducible exact keeps_peerPush k9
              · with_reducible exact k9
        · split
          · split
            · with_reducible refine keeps_foldl (fun _ _ k8 => keeps_trySolve k8) (keeps_event (keeps_inputPush (keeps_replicaPush (keeps_foldl ?_
                h))))
              intro _ _ k12
              split
              · with_reducible exact keeps_peerPush k12
              · with_reducible exact k12
            · with_reducible refine keeps_event (keeps_inputPush (keeps_replicaPush (keeps_foldl ?_ h)))
              intro _ _ k11
              split
              · with_reducible exact keeps_peerPush k11
              · with_reducible exact k11
          · split
            · with_reducible refine keeps_foldl (fun _ _ k8 => keeps_trySolve k8) (keeps_inputPush (keeps_replicaPush (keeps_foldl ?_ h)))
              intro _ _ k11
              split
              · with_reducible exact keeps_peerPush k11
              · with_reducible exact k11
            · with_reducible refine keeps_inputPush (keeps_replicaPush (keeps_foldl ?_ h))
              intro _ _ k10
              split
              · with_reducible exact keeps_peerPush k10
              · with_reducible exact k10
      · split
        · split
          · split
            · with_reducible exact keeps_foldl (fun _ _ k8 => keeps_trySolve k8) (keeps_event h)
            · with_reducible exact keeps_event h
          · split
            · with_reducible exact keeps_foldl (fun _ _ k8 => keeps_trySolve k8) h
            · with_reducible exact h
        · split
          · split
            · with_reducible exact keeps_foldl (fun _ _ k8 => keeps_trySolve k8) (keeps_event (keeps_inputPush h))
            · with_reducible exact keeps_event (keeps_inputPush h)
          · split
            · with_reducible exact keeps_foldl (fun _ _ k8 => keeps_trySolve k8) (keeps_inputPush h)
            · with_reducible exact keeps_inputPush h

theorem keeps_beginRefill {s t : State} {m : RefillMsg} (h : Keeps s t) : Keeps s (beginRefill m t) := by
  unfold beginRefill
  try dsimp only
  split
  · split
    · with_reducible exact keeps_startWork (keeps_takeRoles (keeps_adoptJob h))
    · with_reducible exact keeps_reportRefilled (keeps_mk h)
  · split
    · with_reducible exact h
    · with_reducible refine keeps_startWork (keeps_takeRoles (keeps_mk ?_))
      split
      · with_reducible exact keeps_commitStep h
      · with_reducible exact h

theorem keeps_execRefillStart {e : Env} (s : State) : KeepsNext s (execRefillStart e s) := by
  unfold execRefillStart
  try dsimp only
  split
  · with_reducible refine keepsNext_next ?_
    split
    · with_reducible exact keeps_beginRefill (keeps_applyEnv (keeps_refl _))
    · with_reducible exact keeps_applyEnv (keeps_refl _)
  · with_reducible exact keepsNext_next (keeps_applyEnv (keeps_refl _))

theorem keeps_execRefillDeadline {e : Env} (s : State) : KeepsNext s (execRefillDeadline e s) := by
  unfold execRefillDeadline
  try dsimp only
  split
  · with_reducible refine keepsNext_next ?_
    split
    · with_reducible exact keeps_reportRefilled (keeps_applyEnv (keeps_refl _))
    · with_reducible exact keeps_applyEnv (keeps_refl _)
  · with_reducible exact keepsNext_next (keeps_applyEnv (keeps_refl _))

theorem keeps_refillPacket {s t : State} {h' : PktHead} {window : Nat} {len : Nat} {go : State → State} (h : Keeps s t) (hgo : ∀ u, Keeps s u →
    Keeps s (go u)) : Keeps s (refillPacket h' window len go t) := by
  unfold refillPacket
  try dsimp only
  with_reducible exact keeps_receive h (fun _ k1 => hgo _ (keeps_mk k1))

theorem keeps_takePlot {s t : State} {off : Nat} {bs : Bytes} (h : Keeps s t) : Keeps s (takePlot off bs t) := by
  unfold takePlot
  try dsimp only
  split
  · with_reducible exact h
  · split
    · split
      · with_reducible exact keeps_storeBytes h
      · split
        · with_reducible exact keeps_judgeSpare (keeps_noteClass (keeps_mk (keeps_storeBytes h)))
        · with_reducible exact keeps_mk (keeps_storeBytes h)
    · split
      · with_reducible exact keeps_poke (keeps_mk h)
      · with_reducible exact h

theorem keeps_execRefillPlotStore {e : Env} {h' : PktHead} {bs : Bytes} (s : State) : KeepsNext s (execRefillPlotStore e h' bs s) := by
  unfold execRefillPlotStore
  try dsimp only
  with_reducible exact keepsNext_next (keeps_refillPacket (keeps_applyEnv (keeps_refl _)) (fun _ k2 => keeps_takePlot k2))

theorem keeps_takeCistern {s t : State} {sender : Coord} {off : Nat} {bs : Bytes} (h : Keeps s t) : Keeps s (takeCistern sender off bs t) := by
  unfold takeCistern
  try dsimp only
  split
  · with_reducible exact h
  · split
    · with_reducible exact h
    · with_reducible exact keeps_judgeSpare (keeps_foldl (fun _ _ k4 => keeps_mk (keeps_storeBytes k4)) (keeps_mk h))

theorem keeps_execRefillCisternStore {e : Env} {h' : PktHead} {bs : Bytes} (s : State) : KeepsNext s (execRefillCisternStore e h' bs s) := by
  unfold execRefillCisternStore
  try dsimp only
  with_reducible exact keepsNext_next (keeps_refillPacket (keeps_applyEnv (keeps_refl _)) (fun _ k2 => keeps_takeCistern k2))

theorem keeps_execChainPages {e : Env} {h' : PktHead} {bs : Bytes} (s : State) : KeepsNext s (execChainPages e h' bs s) := by
  unfold execChainPages
  try dsimp only
  with_reducible refine keepsNext_next (keeps_refillPacket (keeps_applyEnv (keeps_refl _)) ?_)
  intro _ k2
  split
  · with_reducible exact k2
  · with_reducible exact keeps_mk k2

theorem keeps_execBankShareStore {e : Env} {h' : PktHead} {bs : Bytes} (s : State) : KeepsNext s (execBankShareStore e h' bs s) := by
  unfold execBankShareStore
  try dsimp only
  with_reducible refine keepsNext_next (keeps_refillPacket (keeps_applyEnv (keeps_refl _)) ?_)
  intro _ k2
  split
  · with_reducible exact k2
  · split
    · with_reducible exact keeps_placeSlot (keeps_mk (keeps_storePages k2))
    · with_reducible exact keeps_mk (keeps_storePages k2)

theorem keeps_takeChainRec {s t : State} {h' : PktHead} {r : ChainRec} {kinds : List Nat} {go : State → State} (h : Keeps s t) (hgo : ∀ u, Keeps s u
    → Keeps s (go u)) : Keeps s (takeChainRec h' r kinds go t) := by
  unfold takeChainRec
  try dsimp only
  split
  · with_reducible exact h
  · with_reducible refine keeps_refillPacket h ?_
    intro _ k2
    split
    · with_reducible exact hgo _ k2
    · with_reducible exact k2

theorem keeps_chainRow {s t : State} {e : Env} {h' : PktHead} {r : ChainRec} {kinds : List Nat} {go : State → State} (h : Keeps s t) (hgo : ∀ u,
    Keeps s u → Keeps s (go u)) : Keeps s (chainRow e h' r kinds go t) := by
  unfold chainRow
  try dsimp only
  with_reducible exact keeps_takeChainRec (keeps_applyEnv h) (fun _ k1 => hgo _ k1)

theorem keeps_execLocalRepairRecord {e : Env} {h' : PktHead} {r : ChainRec} (s : State) : KeepsNext s (execLocalRepairRecord e h' r s) := by
  unfold execLocalRepairRecord
  try dsimp only
  with_reducible exact keepsNext_next (keeps_chainRow (keeps_refl _) (fun _ k2 => keeps_takeChain k2))

theorem keeps_execSyndromeRecord {e : Env} {h' : PktHead} {r : ChainRec} (s : State) : KeepsNext s (execSyndromeRecord e h' r s) := by
  unfold execSyndromeRecord
  try dsimp only
  with_reducible exact keepsNext_next (keeps_chainRow (keeps_refl _) (fun _ k2 => keeps_takeChain k2))

theorem keeps_execRemainderRecord {e : Env} {h' : PktHead} {r : ChainRec} (s : State) : KeepsNext s (execRemainderRecord e h' r s) := by
  unfold execRemainderRecord
  try dsimp only
  with_reducible exact keepsNext_next (keeps_chainRow (keeps_refl _) (fun _ k2 => keeps_takeChain k2))

theorem keeps_execBankRebuildRecord {e : Env} {h' : PktHead} {r : ChainRec} (s : State) : KeepsNext s (execBankRebuildRecord e h' r s) := by
  unfold execBankRebuildRecord
  try dsimp only
  with_reducible refine keepsNext_next (keeps_chainRow (keeps_refl _) ?_)
  intro _ k2
  split
  · with_reducible exact keeps_giveUpChain (keeps_takeChainPages k2)
  · with_reducible exact keeps_takeChain (keeps_mk k2)

theorem keeps_execCreditRecord {e : Env} {h' : PktHead} {r : ChainRec} (s : State) : KeepsNext s (execCreditRecord e h' r s) := by
  unfold execCreditRecord
  try dsimp only
  with_reducible exact keepsNext_next (keeps_chainRow (keeps_refl _) (fun _ k2 => keeps_pumpJobs (keeps_mk k2)))

theorem keeps_execClosureRequest {e : Env} {h' : PktHead} {r : ChainRec} (s : State) : KeepsNext s (execClosureRequest e h' r s) := by
  unfold execClosureRequest
  try dsimp only
  with_reducible exact keepsNext_next (keeps_chainRow (keeps_refl _) (fun _ k2 => keeps_serveClosures (keeps_mk k2)))

theorem keeps_takeOver {s t : State} {i : Nat} {j : Nat} (h : Keeps s t) : Keeps s (takeOver i j t) := by
  unfold takeOver
  try dsimp only
  with_reducible exact keeps_foldl (fun _ _ k1 => keeps_sendChainRec k1) h

theorem keeps_execAbsentRecord {e : Env} {h' : PktHead} {r : ChainRec} (s : State) : KeepsNext s (execAbsentRecord e h' r s) := by
  unfold execAbsentRecord
  try dsimp only
  with_reducible refine keepsNext_next (keeps_chainRow (keeps_refl _) ?_)
  intro _ k2
  split
  · with_reducible exact k2
  · with_reducible refine keeps_judgeSpare (keeps_trySolve ?_)
    split
    · with_reducible exact keeps_takeOver (keeps_mk k2)
    · with_reducible exact keeps_mk k2

theorem keeps_openLinks {s t : State} {sender : Coord} {r : ChainRec} (h : Keeps s t) : Keeps s (openLinks sender r t) := by
  unfold openLinks
  try dsimp only
  split
  · with_reducible exact keeps_mk h
  · with_reducible exact h

theorem keeps_joinChain {s t : State} {i : Nat} {j : Nat} (h : Keeps s t) : Keeps s (joinChain i j t) := by
  unfold joinChain
  try dsimp only
  split
  · split
    · with_reducible exact keeps_addRebuild h
    · with_reducible exact h
  · split
    · with_reducible exact keeps_addRebuild (keeps_mk h)
    · with_reducible exact keeps_mk h

theorem keeps_takeRequest {s t : State} {sender : Coord} {r : ChainRec} (h : Keeps s t) : Keeps s (takeRequest sender r t) := by
  unfold takeRequest
  try dsimp only
  split
  · with_reducible exact h
  · split
    · split
      · split
        · with_reducible exact keeps_pumpJobs (keeps_decoderSource h)
        · with_reducible exact h
      · with_reducible exact h
    · split
      · with_reducible exact keeps_joinChain h
      · with_reducible exact h

theorem keeps_execChainRequest {e : Env} {h' : PktHead} {r : ChainRec} (s : State) : KeepsNext s (execChainRequest e h' r s) := by
  unfold execChainRequest
  try dsimp only
  with_reducible refine keepsNext_next (keeps_takeChainRec ?_ (fun _ k2 => keeps_takeRequest k2))
  split
  · with_reducible exact keeps_openLinks (keeps_applyEnv (keeps_refl _))
  · with_reducible exact keeps_applyEnv (keeps_refl _)

theorem keeps_execDecodedRecord {e : Env} {h' : PktHead} {r : ChainRec} (s : State) : KeepsNext s (execDecodedRecord e h' r s) := by
  unfold execDecodedRecord
  try dsimp only
  with_reducible refine keepsNext_next (keeps_chainRow (keeps_refl _) ?_)
  intro _ k2
  split
  · with_reducible exact k2
  · with_reducible exact keeps_judgeSpare (keeps_noteClass k2)

theorem keeps_execNoGradientRecord {e : Env} {h' : PktHead} {r : ChainRec} (s : State) : KeepsNext s (execNoGradientRecord e h' r s) := by
  unfold execNoGradientRecord
  try dsimp only
  with_reducible refine keepsNext_next (keeps_chainRow (keeps_refl _) ?_)
  intro _ k2
  split
  · with_reducible exact keeps_judgeSpare (keeps_mk k2)
  · with_reducible exact k2

theorem keeps_thaw {s t : State}  (h : Keeps s t) : Keeps s (thaw t) := by
  unfold thaw
  try dsimp only
  split
  · split
    · with_reducible exact keeps_basinEvent (keeps_mk (keeps_joinRebuild h))
    · with_reducible exact keeps_mk (keeps_joinRebuild h)
  · split
    · with_reducible exact keeps_basinEvent (keeps_mk h)
    · with_reducible exact keeps_mk h

theorem keeps_restartStep {s t : State} {instant : Nat} {first : Nat} (h : Keeps s t) : Keeps s (restartStep instant first t) := by
  unfold restartStep
  try dsimp only
  with_reducible exact keeps_mk (keeps_beginStep (keeps_thaw (keeps_mk h)))

theorem keeps_resumeStep {s t : State} {instant : Nat} (h : Keeps s t) : Keeps s (resumeStep instant t) := by
  unfold resumeStep
  try dsimp only
  split
  · with_reducible exact keeps_settleCheck (keeps_mk (keeps_thaw (keeps_mk h)))
  · with_reducible exact keeps_mk (keeps_thaw (keeps_mk h))

theorem keeps_execReleaseInstant {e : Env} (s : State) : KeepsNext s (execReleaseInstant e s) := by
  unfold execReleaseInstant
  try dsimp only
  split
  · with_reducible refine keepsNext_next ?_
    split
    · with_reducible refine keeps_dropLease ?_
      split
      · with_reducible exact keeps_restartStep (keeps_applyEnv (keeps_refl _))
      · with_reducible exact keeps_resumeStep (keeps_applyEnv (keeps_refl _))
    · with_reducible exact keeps_applyEnv (keeps_refl _)
  · with_reducible exact keepsNext_next (keeps_applyEnv (keeps_refl _))

theorem keeps_repairRow {s t : State} {e : Env} {h' : PktHead} {r : RepairRec} {kinds : List Nat} {go : State → State} (h : Keeps s t) (hgo : ∀ u,
    Keeps s u → Keeps s (go u)) : Keeps s (repairRow e h' r kinds go t) := by
  unfold repairRow
  try dsimp only
  split
  · with_reducible exact keeps_applyEnv h
  · with_reducible exact keeps_receive (keeps_applyEnv h) (fun _ k2 => hgo _ k2)

theorem keeps_refuseRepair {s t : State} {r : RepairRec} (h : Keeps s t) : Keeps s (refuseRepair r t) := by
  unfold refuseRepair
  try dsimp only
  with_reducible exact keeps_sendRepair h

theorem keeps_holdStripe {s t : State} {r : RepairRec} (h : Keeps s t) : Keeps s (holdStripe r t) := by
  unfold holdStripe
  try dsimp only
  with_reducible exact keeps_mk h

theorem keeps_maskPages {s t : State} {r : RepairRec} {region : Nat} {at_ : Nat → Nat} (h : Keeps s t) : Keeps s (maskPages r region at_ t).2 := by
  unfold maskPages
  try dsimp only
  with_reducible exact keeps_gather h (fun _ _ k1 => keeps_readPage k1)

theorem keeps_sendMend {s t : State} {dst : Coord} {r : RepairRec} {ps : List (Nat × Bytes)} (h : Keeps s t) : Keeps s (sendMend dst r ps t) := by
  unfold sendMend
  try dsimp only
  with_reducible exact keeps_sendRepair (keeps_sendPages h)

theorem keeps_startMend {s t : State} {r : RepairRec} {j : Nat} {slot : Nat} (h : Keeps s t) : Keeps s (startMend r j slot t) := by
  unfold startMend
  try dsimp only
  split
  · with_reducible refine keeps_refuseRepair ?_
    split
    · with_reducible exact h
    · split
      · with_reducible exact keeps_maskPages h
      · with_reducible exact keeps_escalateUnread (keeps_maskPages h)
  · split
    · with_reducible refine keeps_sendMend (keeps_holdStripe ?_)
      split
      · with_reducible exact h
      · with_reducible exact keeps_maskPages h
    · split
      · with_reducible exact h
      · with_reducible exact keeps_maskPages h

theorem keeps_execRepairRequest {e : Env} {h' : PktHead} {r : RepairRec} (s : State) : KeepsNext s (execRepairRequest e h' r s) := by
  unfold execRepairRequest
  try dsimp only
  with_reducible refine keepsNext_next (keeps_repairRow (keeps_refl _) ?_)
  intro _ k2
  split
  · with_reducible exact keeps_refuseRepair k2
  · split
    · with_reducible exact keeps_refuseRepair k2
    · with_reducible exact keeps_startMend k2

theorem keeps_mendPage {s t : State} {r : RepairRec} {n : Nat} (h : Keeps s t) : Keeps s (mendPage r n t).2 := by
  unfold mendPage
  try dsimp only
  split
  · with_reducible exact keeps_supply h
  · simp only
    with_reducible exact keeps_readPage h

theorem keeps_linkMend {s t : State} {r : RepairRec} {rest : List Coord} (h : Keeps s t) : Keeps s (linkMend r rest t) := by
  unfold linkMend
  try dsimp only
  split
  · split
    · with_reducible exact keeps_sendMend (keeps_gather (keeps_clearBuffer h) (fun _ _ k4 => keeps_mendPage k4))
    · split
      · with_reducible exact keeps_escalateUnread (keeps_escalateUnread (keeps_gather (keeps_clearBuffer h) (fun _ _ k6 => keeps_mendPage k6)))
      · with_reducible exact keeps_escalateUnread (keeps_gather (keeps_clearBuffer h) (fun _ _ k5 => keeps_mendPage k5))
  · with_reducible exact h

theorem keeps_restoreMend {s t : State} {a : Attempt} {r : RepairRec} {page : Bytes} (h : Keeps s t) : Keeps s (restoreMend a r page t).2 := by
  unfold restoreMend
  try dsimp only
  split
  · with_reducible exact h
  · split
    · with_reducible exact h
    · split
      · split
        · split
          · with_reducible exact h
          · simp only
            with_reducible exact keeps_readPage h
        · split
          · with_reducible exact h
          · simp only
            with_reducible exact keeps_readPage h
      · split
        · split
          · split
            · simp only
              with_reducible exact keeps_readPage h
            · with_reducible exact h
          · split
            · simp only
              with_reducible exact keeps_readPage h
            · with_reducible exact h
        · with_reducible exact h

theorem keeps_mendUnread {s t : State} {a : Attempt} (h : Keeps s t) : Keeps s (mendUnread a t) := by
  unfold mendUnread
  try dsimp only
  split
  · with_reducible exact keeps_escalateUnread h
  · split
    · split
      · with_reducible exact keeps_escalateUnread h
      · with_reducible exact h
    · with_reducible exact h

theorem keeps_endMend {s t : State} {r : RepairRec} (h : Keeps s t) : Keeps s (endMend r t) := by
  unfold endMend
  try dsimp only
  split
  · split
    · with_reducible refine keeps_poke (keeps_attemptDone ?_)
      split
      · with_reducible exact keeps_sendRepair (keeps_restoreMend (keeps_clearBuffer h))
      · with_reducible exact keeps_restoreMend (keeps_clearBuffer h)
    · with_reducible refine keeps_poke (keeps_attemptFailed (keeps_mendUnread ?_))
      split
      · with_reducible exact keeps_sendRepair (keeps_restoreMend (keeps_clearBuffer h))
      · with_reducible exact keeps_restoreMend (keeps_clearBuffer h)
  · with_reducible exact keeps_count h
  · with_reducible exact h

theorem keeps_execRepairChainRecord {e : Env} {h' : PktHead} {r : RepairRec} (s : State) : KeepsNext s (execRepairChainRecord e h' r s) := by
  unfold execRepairChainRecord
  try dsimp only
  with_reducible refine keepsNext_next (keeps_repairRow (keeps_refl _) ?_)
  intro _ k2
  split
  · with_reducible exact keeps_endMend k2
  · split
    · with_reducible exact k2
    · split
      · with_reducible exact keeps_linkMend k2
      · with_reducible exact k2

theorem keeps_execRepairDone {e : Env} {h' : PktHead} {r : RepairRec} (s : State) : KeepsNext s (execRepairDone e h' r s) := by
  unfold execRepairDone
  try dsimp only
  with_reducible exact keepsNext_next (keeps_repairRow (keeps_refl _) (fun _ k2 => keeps_poke (keeps_mk k2)))

theorem keeps_execRepairPushRequest {e : Env} {h' : PktHead} {r : RepairRec} (s : State) : KeepsNext s (execRepairPushRequest e h' r s) := by
  unfold execRepairPushRequest
  try dsimp only
  with_reducible refine keepsNext_next (keeps_repairRow (keeps_refl _) ?_)
  intro _ k2
  split
  · split
    · with_reducible refine keeps_refuseRepair (keeps_foldl ?_ ?_)
      · intro _ _ k7
        split
        · with_reducible exact keeps_escalateUnread k7
        · with_reducible exact k7
      · with_reducible refine keeps_gather k2 ?_
        intro _ _ k8
        split
        · with_reducible exact keeps_readPage k8
        · with_reducible exact k8
    · split
      · with_reducible refine keeps_sendMend (keeps_holdStripe (keeps_gather k2 ?_))
        intro _ _ k9
        split
        · with_reducible exact keeps_readPage k9
        · with_reducible exact k9
      · with_reducible refine keeps_sendPages (keeps_gather k2 ?_)
        intro _ _ k8
        split
        · with_reducible exact keeps_readPage k8
        · with_reducible exact k8
  · with_reducible exact keeps_refuseRepair k2

theorem keeps_execRepairPages {e : Env} {h' : PktHead} {bs : Bytes} (s : State) : KeepsNext s (execRepairPages e h' bs s) := by
  unfold execRepairPages
  try dsimp only
  with_reducible refine keepsNext_next (keeps_receive (keeps_applyEnv (keeps_refl _)) ?_)
  intro _ k2
  split
  · with_reducible exact k2
  · split
    · with_reducible exact keeps_poke (keeps_attemptDone k2)
    · with_reducible exact keeps_mk k2

theorem keeps_execRepairRefused {e : Env} {h' : PktHead} {r : RepairRec} (s : State) : KeepsNext s (execRepairRefused e h' r s) := by
  unfold execRepairRefused
  try dsimp only
  with_reducible refine keepsNext_next (keeps_repairRow (keeps_refl _) ?_)
  intro _ k2
  split
  · with_reducible exact keeps_poke (keeps_attemptFailed k2)
  · with_reducible exact keeps_count k2

theorem keeps_execRepairTimeout {e : Env} {tag : Nat} (s : State) : KeepsNext s (execRepairTimeout e tag s) := by
  unfold execRepairTimeout
  try dsimp only
  split
  · with_reducible refine keepsNext_next ?_
    split
    · with_reducible exact keeps_poke (keeps_attemptFailed (keeps_applyEnv (keeps_refl _)))
    · with_reducible exact keeps_applyEnv (keeps_refl _)
  · with_reducible exact keepsNext_next (keeps_applyEnv (keeps_refl _))

theorem keeps_execRestoreScan {e : Env} {q : Fin 16} {j : Nat} (s : State) : KeepsNext s (execRestoreScan e q j s) := by
  unfold execRestoreScan
  try dsimp only
  with_reducible refine keepsNext_next (keeps_withDesc (keeps_applyEnv (keeps_refl _)) ?_)
  intro _ _ k2
  split
  · with_reducible exact keeps_complete k2
  · split
    · with_reducible exact keeps_complete k2
    · with_reducible exact keeps_complete (keeps_hostWrite (keeps_mk k2))

theorem keeps_readFirst {s t : State} {n : Nat} {x0 : List Source} (h : Keeps s t) : Keeps s (readFirst n x0 t).2 := by
  induction x0 generalizing t with
  | nil =>
    unfold readFirst
    try dsimp only
    with_reducible exact h
  | cons y ys ih =>
    unfold readFirst
    try dsimp only
    split
    · simp only
      with_reducible exact keeps_readSource h
    · with_reducible refine ih ?_
      split
      · with_reducible exact keeps_readSource h
      · with_reducible exact keeps_count (keeps_readSource h)

theorem keeps_readRuns {s t : State} {own : List Source} {step : Nat} {p : Plan} {x0 : List Shard} (h : Keeps s t) : Keeps s (readRuns own step p x0
    t).2 := by
  induction x0 generalizing t with
  | nil =>
    unfold readRuns
    try dsimp only
    with_reducible exact h
  | cons y ys ih =>
    unfold readRuns
    try dsimp only
    split
    · simp only
      with_reducible exact keeps_readFirst h
    · with_reducible exact ih (keeps_readFirst h)

theorem keeps_loadRuns {s t : State} {p : Plan} {step : Nat} {own : List Source} {runs : List (Shard × Source × Bytes)} (h : Keeps s t) : Keeps s
    (loadRuns p step own runs t) := by
  unfold loadRuns
  try dsimp only
  with_reducible exact keeps_mk (keeps_applyRestored (keeps_mk (keeps_foldl (fun _ _ k4 => keeps_writePlotChunk k4) h)))

theorem keeps_execRestoreLoad {e : Env} {q : Fin 16} {j : Nat} (s : State) : KeepsNext s (execRestoreLoad e q j s) := by
  unfold execRestoreLoad
  try dsimp only
  with_reducible refine keepsNext_next (keeps_withDesc (keeps_applyEnv (keeps_refl _)) ?_)
  intro _ _ k2
  split
  · with_reducible exact keeps_complete k2
  · split
    · with_reducible exact keeps_complete k2
    · split
      · with_reducible exact keeps_complete k2
      · split
        · with_reducible exact keeps_complete (keeps_mk (keeps_readRuns (keeps_mk k2)))
        · with_reducible exact keeps_complete (keeps_mk (keeps_loadRuns (keeps_readRuns (keeps_mk k2))))

theorem keeps_rebuildNow {s t : State} {before : State} (h : Keeps s t) : Keeps s (rebuildNow before t) := by
  unfold rebuildNow
  try dsimp only
  split
  · with_reducible exact keeps_joinRebuild (keeps_mk h)
  · with_reducible exact h

theorem keeps_execRestoreReslice {e : Env} {q : Fin 16} {j : Nat} (s : State) : KeepsNext s (execRestoreReslice e q j s) := by
  unfold execRestoreReslice
  try dsimp only
  with_reducible refine keepsNext_next (keeps_withDesc (keeps_applyEnv (keeps_refl _)) ?_)
  intro _ _ k2
  split
  · with_reducible exact k2
  · split
    · with_reducible exact keeps_complete k2
    · split
      · with_reducible exact keeps_complete (keeps_mk k2)
      · with_reducible exact keeps_rebuildNow (keeps_pumpChoice (keeps_refreshSlots (keeps_mk k2)))

theorem keeps_restoreRow {s t : State} {e : Env} {h' : PktHead} {cls : Nat} {r : RestoreRec} {kind : Nat} {go : State → State} (h : Keeps s t) (hgo
    : ∀ u, Keeps s u → Keeps s (go u)) : Keeps s (restoreRow e h' cls r kind go t) := by
  unfold restoreRow
  try dsimp only
  split
  · with_reducible exact keeps_applyEnv h
  · with_reducible refine keeps_receive (keeps_applyEnv h) ?_
    intro _ k2
    split
    · with_reducible exact keeps_rebuildNow (hgo _ k2)
    · with_reducible exact k2

theorem keeps_takeKid {s t : State} {h' : PktHead} {r : RestoreRec} (h : Keeps s t) : Keeps s (takeKid h' r t) := by
  unfold takeKid
  try dsimp only
  split
  · with_reducible exact h
  · with_reducible exact keeps_mk h

theorem keeps_execRestoreDataStore {e : Env} {h' : PktHead} {bs : Bytes} (s : State) : KeepsNext s (execRestoreDataStore e h' bs s) := by
  unfold execRestoreDataStore
  try dsimp only
  with_reducible refine keepsNext_next (keeps_receive (keeps_applyEnv (keeps_refl _)) ?_)
  intro _ k2
  split
  · with_reducible exact k2
  · with_reducible exact keeps_rebuildNow (keeps_pumpMove (keeps_finishChunk (keeps_takeBytes k2)))

theorem keeps_execRestoreChoice {e : Env} {h' : PktHead} {r : RestoreRec} (s : State) : KeepsNext s (execRestoreChoice e h' r s) := by
  unfold execRestoreChoice
  try dsimp only
  with_reducible refine keepsNext_next (keeps_restoreRow (keeps_refl _) ?_)
  intro _ k2
  split
  · with_reducible exact keeps_pumpChoice (keeps_takeKid k2)
  · with_reducible exact k2

theorem keeps_execRestoreChoiceVerdict {e : Env} {h' : PktHead} {r : RestoreRec} (s : State) : KeepsNext s (execRestoreChoiceVerdict e h' r s) := by
  unfold execRestoreChoiceVerdict
  try dsimp only
  with_reducible refine keepsNext_next (keeps_restoreRow (keeps_refl _) ?_)
  intro _ k2
  split
  · with_reducible exact keeps_applyChoice k2
  · with_reducible exact k2

theorem keeps_execRestoreCredit {e : Env} {h' : PktHead} {r : RestoreRec} (s : State) : KeepsNext s (execRestoreCredit e h' r s) := by
  unfold execRestoreCredit
  try dsimp only
  with_reducible refine keepsNext_next (keeps_restoreRow (keeps_refl _) ?_)
  intro _ k2
  split
  · with_reducible exact k2
  · with_reducible exact keeps_pumpMove (keeps_mk k2)

theorem keeps_execRestoreWithdraw {e : Env} {h' : PktHead} {r : RestoreRec} (s : State) : KeepsNext s (execRestoreWithdraw e h' r s) := by
  unfold execRestoreWithdraw
  try dsimp only
  with_reducible refine keepsNext_next (keeps_restoreRow (keeps_refl _) ?_)
  intro _ k2
  split
  · with_reducible exact k2
  · with_reducible exact keeps_pumpMove (keeps_fallBack k2)

theorem keeps_execRestoreRequest {e : Env} {h' : PktHead} {r : RestoreRec} (s : State) : KeepsNext s (execRestoreRequest e h' r s) := by
  unfold execRestoreRequest
  try dsimp only
  with_reducible refine keepsNext_next (keeps_restoreRow (keeps_refl _) ?_)
  intro _ k2
  split
  · with_reducible exact k2
  · split
    · split
      · with_reducible exact keeps_pumpMove (keeps_putPiece k2)
      · with_reducible exact k2
    · with_reducible exact k2

theorem keeps_execRestoreDone {e : Env} {h' : PktHead} {r : RestoreRec} (s : State) : KeepsNext s (execRestoreDone e h' r s) := by
  unfold execRestoreDone
  try dsimp only
  with_reducible refine keepsNext_next (keeps_restoreRow (keeps_refl _) ?_)
  intro _ k2
  split
  · with_reducible exact keeps_pumpDone (keeps_takeKid k2)
  · with_reducible exact k2

theorem keeps_execRestoreDoneVerdict {e : Env} {h' : PktHead} {r : RestoreRec} (s : State) : KeepsNext s (execRestoreDoneVerdict e h' r s) := by
  unfold execRestoreDoneVerdict
  try dsimp only
  with_reducible refine keepsNext_next (keeps_restoreRow (keeps_refl _) ?_)
  intro _ k2
  split
  · with_reducible exact keeps_applyDone k2
  · with_reducible exact k2

theorem keeps_execRestoreCutoff {e : Env} (s : State) : KeepsNext s (execRestoreCutoff e s) := by
  unfold execRestoreCutoff
  try dsimp only
  with_reducible refine keepsNext_next ?_
  split
  · with_reducible exact keeps_pumpDone (keeps_pumpChoice (keeps_applyEnv (keeps_refl _)))
  · with_reducible exact keeps_applyEnv (keeps_refl _)

theorem keeps_restoreTimeout {s t : State} {stage : Nat} {at_ : Nat} (h : Keeps s t) : Keeps s (restoreTimeout stage at_ t) := by
  unfold restoreTimeout
  try dsimp only
  split
  · with_reducible exact h
  · split
    · split
      · split
        · with_reducible exact keeps_pumpChoice h
        · with_reducible exact keeps_pumpDone h
      · with_reducible exact h
    · split
      · with_reducible exact keeps_endRestore h
      · with_reducible exact h

theorem keeps_execRestoreChoiceDeadline {e : Env} (s : State) : KeepsNext s (execRestoreChoiceDeadline e s) := by
  unfold execRestoreChoiceDeadline
  try dsimp only
  with_reducible exact keepsNext_next (keeps_rebuildNow (keeps_restoreTimeout (keeps_applyEnv (keeps_refl _))))

theorem keeps_execRestoreDoneDeadline {e : Env} (s : State) : KeepsNext s (execRestoreDoneDeadline e s) := by
  unfold execRestoreDoneDeadline
  try dsimp only
  with_reducible exact keepsNext_next (keeps_rebuildNow (keeps_restoreTimeout (keeps_applyEnv (keeps_refl _))))

theorem keeps_startEvent {s t : State} {outcome : Nat} {missing : Nat} {lowest : Nat} (h : Keeps s t) : Keeps s (startEvent outcome missing lowest
    t) := by
  unfold startEvent
  try dsimp only
  with_reducible exact keeps_event h

theorem keeps_pumpAck {s t : State} {force : Bool} {tree : Nat} (h : Keeps s t) : Keeps s (pumpAck force tree t) := by
  unfold pumpAck
  try dsimp only
  split
  · with_reducible exact h
  · split
    · with_reducible exact h
    · split
      · with_reducible exact h
      · with_reducible exact keeps_sendStore (keeps_mk h)

theorem keeps_pumpAcks {s t : State}  (h : Keeps s t) : Keeps s (pumpAcks t) := by
  unfold pumpAcks
  try dsimp only
  with_reducible exact keeps_pumpAck (keeps_pumpAck h)

theorem keeps_broadcastStart {s t : State} {kind : Nat} {f : StartFields} (h : Keeps s t) : Keeps s (broadcastStart kind f t) := by
  unfold broadcastStart
  try dsimp only
  with_reducible exact keeps_send (keeps_send h)

theorem keeps_stageRoot {s t : State} {f : StartFields} (h : Keeps s t) : Keeps s (stageRoot f t) := by
  unfold stageRoot
  try dsimp only
  with_reducible exact keeps_broadcastStart (keeps_mk h)

theorem keeps_startRow {s t : State} {e : Env} {h' : PktHead} {cls : Nat} {kind : Nat} {r : StartRec} {go : State → State} (h : Keeps s t) (hgo : ∀
    u, Keeps s u → Keeps s (go u)) : Keeps s (startRow e h' cls kind r go t) := by
  unfold startRow
  try dsimp only
  with_reducible refine keeps_receive (keeps_applyEnv h) ?_
  intro _ k1
  split
  · with_reducible exact hgo _ k1
  · with_reducible exact k1

theorem keeps_execStartRecord {e : Env} {h' : PktHead} {r : StartRec} (s : State) : KeepsNext s (execStartRecord e h' r s) := by
  unfold execStartRecord
  try dsimp only
  with_reducible refine keepsNext_next (keeps_startRow (keeps_refl _) ?_)
  intro _ k2
  split
  · split
    · with_reducible exact k2
    · with_reducible exact keeps_ignored (keeps_mk k2)
  · split
    · with_reducible exact keeps_pumpAcks (keeps_mk k2)
    · with_reducible exact k2

theorem keeps_withStart {s t : State} {r : StartRec} {go : StagedStart → State → State} (h : Keeps s t) (hgo : ∀ y0 u, Keeps s u → Keeps s (go y0
    u)) : Keeps s (withStart r go t) := by
  unfold withStart
  try dsimp only
  split
  · split
    · with_reducible exact hgo _ _ h
    · with_reducible exact keeps_count h
  · with_reducible exact keeps_count h

theorem keeps_execStartAckRecord {e : Env} {h' : PktHead} {r : StartRec} (s : State) : KeepsNext s (execStartAckRecord e h' r s) := by
  unfold execStartAckRecord
  try dsimp only
  with_reducible refine keepsNext_next (keeps_startRow (keeps_refl _) ?_)
  intro _ k2
  with_reducible refine keeps_withStart k2 ?_
  intro _ _ k4
  split
  · with_reducible exact keeps_count k4
  · split
    · with_reducible exact k4
    · with_reducible exact keeps_pumpAck (keeps_mk k4)

theorem keeps_execStartAckCutoff {e : Env} {ackTree : Nat} (s : State) : KeepsNext s (execStartAckCutoff e ackTree s) := by
  unfold execStartAckCutoff
  try dsimp only
  split
  · with_reducible exact keepsNext_next (keeps_applyEnv (keeps_refl _))
  · with_reducible refine keepsNext_next ?_
    split
    · with_reducible exact keeps_pumpAck (keeps_applyEnv (keeps_refl _))
    · with_reducible exact keeps_applyEnv (keeps_refl _)

theorem keeps_holdOutcome {s t : State} {n : Nat} (h : Keeps s t) : Keeps s (holdOutcome n t) := by
  unfold holdOutcome
  try dsimp only
  split
  · split
    · with_reducible exact keeps_mk h
    · with_reducible exact h
  · with_reducible exact h

theorem keeps_execGoRecord {e : Env} {h' : PktHead} {r : StartRec} (s : State) : KeepsNext s (execGoRecord e h' r s) := by
  unfold execGoRecord
  try dsimp only
  with_reducible exact keepsNext_next (keeps_startRow (keeps_refl _) (fun _ k2 => keeps_withStart k2 (fun _ _ k4 => keeps_holdOutcome k4)))

theorem keeps_execAbortStartRecord {e : Env} {h' : PktHead} {r : StartRec} (s : State) : KeepsNext s (execAbortStartRecord e h' r s) := by
  unfold execAbortStartRecord
  try dsimp only
  with_reducible exact keepsNext_next (keeps_startRow (keeps_refl _) (fun _ k2 => keeps_withStart k2 (fun _ _ k4 => keeps_holdOutcome k4)))

theorem keeps_execStartDeadline {e : Env} (s : State) : KeepsNext s (execStartDeadline e s) := by
  unfold execStartDeadline
  try dsimp only
  split
  · with_reducible exact keepsNext_next (keeps_applyEnv (keeps_refl _))
  · split
    · with_reducible exact keepsNext_next (keeps_applyEnv (keeps_refl _))
    · with_reducible exact keepsNext_next (keeps_startEvent (keeps_broadcastStart (keeps_mk (keeps_applyEnv (keeps_refl _)))))

theorem keeps_abortStart {s t : State} {cause : Nat} (h : Keeps s t) : Keeps s (abortStart cause t) := by
  unfold abortStart
  try dsimp only
  split
  · with_reducible exact keeps_ignored h
  · split
    · split
      · with_reducible exact keeps_broadcastStart (keeps_mk h)
      · with_reducible exact keeps_ignored h
    · split
      · with_reducible exact keeps_mk h
      · with_reducible exact keeps_ignored h

theorem keeps_execStartInstant {e : Env} (s : State) : KeepsNext s (execStartInstant e s) := by
  unfold execStartInstant
  try dsimp only
  split
  · with_reducible exact keepsNext_next (keeps_applyEnv (keeps_refl _))
  · split
    · with_reducible exact keepsNext_next (keeps_applyEnv (keeps_refl _))
    · with_reducible refine keepsNext_next ?_
      split
      · with_reducible exact keeps_mk (keeps_applyEnv (keeps_refl _))
      · split
        · with_reducible exact keeps_mk (keeps_applyEnv (keeps_refl _))
        · with_reducible exact keeps_startEvent (keeps_mk (keeps_applyEnv (keeps_refl _)))

theorem keeps_modeEvent {s t : State} {status : Nat} {cause : Nat} (h : Keeps s t) : Keeps s (modeEvent status cause t) := by
  unfold modeEvent
  try dsimp only
  with_reducible exact keeps_event h

theorem keeps_takeMode {s t : State} {cause : Nat} {m : PendingMode} (h : Keeps s t) : Keeps s (takeMode cause m t) := by
  unfold takeMode
  try dsimp only
  split
  · split
    · with_reducible exact keeps_mk h
    · with_reducible exact keeps_ignored h
  · split
    · with_reducible exact keeps_ignored h
    · split
      · with_reducible exact keeps_mk h
      · with_reducible exact keeps_modeEvent (keeps_mk h)

theorem keeps_execModeChangeInstant {e : Env} (s : State) : KeepsNext s (execModeChangeInstant e s) := by
  unfold execModeChangeInstant
  try dsimp only
  split
  · with_reducible exact keepsNext_next (keeps_applyEnv (keeps_refl _))
  · split
    · with_reducible exact keepsNext_next (keeps_applyEnv (keeps_refl _))
    · with_reducible refine keepsNext_next ?_
      split
      · split
        · with_reducible exact keeps_modeEvent (keeps_mk (keeps_applyCommit (keeps_applyEnv (keeps_refl _))))
        · split
          · with_reducible exact keeps_applyCommit (keeps_applyEnv (keeps_refl _))
          · with_reducible exact keeps_dropLease (keeps_evalAll (keeps_mk (keeps_applyCommit (keeps_applyEnv (keeps_refl _)))))
      · simp only
        split
        · with_reducible exact keeps_modeEvent (keeps_mk (keeps_applyEnv (keeps_refl _)))
        · split
          · with_reducible exact keeps_applyEnv (keeps_refl _)
          · with_reducible exact keeps_dropLease (keeps_evalAll (keeps_mk (keeps_applyEnv (keeps_refl _))))

theorem keeps_setBank {s t : State} {i : Nat} {b : Bank} (h : Keeps s t) : Keeps s (setBank i b t) := by
  unfold setBank
  try dsimp only
  with_reducible exact keeps_mk h

theorem keeps_writeJournal {s t : State}  (h : Keeps s t) : Keeps s (writeJournal t) := by
  unfold writeJournal
  try dsimp only
  with_reducible exact keeps_issueBarrier (keeps_mk h)

theorem keeps_writeSettings {s t : State} {version : Nat} {copy : Nat} {trims : List Nat} {priv : Bytes} (h : Keeps s t) : Keeps s (writeSettings
    version copy trims priv t) := by
  unfold writeSettings
  try dsimp only
  with_reducible exact keeps_flashWrite h

theorem keeps_zeroSettings {s t : State} {copy : Nat} (h : Keeps s t) : Keeps s (zeroSettings copy t) := by
  unfold zeroSettings
  try dsimp only
  with_reducible exact keeps_flashWrite h

theorem keeps_failStart {s t : State} {st : StartIn} {k : Nat} {cause : Nat} (h : Keeps s t) : Keeps s (failStart st k cause t) := by
  unfold failStart
  try dsimp only
  split
  · with_reducible refine keeps_mk ?_
    split
    · with_reducible exact keeps_writeJournal (keeps_mk h)
    · with_reducible exact keeps_mk h
  · with_reducible refine keeps_event (keeps_mk ?_)
    split
    · with_reducible exact keeps_writeJournal (keeps_mk h)
    · with_reducible exact keeps_mk h

theorem keeps_stage1 {s t : State} {st : StartIn} (h : Keeps s t) : Keeps s (stage1 st t).2 := by
  unfold stage1
  try dsimp only
  split
  · simp only [keeps_mk_iff]
    with_reducible refine keeps_writeJournal (keeps_mk ?_)
    split
    · with_reducible exact h
    · split <;> exact keeps_mk h
  · simp only [keeps_mk_iff]
    split
    · with_reducible exact h
    · split <;> exact keeps_mk h

theorem keeps_stage2 {s t : State} {st : StartIn} (h : Keeps s t) : Keeps s (stage2 st t).2 := by
  unfold stage2
  try dsimp only
  split
  · with_reducible exact h
  · simp only
    with_reducible exact keeps_widePut (keeps_regPut (keeps_mk h))

theorem keeps_stage3 {s t : State} {st : StartIn} (h : Keeps s t) : Keeps s (stage3 st t).2 := by
  unfold stage3
  try dsimp only
  split
  · with_reducible exact h
  · split
    · simp only
      with_reducible exact keeps_regPut (keeps_regPut (keeps_mk h))
    · simp only
      with_reducible exact keeps_issueBarrier (keeps_zeroManifests (keeps_flashWrite (keeps_regPut (keeps_regPut (keeps_mk h)))))

theorem keeps_stage5 {s t : State}  (h : Keeps s t) : Keeps s (stage5 t).2 := by
  unfold stage5
  try dsimp only
  split
  · simp only
    split
    · split
      · with_reducible exact keeps_setBank h
      · with_reducible exact keeps_zeroSettings (keeps_setBank h)
    · with_reducible exact h
  · simp only [keeps_mk_iff]
    split
    · split
      · with_reducible exact keeps_setBank h
      · with_reducible exact keeps_zeroSettings (keeps_setBank h)
    · with_reducible exact h

theorem keeps_stage6 {s t : State} {st : StartIn} (h : Keeps s t) : Keeps s (stage6 st t).2 := by
  unfold stage6
  try dsimp only
  split
  · simp only [keeps_mk_iff]
    with_reducible exact h
  · with_reducible exact h

theorem keeps_findPond {s t : State}  (h : Keeps s t) : Keeps s (findPond t) := by
  unfold findPond
  try dsimp only
  split
  · with_reducible exact keeps_setPondState h
  · split
    · with_reducible exact keeps_setPondState h
    · split
      · with_reducible exact keeps_setPondState h
      · with_reducible exact keeps_setPondState (keeps_mk h)

theorem keeps_stage8 {s t : State}  (h : Keeps s t) : Keeps s (stage8 t).2 := by
  unfold stage8
  try dsimp only
  split
  · with_reducible exact h
  · simp only
    with_reducible exact keeps_refreshSlots (keeps_findPond (keeps_mk h))

theorem keeps_stage9 {s t : State}  (h : Keeps s t) : Keeps s (stage9 t) := by
  unfold stage9
  try dsimp only
  with_reducible exact keeps_event (keeps_mk (keeps_writeJournal (keeps_mk h)))

theorem keeps_stageWork {s t : State} {st : StartIn} {k : Nat} (h : Keeps s t) : Keeps s (stageWork st k t).2 := by
  unfold stageWork
  try dsimp only
  split
  · with_reducible exact keeps_stage1 h
  · split
    · with_reducible exact keeps_stage2 h
    · split
      · with_reducible exact keeps_stage3 h
      · split
        · split
          · simp only
            with_reducible exact keeps_regPut h
          · with_reducible exact h
        · split
          · with_reducible exact keeps_stage5 h
          · split
            · with_reducible exact keeps_stage6 h
            · split
              · split
                · simp only
                  with_reducible exact keeps_regPut h
                · simp only
                  with_reducible exact keeps_regPut h
              · with_reducible exact keeps_stage8 h

theorem keeps_startTrap {s t : State} {st : StartIn} {k : Nat} (h : Keeps s t) : Keeps s (startTrap st k t) := by
  unfold startTrap
  try dsimp only
  with_reducible exact keeps_failStart (keeps_setCtl (keeps_flagEvent (keeps_regPut (keeps_count h))))

theorem keeps_runStages {s t : State} {st : StartIn} {x0 : Nat} {x1 : Nat} (h : Keeps s t) : Keeps s (runStages st x0 x1 t) := by
  induction x0 generalizing t x1 with
  | zero =>
    unfold runStages
    try dsimp only
    split
    · with_reducible exact keeps_failStart h
    · split
      · with_reducible exact keeps_startTrap h
      · with_reducible exact keeps_stage9 h
  | succ n ih =>
    unfold runStages
    try dsimp only
    split
    · with_reducible exact keeps_mk h
    · split
      · with_reducible exact keeps_startTrap (keeps_mk h)
      · split
        · with_reducible exact ih (keeps_pair (by assumption) (keeps_stageWork (keeps_mk h)))
        · with_reducible exact keeps_failStart (keeps_pair (by assumption) (keeps_stageWork (keeps_mk h)))

theorem keeps_runStart {s t : State} {st : StartIn} (h : Keeps s t) : Keeps s (runStart st t) := by
  unfold runStart
  try dsimp only
  with_reducible exact keeps_runStages (keeps_regPut (keeps_widePut (keeps_regPut (keeps_count (keeps_mk h)))))

theorem keeps_execFwStageDesc {e : Env} {q : Fin 16} {j : Nat} (s : State) : KeepsNext s (execFwStageDesc e q j s) := by
  unfold execFwStageDesc
  try dsimp only
  with_reducible refine keepsNext_next (keeps_withDesc (keeps_applyEnv (keeps_refl _)) ?_)
  intro _ _ k2
  split
  · with_reducible exact keeps_complete (keeps_mk k2)
  · split
    · with_reducible exact keeps_complete (keeps_mk k2)
    · split
      · with_reducible exact keeps_complete (keeps_mk k2)
      · split
        · with_reducible exact keeps_complete (keeps_mk k2)
        · with_reducible exact keeps_complete (keeps_mk (keeps_flashWrite (keeps_mk k2)))

theorem keeps_stageFirmware {s t : State} {cause : Nat} {action : Nat} {p : Nat} {v : Nat} {digest : Bytes} (h : Keeps s t) : Keeps s (stageFirmware
    cause action p v digest t) := by
  unfold stageFirmware
  try dsimp only
  split
  · with_reducible exact keeps_fwEvent h
  · split
    · with_reducible exact keeps_fwEvent (keeps_writeJournal (keeps_setBank (keeps_foldl (fun _ _ k6 => keeps_flashWrite k6) h)))
    · with_reducible exact keeps_fwEvent h

theorem keeps_activateFirmware {s t : State} {cause : Nat} {version : Nat} {deadline : Nat} (h : Keeps s t) : Keeps s (activateFirmware cause
    version deadline t) := by
  unfold activateFirmware
  try dsimp only
  split
  · with_reducible exact keeps_mk h
  · with_reducible exact keeps_ignored h

theorem keeps_settingsAt {s t : State} {new : Nat} {version : Nat} (h : Keeps s t) : Keeps s (settingsAt new version t) := by
  unfold settingsAt
  try dsimp only
  split
  · with_reducible exact keeps_writeSettings (keeps_mk (keeps_zeroSettings (keeps_zeroSettings (keeps_mk h))))
  · with_reducible exact keeps_writeSettings (keeps_mk h)

theorem keeps_execHandover {e : Env} {ready : Bool} (s : State) : KeepsNext s (execHandover e ready s) := by
  unfold execHandover
  try dsimp only
  split
  · with_reducible exact keepsNext_next (keeps_applyEnv (keeps_refl _))
  · split
    · with_reducible exact keepsNext_next (keeps_applyEnv (keeps_refl _))
    · split
      · with_reducible exact keepsNext_next (keeps_fwEvent (keeps_writeJournal (keeps_mk (keeps_settingsAt (keeps_setBank (keeps_mk
          (keeps_applyEnv (keeps_refl _))))))))
      · with_reducible exact keepsNext_next (keeps_fwEvent (keeps_flagEvent (keeps_mk (keeps_writeJournal (keeps_setBank (keeps_mk (keeps_applyEnv
          (keeps_refl _))))))))

theorem keeps_execActivationLapse {e : Env} (s : State) : KeepsNext s (execActivationLapse e s) := by
  unfold execActivationLapse
  try dsimp only
  split
  · with_reducible exact keepsNext_next (keeps_applyEnv (keeps_refl _))
  · with_reducible refine keepsNext_next ?_
    split
    · with_reducible exact keeps_lapseActivation (keeps_applyEnv (keeps_refl _))
    · with_reducible exact keeps_applyEnv (keeps_refl _)

theorem keeps_confirmFirmware {s t : State} {cause : Nat} {version : Nat} (h : Keeps s t) : Keeps s (confirmFirmware cause version t) := by
  unfold confirmFirmware
  try dsimp only
  split
  · with_reducible refine keeps_fwEvent (keeps_writeJournal (keeps_mk (keeps_setBank (keeps_setBank ?_))))
    split
    · with_reducible exact h
    · with_reducible exact keeps_zeroSettings h
  · with_reducible exact keeps_ignored h

theorem keeps_reportStatus {s t : State} {cause : Nat} (h : Keeps s t) : Keeps s (reportStatus cause t) := by
  unfold reportStatus
  try dsimp only
  with_reducible exact keeps_event h

theorem keeps_takeMap {s t u : State} {tag extent coord tree geom axis planId : Nat} (h : Keeps s t)
    (e : takeMap tag extent coord tree geom axis planId t = some u) : Keeps s u := by
  unfold takeMap at e
  dsimp only at e
  split at e
  · cases e
  · rw [← Option.some.inj e]
    with_reducible refine keeps_mk (keeps_stage (keeps_stage (keeps_stage (keeps_stage ?_))))
    split
    · with_reducible exact h
    · with_reducible exact keeps_stage h

theorem keeps_takePart {s t : State} {part : Nat} {parts : Nat} {id : Nat} {committed : Nat} {commitAt : Nat} {startAt : Nat} {deadline : Nat} {lost
    : List Coord} (h : Keeps s t) : Keeps s (takePart part parts id committed commitAt startAt deadline lost t) := by
  unfold takePart
  try dsimp only
  split
  · with_reducible exact h
  · split
    · split
      · with_reducible exact keeps_ignored (keeps_mk h)
      · split
        · with_reducible exact keeps_mk h
        · split
          · split
            · split
              · with_reducible exact keeps_acceptRefill h
              · with_reducible exact keeps_ignored (keeps_mk h)
            · simp only
              split
              · with_reducible exact keeps_acceptRefill h
              · with_reducible exact keeps_ignored (keeps_mk h)
          · simp only
            split
            · with_reducible exact keeps_acceptRefill h
            · with_reducible exact keeps_ignored (keeps_mk h)
    · split
      · with_reducible exact keeps_ignored (keeps_mk h)
      · split
        · with_reducible exact keeps_mk h
        · split
          · split
            · split
              · with_reducible exact keeps_acceptRefill h
              · with_reducible exact keeps_ignored (keeps_mk h)
            · simp only
              split
              · with_reducible exact keeps_acceptRefill h
              · with_reducible exact keeps_ignored (keeps_mk h)
          · simp only
            split
            · with_reducible exact keeps_acceptRefill h
            · with_reducible exact keeps_ignored (keeps_mk h)

theorem keeps_actFrame {s t : State} {st : StartIn} {f : FrameHead} {m : CulMsg} (h : Keeps s t) : Keeps s (actFrame st f m t).2 := by
  unfold actFrame
  try dsimp only
  split
  · simp only
    with_reducible exact keeps_reportStatus h
  · split
    · simp only
      with_reducible exact keeps_takeMap h (by assumption)
    · simp only
      with_reducible exact keeps_ignored h
  · simp only
    with_reducible refine keeps_reportFrozen ?_
    split
    · with_reducible exact h
    · with_reducible exact keeps_freeze h
  · split
    · simp only [keeps_mk_iff]
      with_reducible exact h
    · simp only
      with_reducible exact keeps_ignored h
  · simp only
    with_reducible exact keeps_takePart h
  · simp only [keeps_mk_iff]
    with_reducible exact h
  · split
    · simp only
      with_reducible exact keeps_ignored h
    · simp only
      with_reducible exact keeps_takeMode h
  · split
    · simp only
      with_reducible exact keeps_stageRoot h
    · simp only
      with_reducible exact keeps_ignored h
  · split
    · simp only
      with_reducible exact keeps_abortStart h
    · simp only
      with_reducible exact keeps_ignored h
  · simp only
    with_reducible exact keeps_stageFirmware h
  · simp only
    with_reducible exact keeps_activateFirmware h
  · simp only
    with_reducible exact keeps_confirmFirmware h
  · split
    · simp only
      with_reducible exact keeps_runStart (keeps_writeJournal (keeps_mk h))
    · simp only
      with_reducible exact keeps_ignored h

theorem keeps_handleFrame {s t : State} {st : StartIn} {f : FrameHead} {m : CulMsg} (h : Keeps s t) : Keeps s (handleFrame st f m t) := by
  unfold handleFrame
  try dsimp only
  split
  · with_reducible exact keeps_ignored (keeps_count h)
  · split
    · with_reducible exact keeps_ignored (keeps_count (keeps_mk h))
    · split
      · with_reducible exact keeps_ignored (keeps_count (keeps_mk h))
      · split
        · with_reducible exact keeps_ignored (keeps_count (keeps_mk h))
        · split
          · with_reducible exact keeps_mk (keeps_actFrame (keeps_count (keeps_mk h)))
          · with_reducible exact keeps_actFrame (keeps_count (keeps_mk h))

theorem keeps_wakeFrame {s t : State} {query : Bool} (h : Keeps s t) : Keeps s (wakeFrame query t) := by
  unfold wakeFrame
  try dsimp only
  split
  · with_reducible exact h
  · with_reducible exact keeps_wake h

theorem keeps_acceptFrame {s t : State} {st : StartIn} {f : FrameHead} {m : CulMsg} (h : Keeps s t) : Keeps s (acceptFrame st f m t) := by
  unfold acceptFrame
  try dsimp only
  split
  · with_reducible exact h
  · split
    · split
      · with_reducible exact keeps_mk (keeps_wakeFrame h)
      · with_reducible exact keeps_wakeFrame h
    · with_reducible exact keeps_handleFrame (keeps_wakeFrame h)

theorem keeps_handleHeld {s t : State} {st : StartIn} (h : Keeps s t) : Keeps s (handleHeld st t) := by
  unfold handleHeld
  try dsimp only
  with_reducible exact keeps_foldl (fun _ _ k1 => keeps_handleFrame k1) (keeps_mk h)

theorem keeps_frameRow {e : Env} {f : FrameHead} {m : CulMsg} (s : State) : KeepsNext s (frameRow e f m s) := by
  unfold frameRow
  try dsimp only
  with_reducible exact keepsNext_next (keeps_acceptFrame (keeps_applyEnv (keeps_refl _)))

theorem keeps_execQueryStatus {e : Env} {f : FrameHead} (s : State) : KeepsNext s (execQueryStatus e f s) := by
  unfold execQueryStatus
  try dsimp only
  with_reducible exact keeps_frameRow _

theorem keeps_execBasinMap {e : Env} {f : FrameHead} {extent : Nat} {coord : Nat} {tree : Nat} {geom : Nat} {axis : Nat} {planId : Nat} (s : State)
    : KeepsNext s (execBasinMap e f extent coord tree geom axis planId s) := by
  unfold execBasinMap
  try dsimp only
  with_reducible exact keeps_frameRow _

theorem keeps_execFreezeJob {e : Env} {f : FrameHead} (s : State) : KeepsNext s (execFreezeJob e f s) := by
  unfold execFreezeJob
  try dsimp only
  with_reducible exact keeps_frameRow _

theorem keeps_execReleaseJob {e : Env} {f : FrameHead} {refillId : Nat} {kind : Nat} {instant : Nat} {firstTurn : Nat} (s : State) : KeepsNext s
    (execReleaseJob e f refillId kind instant firstTurn s) := by
  unfold execReleaseJob
  try dsimp only
  with_reducible exact keeps_frameRow _

theorem keeps_execBeginRefill {e : Env} {part : Nat} {parts : Nat} {refillId : Nat} {committed : Nat} {commitAt : Nat} {startAt : Nat} {deadline :
    Nat} {lost : List Coord} (s : State) : KeepsNext s (execBeginRefill e part parts refillId committed commitAt startAt deadline lost s) := by
  unfold execBeginRefill
  try dsimp only
  with_reducible exact keeps_frameRow _

theorem keeps_execPolicy {e : Env} {f : FrameHead} {step : Nat} {pol : Nat} (s : State) : KeepsNext s (execPolicy e f step pol s) := by
  unfold execPolicy
  try dsimp only
  with_reducible exact keeps_frameRow _

theorem keeps_execModeChange {e : Env} {f : FrameHead} {epoch : Nat} {instant : Nat} {mode : Nat} {flags : Nat} (s : State) : KeepsNext s
    (execModeChange e f epoch instant mode flags s) := by
  unfold execModeChange
  try dsimp only
  with_reducible exact keeps_frameRow _

theorem keeps_execStart {e : Env} {f : FrameHead} {jobChips : Nat} {epoch : Nat} {instant : Nat} {deadline : Nat} {routeBound : Nat} {treeA : Nat}
    {treeB : Nat} (s : State) : KeepsNext s (execStart e f jobChips epoch instant deadline routeBound treeA treeB s) := by
  unfold execStart
  try dsimp only
  with_reducible exact keeps_frameRow _

theorem keeps_execStartAbort {e : Env} {f : FrameHead} (s : State) : KeepsNext s (execStartAbort e f s) := by
  unfold execStartAbort
  try dsimp only
  with_reducible exact keeps_frameRow _

theorem keeps_execFirmwareStage {e : Env} {f : FrameHead} {action : Nat} {parts : Nat} {version : Nat} {digest : Bytes} (s : State) : KeepsNext s
    (execFirmwareStage e f action parts version digest s) := by
  unfold execFirmwareStage
  try dsimp only
  with_reducible exact keeps_frameRow _

theorem keeps_execFirmwareActivate {e : Env} {f : FrameHead} {version : Nat} {deadline : Nat} (s : State) : KeepsNext s (execFirmwareActivate e f
    version deadline s) := by
  unfold execFirmwareActivate
  try dsimp only
  with_reducible exact keeps_frameRow _

theorem keeps_execFirmwareConfirm {e : Env} {f : FrameHead} {version : Nat} (s : State) : KeepsNext s (execFirmwareConfirm e f version s) := by
  unfold execFirmwareConfirm
  try dsimp only
  with_reducible exact keeps_frameRow _

theorem keeps_execClearDry {e : Env} {f : FrameHead} {serial : Nat} {st : StartIn} (s : State) : KeepsNext s (execClearDry e f serial st s) := by
  unfold execClearDry
  try dsimp only
  with_reducible exact keepsNext_next (keeps_acceptFrame (keeps_applyEnv (keeps_refl _)))

theorem keeps_execCulvertBadFrame {e : Env} {bad : BadFrame} (s : State) : KeepsNext s (execCulvertBadFrame e bad s) := by
  unfold execCulvertBadFrame
  try dsimp only
  with_reducible refine keepsNext_next ?_
  split
  · with_reducible exact keeps_applyEnv (keeps_refl _)
  · split
    · with_reducible exact keeps_count (keeps_wakeFrame (keeps_applyEnv (keeps_refl _)))
    · with_reducible exact keeps_count (keeps_wakeFrame (keeps_applyEnv (keeps_refl _)))
    · with_reducible exact keeps_ignored (keeps_count (keeps_wakeFrame (keeps_applyEnv (keeps_refl _))))

theorem keeps_issueFrame {s t : State} {type : Nat} {f : Frame} (h : Keeps s t) : Keeps s (issueFrame type f t) := by
  unfold issueFrame
  try dsimp only
  with_reducible exact keeps_count (keeps_mk h)

theorem keeps_sendEvent {s t : State}  (h : Keeps s t) : Keeps s (sendEvent t) := by
  unfold sendEvent
  try dsimp only
  split
  · with_reducible exact h
  · split
    · with_reducible exact h
    · with_reducible exact keeps_issueFrame (keeps_mk h)

theorem keeps_execEvent {e : Env} (s : State) : KeepsNext s (execEvent e s) := by
  unfold execEvent
  try dsimp only
  with_reducible refine keepsNext_next ?_
  split
  · with_reducible exact keeps_sendEvent (keeps_applyEnv (keeps_refl _))
  · with_reducible exact keeps_applyEnv (keeps_refl _)

theorem keeps_flushEvents {s t : State} {x0 : Nat} (h : Keeps s t) : Keeps s (flushEvents x0 t) := by
  induction x0 generalizing t with
  | zero =>
    unfold flushEvents
    try dsimp only
    with_reducible exact h
  | succ n ih =>
    unfold flushEvents
    try dsimp only
    with_reducible exact ih (keeps_sendEvent h)

theorem keeps_execHeartbeat {e : Env} (s : State) : KeepsNext s (execHeartbeat e s) := by
  unfold execHeartbeat
  try dsimp only
  with_reducible refine keepsNext_next ?_
  split
  · with_reducible exact keeps_issueFrame (keeps_mk (keeps_applyEnv (keeps_refl _)))
  · with_reducible exact keeps_applyEnv (keeps_refl _)

theorem keeps_execDryEventRepeat {e : Env} (s : State) : KeepsNext s (execDryEventRepeat e s) := by
  unfold execDryEventRepeat
  try dsimp only
  with_reducible refine keepsNext_next ?_
  split
  · with_reducible exact keeps_event (keeps_mk (keeps_applyEnv (keeps_refl _)))
  · with_reducible exact keeps_applyEnv (keeps_refl _)

theorem keeps_survivors {s t : State} {code : Nat} (h : Keeps s t) : Keeps s (survivors code t) := by
  unfold survivors
  try dsimp only
  with_reducible exact keeps_mk (keeps_voidTarget h)

theorem keeps_afterChipReset {s t : State} {code : Nat} (h : Keeps s t) : Keeps s (afterChipReset code t) := by
  unfold afterChipReset
  try dsimp only
  with_reducible exact keeps_mk (keeps_survivors h)

theorem keeps_retireTag {s t : State}  (h : Keeps s t) : Keeps s (retireTag t) := by
  unfold retireTag
  try dsimp only
  split
  · with_reducible exact h
  · with_reducible exact keeps_widePut (keeps_regPut h)

theorem keeps_execEngineReset {e : Env} {st : StartIn} (s : State) : KeepsNext s (execEngineReset e st s) := by
  unfold execEngineReset
  try dsimp only
  split
  · with_reducible exact keepsNext_next (keeps_applyEnv (keeps_refl _))
  · with_reducible refine keepsNext_next (keeps_runStart ?_)
    split
    · with_reducible exact keeps_fwEvent (keeps_survivors (keeps_retireTag (keeps_applyEnv (keeps_refl _))))
    · with_reducible exact keeps_survivors (keeps_retireTag (keeps_applyEnv (keeps_refl _)))

theorem keeps_execChipColdReset {e : Env} {st : StartIn} (s : State) : KeepsNext s (execChipColdReset e st s) :=
  keepsNext_next (keeps_runStart (keeps_mem (keeps_afterChipReset (keeps_applyEnv (keeps_refl s))) (fun _ => rfl) (fun _ => rfl) id id))

theorem keeps_execChipWarmReset {e : Env} {st : StartIn} (s : State) : KeepsNext s (execChipWarmReset e st s) := by
  unfold execChipWarmReset
  try dsimp only
  with_reducible exact keepsNext_next (keeps_runStart (keeps_afterChipReset (keeps_applyEnv (keeps_refl _))))

theorem keeps_execStartRetry {e : Env} {st : StartIn} (s : State) : KeepsNext s (execStartRetry e st s) := by
  unfold execStartRetry
  try dsimp only
  with_reducible refine keepsNext_next ?_
  split
  · split
    · with_reducible exact keeps_runStart (keeps_applyEnv (keeps_refl _))
    · with_reducible exact keeps_applyEnv (keeps_refl _)
  · with_reducible exact keeps_applyEnv (keeps_refl _)

theorem keeps_powerEvent {s t : State} {state : Nat} {dir : Nat} (h : Keeps s t) : Keeps s (powerEvent state dir t) := by
  unfold powerEvent
  try dsimp only
  with_reducible exact keeps_event h

theorem keeps_reachActive {s t : State}  (h : Keeps s t) : Keeps s (reachActive t) := by
  unfold reachActive
  try dsimp only
  split
  · with_reducible exact keeps_powerEvent (keeps_mk h)
  · with_reducible exact keeps_mk h

theorem keeps_execPowerRequest {e : Env} {v : Word} (s : State) : KeepsNext s (execPowerRequest e v s) := by
  unfold execPowerRequest
  try dsimp only
  split
  · with_reducible exact keepsNext_next (keeps_applyEnv (keeps_refl _))
  · with_reducible exact keepsNext_next (keeps_actOnRequest (keeps_regPut (keeps_mk (keeps_applyEnv (keeps_refl _)))))

theorem keeps_execPowerTransitionDone {e : Env} {st : StartIn} (s : State) : KeepsNext s (execPowerTransitionDone e st s) := by
  unfold execPowerTransitionDone
  try dsimp only
  split
  · with_reducible exact keepsNext_next (keeps_actOnRequest (keeps_applyEnv (keeps_refl _)))
  · with_reducible refine keepsNext_next ?_
    split
    · split
      · with_reducible refine keeps_actOnRequest ?_
        split
        · with_reducible exact keeps_powerEvent (keeps_runStart (keeps_survivors (keeps_applyEnv (keeps_refl _))))
        · with_reducible exact keeps_runStart (keeps_survivors (keeps_applyEnv (keeps_refl _)))
      · with_reducible exact keeps_actOnRequest (keeps_handleHeld (keeps_reachActive (keeps_applyEnv (keeps_refl _))))
    · split
      · with_reducible exact keeps_actOnRequest (keeps_mk (keeps_applyEnv (keeps_refl _)))
      · split
        · with_reducible exact keeps_abandonMove (keeps_applyEnv (keeps_refl _))
        · with_reducible exact keeps_actOnRequest (keeps_mk (keeps_flushEvents (keeps_powerEvent (keeps_applyEnv (keeps_refl _)))))

theorem keeps_execControllerRestart {e : Env} (s : State) : KeepsNext s (execControllerRestart e s) := by
  unfold execControllerRestart
  try dsimp only
  split
  · with_reducible exact keepsNext_next (keeps_applyEnv (keeps_refl _))
  · with_reducible refine keepsNext_next (keeps_mk (keeps_beginRestart ?_))
    split
    · with_reducible exact keeps_applyEnv (keeps_refl _)
    · with_reducible exact keeps_regPut (keeps_reachActive (keeps_mk (keeps_applyEnv (keeps_refl _))))

theorem keeps_execControllerRestartDone {e : Env} (s : State) : KeepsNext s (execControllerRestartDone e s) := by
  unfold execControllerRestartDone
  try dsimp only
  split
  · with_reducible exact keepsNext_next (keeps_applyEnv (keeps_refl _))
  · with_reducible exact keepsNext_next (keeps_poke (keeps_handleHeld (keeps_finishRegions (keeps_event (keeps_mk (keeps_foldl (fun _ _ k8 =>
      keeps_setCtl k8) (keeps_applyEnv (keeps_refl _))))))))

theorem keeps_execControllerTrap {e : Env} {c : Fin 4} {cause : Nat} {addr : Nat} (s : State) : KeepsNext s (execControllerTrap e c cause addr s) :=
    by
  unfold execControllerTrap
  try dsimp only
  with_reducible refine keepsNext_next ?_
  split
  · with_reducible exact keeps_trapController (keeps_applyEnv (keeps_refl _))
  · with_reducible exact keeps_applyEnv (keeps_refl _)

theorem keeps_execWatchdogExpiry {e : Env} {c : Fin 4} {addr : Nat} (s : State) : KeepsNext s (execWatchdogExpiry e c addr s) := by
  unfold execWatchdogExpiry
  try dsimp only
  with_reducible refine keepsNext_next ?_
  split
  · with_reducible exact keeps_trapController (keeps_applyEnv (keeps_refl _))
  · with_reducible exact keeps_applyEnv (keeps_refl _)

theorem keeps_beginCycle {s t : State}  (h : Keeps s t) : Keeps s (beginCycle t) := by
  unfold beginCycle
  try dsimp only
  split
  · with_reducible exact h
  · split <;> exact keeps_mk h

theorem keeps_tickCycle {s t : State}  (h : Keeps s t) : Keeps s (tickCycle t) := by
  unfold tickCycle
  try dsimp only
  split
  · with_reducible exact keeps_count (keeps_mk (keeps_beginCycle h))
  · with_reducible exact keeps_mk (keeps_beginCycle h)

theorem keeps_riderPage {s t : State} {r : Nat} {a : Nat} (h : Keeps s t) : Keeps s (riderPage r a t) := by
  unfold riderPage
  try dsimp only
  split
  · with_reducible exact keeps_readPage h
  · with_reducible exact keeps_escalate (keeps_readPage h)

theorem keeps_scrubChunk {s t : State} {x : Nat × Nat × Nat} (h : Keeps s t) : Keeps s (scrubChunk x t) := by
  unfold scrubChunk
  try dsimp only
  split
  · split
    · with_reducible exact keeps_count (keeps_mk h)
    · with_reducible exact keeps_mk h
  · split
    · with_reducible exact keeps_count (keeps_mk (keeps_foldl (fun _ _ k5 => keeps_riderPage k5) h))
    · with_reducible exact keeps_mk (keeps_foldl (fun _ _ k4 => keeps_riderPage k4) h)

theorem keeps_scrubRun {s t : State} {x0 : Nat} (h : Keeps s t) : Keeps s (scrubRun x0 t).2 := by
  induction x0 generalizing t with
  | zero =>
    unfold scrubRun
    try dsimp only
    with_reducible exact h
  | succ n ih =>
    unfold scrubRun
    try dsimp only
    split
    · with_reducible exact h
    · split
      · with_reducible exact h
      · with_reducible exact ih (keeps_charge (keeps_scrubChunk h))

theorem keeps_scrubWork {s t : State} {n : Nat} (h : Keeps s t) : Keeps s (scrubWork n t).2 := by
  unfold scrubWork
  try dsimp only
  with_reducible exact keeps_scrubRun h

theorem keeps_classWork {s t : State} {c : Nat} {n : Nat} (h : Keeps s t) : Keeps s (classWork c n t).2 := by
  unfold classWork
  try dsimp only
  split
  · with_reducible exact keeps_rebuildChains h
  · split
    · with_reducible exact keeps_repairWork h
    · split
      · split
        · with_reducible exact keeps_continueCopy h
        · with_reducible exact h
      · split
        · with_reducible exact keeps_drainChunks h
        · split
          · with_reducible exact keeps_scrubWork h
          · split
            · with_reducible exact keeps_streamChunks h
            · with_reducible exact h

theorem keeps_shareBudget {s t : State} {x0 : List Nat} {x1 : Nat} (h : Keeps s t) : Keeps s (shareBudget x0 x1 t) := by
  induction x0 generalizing t x1 with
  | nil =>
    unfold shareBudget
    try dsimp only
    with_reducible exact h
  | cons y ys ih =>
    unfold shareBudget
    try dsimp only
    split
    · with_reducible exact ih h
    · with_reducible exact ih (keeps_mk (keeps_classWork h))

theorem keeps_execAllotmentWindowTick {e : Env} {grant : Nat} {turnUse : Nat} (s : State) : KeepsNext s (execAllotmentWindowTick e grant turnUse s)
    := by
  unfold execAllotmentWindowTick
  try dsimp only
  split
  · with_reducible exact keepsNext_next (keeps_applyEnv (keeps_refl _))
  · with_reducible refine keepsNext_next ?_
    split
    · with_reducible exact keeps_tickCycle (keeps_capTick (keeps_mk (keeps_applyEnv (keeps_refl _))))
    · with_reducible refine keeps_poke (keeps_drainFlash ?_)
      split
      · with_reducible exact keeps_shareBudget (keeps_startDeferred (keeps_tickCycle (keeps_capTick (keeps_mk (keeps_applyEnv (keeps_refl _))))))
      · with_reducible exact keeps_startDeferred (keeps_tickCycle (keeps_capTick (keeps_mk (keeps_applyEnv (keeps_refl _)))))

end Sys2Proof.Machine
end

