-- ==== Sys2Proof/Laws/Pages.lean ====
section
/-! SUPPORT. What the store of a page does, said once: the bytes it leaves in HBM, the registers it counts in, and that nothing else changes. -/

namespace Sys2Proof.Machine

open Sys2Proof

/-! ### Pairs of registers -/

theorem regGet_wideAdd_other {lo o : Nat} (n : Nat) (s : State) (h : o ≠ lo) (h' : o ≠ lo + 4) : regGet (wideAdd lo n s) o = regGet s o := by
  unfold wideAdd widePut regPut
  rw [regGet_regSet_other h', regGet_regSet_other h]

theorem wideAdd_eq (lo n : Nat) (s : State) : { wideAdd lo n s with regs := s.regs } = s := rfl

/-! ### A page stored -/

@[simp] theorem regs_takeInjection (a : Nat) (s : State) : (takeInjection a s).2.regs = s.regs := by
  unfold takeInjection
  split <;> rfl

/-- Taking an injection changes the guard alone. -/
theorem takeInjection_eq (a : Nat) (s : State) : { (takeInjection a s).2 with guard := s.guard } = s := by
  unfold takeInjection
  split <;> rfl

theorem takeInjection_none {a : Nat} {s : State} (h : s.guard.injections = []) : takeInjection a s = ((0, 0), s) := by
  simp [takeInjection, h]

/-- A page overtaken loses what was pending for it: the guard and a counter change, and nothing else. -/
theorem overtakePage_eq (a : Nat) (g : Guard) (rs : List (Nat × Word)) (s : State) :
    { overtakePage a s with guard := g, regs := rs } = { s with guard := g, regs := rs } := by
  unfold overtakePage
  split <;> rfl

@[simp] theorem hbm_overtakePage (a : Nat) (s : State) : (overtakePage a s).hbm = s.hbm := by
  unfold overtakePage
  split <;> rfl

@[simp] theorem injections_overtakePage (a : Nat) (s : State) : (overtakePage a s).guard.injections = s.guard.injections := by
  unfold overtakePage
  split <;> rfl

@[simp] theorem damaged_overtakePage (a : Nat) (s : State) : (overtakePage a s).guard.damaged = s.guard.damaged.filter (· ≠ a) := by
  unfold overtakePage
  split <;> rfl

/-- A page overtaken counts a discarded correction, and no other register changes. -/
theorem regGet_overtakePage {a o : Nat} (s : State) (h : o ≠ Reg.pgCancelled) : regGet (overtakePage a s) o = regGet s o := by
  unfold overtakePage
  split
  · exact regGet_regSet_other h (BitVec.ofNat 32 (sat32 (regNat s Reg.pgCancelled + 1))) s
  · rfl

/-- A stored page changes HBM, its check data, the guard, the marked beats and the registers, and nothing else. -/
theorem storePage_eq (r a : Nat) (page : Bytes) (s : State) :
    { storePage r a page s with hbm := s.hbm, check := s.check, guard := s.guard, badBeats := s.badBeats, regs := s.regs } = s := by
  have h := takeInjection_eq a s
  unfold storePage
  generalize takeInjection a s = x at h
  obtain ⟨inj, t⟩ := x
  simp only at h ⊢
  have e (u : State) (n : Nat) : { wideAdd (chanReg Reg.chWrLo a) n (clearBeats a u) with
      hbm := s.hbm, check := s.check, guard := s.guard, badBeats := s.badBeats, regs := s.regs } =
    { { u with guard := s.guard, regs := s.regs } with hbm := s.hbm, check := s.check, badBeats := s.badBeats } := rfl
  rw [e, overtakePage_eq, ← h]

/-- A stored page counts in its channel's write pair and, where a pending correction is discarded, in OSE_PG_CANCELLED only. -/
theorem regGet_storePage {r a o : Nat} (page : Bytes) (s : State) (h : o ≠ chanReg Reg.chWrLo a) (h' : o ≠ chanReg Reg.chWrLo a + 4)
    (hc : o ≠ Reg.pgCancelled) : regGet (storePage r a page s) o = regGet s o := by
  unfold storePage
  simp only
  rw [regGet_wideAdd_other _ _ h h']
  have e : ∀ t : State, regGet (clearBeats a t) o = regGet t o := fun _ => rfl
  rw [e, regGet_overtakePage _ hc]
  simp [regGet]

/-- With no injection armed a stored page is written as it is. -/
theorem hbm_storePage {r a : Nat} (page : Bytes) {s : State} (h : s.guard.injections = []) :
    (storePage r a page s).hbm = writeBytes a page s.hbm := by
  simp [storePage, takeInjection_none h, wideAdd, widePut, regPut, regSet, clearBeats]

theorem damaged_storePage {r a : Nat} (page : Bytes) {s : State} (h : s.guard.injections = []) :
    (storePage r a page s).guard.damaged = s.guard.damaged.filter (· ≠ a) := by
  simp [storePage, takeInjection_none h, wideAdd, widePut, regPut, regSet, clearBeats]

theorem injections_storePage {r a : Nat} (page : Bytes) {s : State} (h : s.guard.injections = []) :
    (storePage r a page s).guard.injections = [] := by
  simp [storePage, takeInjection_none h, wideAdd, widePut, regPut, regSet, clearBeats, h]

theorem chanReg_le {base a : Nat} : base ≤ chanReg base a := Nat.le_add_right _ _

/-- Stored pages count in channel registers and in OSE_PG_CANCELLED only: any other register below OSE_CH_WR's first keeps its value. -/
theorem regGet_storePages {r o : Nat} (h : o < Reg.chWrLo) (hc : o ≠ Reg.pgCancelled) : ∀ (n a : Nat) (bs : Bytes) (s : State),
    regGet (storePages r n a bs s) o = regGet s o
  | 0, _, _, _ => rfl
  | n + 1, a, bs, s => by
    have hl : Reg.chWrLo ≤ chanReg Reg.chWrLo a := chanReg_le
    rw [storePages, regGet_storePages h hc n, regGet_storePage _ _ (by omega) (by omega) hc]

end Sys2Proof.Machine
end

