-- ==== Sys2Proof/WellFormed.lean ====
section
/-! DEFINITION. Which commands are well-formed: every operand within the width the manual gives it. The meanings hold of every
command, well-formed or not; statements may take well-formedness as a premise. -/

namespace Sys2Proof

namespace WellFormed

/-- A value of `n` bits. -/
def fits (n v : Nat) : Bool := decide (v < 2 ^ n)

/-- A coordinate of R49: a and b of five bits, c of four. -/
def coordOk (c : Coord) : Bool := fits 5 c.a && fits 5 c.b && fits 4 c.c

/-- A disturbance of SRAM: one of eight readers, 264 banks of 512 KiB (R244, R270). -/
def upsetOk (u : Upset) : Bool := decide (u.reader < 8) && decide (u.bank < 264) && fits 19 u.byte && fits 64 u.addr

/-- The inputs of the neighbours: 64-bit times, stores and flipped bits inside the 64-bit host and the 41-bit HBM address spaces, disturbances
of SRAM that exists, flash units and an operating point that exist. -/
def envOk (e : Env) : Bool :=
  fits 64 e.ht && fits 64 e.hostTime && e.hostStores.all (fun x => decide (x.1 + x.2.length ≤ 2 ^ 64)) &&
    e.computeStores.all (fun x => decide (x.1 + x.2.length ≤ 2 ^ 41)) && e.flips.all (fun x => fits 42 x.1) && e.badBeats.all (fits 42) &&
    e.upsets.all upsetOk && e.badUnits.all (fits 52) && e.point.all fun x => fits 2 x.1 && fits 16 x.2

/-- The header of a packet (R49, R50): field widths, and an offset that is a multiple of 16. -/
def headOk (h : PktHead) : Bool :=
  fits 12 h.jobId && fits 4 h.gen && fits 8 h.epoch && coordOk h.sender && fits 48 h.offset && decide (h.offset % 16 = 0) && fits 8 h.stepLow

/-- A payload of data: at most 4,096 bytes, a multiple of 16 (R49, R50). -/
def dataOk (bs : Bytes) : Bool := decide (bs.length ≤ 4096) && decide (bs.length % 16 = 0)

/-- A prefix (R114). -/
def prefixOk (p : Prefix) : Bool := fits 32 p.digest && fits 16 p.coll && fits 16 p.reach && fits 16 p.count

/-- Lanes: at most 760, each with a 3-bit code (R115). -/
def lanesOk (ls : List Lane) : Bool := decide (ls.length ≤ 760) && ls.all fun l => fits 3 l.code

/-- A frame's body: lanes, or at most 2,042 exponents (R115). -/
def bodyOk : Payload → Bool
  | .lanes p ls => prefixOk p && lanesOk ls
  | .exps p es => prefixOk p && decide (es.length ≤ 2042)
  | _ => false

/-- A chain record (R224). -/
def chainOk (r : ChainRec) : Bool :=
  fits 16 r.refillId && fits 8 r.kind && fits 8 r.equation && fits 32 r.stripe && fits 32 r.position && fits 8 r.arrival && fits 8 r.hop &&
    decide (r.pending.length = 4) && fits 32 r.holderStep

/-- A repair record (R258): its tag is not zero. -/
def repairOk (r : RepairRec) : Bool :=
  decide (r.tag ≠ 0) && fits 16 r.tag && fits 8 r.kind && fits 8 r.target && fits 32 r.stripe && coordOk r.requester &&
    decide (r.pending.length = 4)

/-- A restore control record (R315). -/
def restoreOk (r : RestoreRec) : Bool :=
  fits 32 r.digest && fits 8 r.kind && fits 16 r.vector && fits 32 r.step && fits 16 r.complete && fits 16 r.covered &&
    fits 32 r.position && fits 32 r.source && fits 8 r.status

/-- A start record (R337). -/
def startOk (r : StartRec) : Bool :=
  decide (r.tree < 2) && fits 16 r.fields.jobChips && fits 16 r.fields.tag && coordOk r.fields.root && fits 32 r.fields.epoch &&
    fits 64 r.fields.instant && fits 64 r.fields.deadline && fits 32 r.fields.routeBound && fits 16 r.fields.treeA && fits 16 r.fields.treeB

/-- The header of a culvert frame (R447). -/
def frameOk (f : FrameHead) : Bool := fits 16 f.seq && fits 16 f.tag

/-- A register offset: inside the window of R56, aligned. -/
def regOk (off : Nat) : Bool := fits 20 off && decide (off % 4 = 0)

/-- A packet that reaches no function (R49, R331): its header as the wire carries it, offset and length of any value of their fields. -/
def rawOk (p : RawPkt) : Bool :=
  fits 12 p.head.jobId && fits 4 p.head.gen && fits 8 p.head.epoch && coordOk p.head.sender && fits 48 p.head.offset && fits 8 p.head.stepLow &&
    fits 8 p.cls && fits 6 p.window && fits 16 p.len

/-- The common fields of a marker (R186). -/
def markerOk (step role position : Nat) : Bool := fits 32 step && decide (role < 2) && fits 32 position

/-- A contribution to the agreement (R203). -/
def contributionOk (k : Contribution) : Bool :=
  fits 32 k.step && fits 32 k.planId && fits 32 k.committed && fits 16 k.complete && fits 16 k.covered && fits 32 k.firstInc

/-- A verdict of the agreement (R203): 0 committed, 1 incomplete, 2 catch-up. -/
def verdictOk (v : Verdict) : Bool :=
  fits 32 v.step && fits 32 v.planId && fits 64 v.commitAt && fits 16 v.complete && decide (v.verdict < 3) && fits 32 v.firstInc

/-- A result record (R117): at most eight frames to retry, verdict 0 to 2. -/
def resultOk (r : ResultRec) : Bool :=
  fits 16 r.compared && fits 16 r.mismatched && fits 16 r.unverified && decide (r.retryList.length ≤ 8) && r.retryList.all (fits 16) &&
    decide (r.verdict < 3)

/-- A digest of 32 bytes, a bank's parts numbered 0 to 8 (R425, R449). -/
def stageOk (action parts version : Nat) (digest : Bytes) : Bool :=
  fits 8 action && fits 16 parts && fits 32 version && decide (digest.length ≤ 32)

/-- What a start is given: 64-bit flash bounds, the number of the first bad controller in five bits. -/
def startInOk (st : StartIn) : Bool :=
  fits 64 st.flashBase && fits 64 st.flashLen && fits 5 st.firstBad && st.badFlash.all (fits 52) &&
    st.trapStage.all (fun n => decide (1 ≤ n ∧ n ≤ 9)) && fits 8 st.trapCause && fits 32 st.trapAt &&
    st.cutStage.all (fun n => decide (1 ≤ n ∧ n ≤ 9)) && fits 64 st.testNs && fits 64 st.totalNs

/-- What a bad frame shows (R71, R447): one byte of type, one of format, a 16-bit sequence. -/
def badFrameOk : BadFrame → Bool
  | .crc => true
  | .unknownType type => fits 8 type
  | .format type format seq => fits 8 type && fits 8 format && decide (format ≠ 2) && fits 16 seq

end WellFormed

open WellFormed in
/-- Whether a command is well-formed. -/
def Instr.wellFormed : Instr → Bool
  | .regionSet e _ j | .stateFill e _ j | .planLoad e _ j | .planArm e _ j | .planRetire e _ j | .snapPond e _ j | .snapDrain e _ j
  | .snapExport e _ j | .snapManifest e _ j | .restoreScan e _ j | .restoreLoad e _ j | .restoreReslice e _ j | .scrubRange e _ j
  | .repairRange e _ j | .healthRead e _ j | .counterRead e _ j | .streamWindow e _ j | .fwStageDesc e _ j | .fence e _ j
  | .unknownOpcode e _ j => envOk e && fits 32 j
  | .descriptorStart e _ | .ringPoll e _ | .msixHoldoffExpiry e _ | .ringEnable e _ _ | .ringDisable e _ _ | .ringDisableDone e _
  | .ringReset e _ | .ringResetDone e _ | .configCommit e | .configDiscard e | .configCommitApply e | .controllerRestart e
  | .controllerRestartDone e | .powerRequest e _ | .errorInject e _ _ | .intakeEntryCapture e _ | .heartbeat e | .event e
  | .dryEventRepeat e | .commitCutoff e | .commitRootTimeout e | .noVerdict e | .retryDeadline e | .stepStart e | .leaseGrant e
  | .breach e | .lockDrop e | .lockRegain e | .partitionWindowsReport e | .flashBarrierDone e | .startDeadline e | .startInstant e
  | .modeChangeInstant e | .refillStart e | .refillDeadline e | .releaseInstant e | .restoreChoiceDeadline e | .restoreDoneDeadline e
  | .handover e _ | .activationLapse e | .restoreCutoff e | .flashWriteFailure e => envOk e
  | .hostAccessError e _ addr _ => envOk e && fits 64 addr
  | .shadowRegisterWrite e off _ | .registerWrite e off _ | .wideRegisterCapture e off => envOk e && regOk off
  | .badRegisterAccess e off _ => envOk e && fits 20 off
  | .engineReset e st | .powerTransitionDone e st | .chipColdReset e st | .chipWarmReset e st | .startRetry e st => envOk e && startInOk st
  | .queryStatus e f | .freezeJob e f | .startAbort e f => envOk e && frameOk f
  | .basinMap e f extent coord tree geom axis planId =>
    envOk e && frameOk f && fits 32 extent && fits 16 coord && fits 16 tree && fits 16 geom && fits 8 axis && fits 32 planId
  | .releaseJob e f id kind instant first => envOk e && frameOk f && fits 16 id && fits 8 kind && fits 64 instant && fits 16 first
  | .beginRefill e part parts id committed commitAt startAt deadline lost =>
    envOk e && fits 4 part && fits 4 parts && fits 16 id && fits 32 committed && fits 64 commitAt && fits 64 startAt && fits 64 deadline &&
      decide (lost.length ≤ 16) && lost.all coordOk
  | .policy e f step pol => envOk e && frameOk f && fits 32 step && fits 8 pol
  | .modeChange e f epoch instant mode flags => envOk e && frameOk f && fits 32 epoch && fits 64 instant && fits 8 mode && fits 8 flags
  | .start e f chips epoch instant deadline bound treeA treeB =>
    envOk e && frameOk f && fits 16 chips && fits 32 epoch && fits 64 instant && fits 64 deadline && fits 32 bound && fits 16 treeA &&
      fits 16 treeB
  | .firmwareStage e f action parts version digest => envOk e && frameOk f && stageOk action parts version digest
  | .firmwareActivate e f version deadline => envOk e && frameOk f && fits 32 version && fits 64 deadline
  | .firmwareConfirm e f version => envOk e && frameOk f && fits 32 version
  | .clearDry e f serial st => envOk e && frameOk f && fits 32 serial && startInOk st
  | .culvertBadFrame e bad => envOk e && badFrameOk bad
  | .mirroredInputStore e h bs | .accumXor e h bs | .refillPlotStore e h bs | .refillCisternStore e h bs | .chainPages e h bs
  | .bankShareStore e h bs | .restoreDataStore e h bs | .repairPages e h bs => envOk e && headOk h && dataOk bs
  | .malformedPacket e p | .unmappedWindowPacket e p => envOk e && rawOk p
  | .chunkMarker e h step role _ chunk position => envOk e && headOk h && markerOk step role position && fits 32 chunk
  | .progressMarker e h step role position => envOk e && headOk h && markerOk step role position
  | .finalMarker e h step role => envOk e && headOk h && markerOk step role 0
  | .invalidateMarker e h step chunk _ position => envOk e && headOk h && markerOk step 0 position && fits 32 chunk
  | .ack e h k => envOk e && headOk h && fits 32 k.step && fits 32 k.limit && decide (k.entries.length ≤ 1020) && k.entries.all (fits 32)
  | .ackFlush e dest | .progressTimer e dest => envOk e && coordOk dest
  | .agreementContribution e h k => envOk e && headOk h && contributionOk k
  | .agreeVerdict e h v => envOk e && headOk h && verdictOk v
  | .updateWaitTimeout e energy => envOk e && fits 64 energy
  | .partialFrame e h body | .resultFrame e h body => envOk e && headOk h && bodyOk body
  | .path1FinalFrame e h p ls | .retryFrame e h p ls => envOk e && headOk h && prefixOk p && lanesOk ls
  | .partialRecord e h p bitmap => envOk e && headOk h && prefixOk p && bitmap.all (fits 16)
  | .resultRecord e h p r => envOk e && headOk h && prefixOk p && resultOk r
  | .abortRecord e h p => envOk e && headOk h && prefixOk p
  | .reduceCutoff e i _ root => envOk e && fits 16 i && fits 16 root
  | .reduceDeadline e i | .leaseRaise e i | .scaleTurn e i | .reduceTurn e i | .gapTurn e i | .checkTurn e i | .updateTurn e i
  | .deltaTurn e i | .commitTurn e i | .pondTurn e i | .turnPlannedEnd e i => envOk e && fits 16 i
  | .dualPathSettle e coll reach => envOk e && fits 16 coll && fits 16 reach
  | .mirrorTurn e i _ => envOk e && fits 16 i
  | .turnWorkComplete e i energy => envOk e && fits 16 i && fits 64 energy
  | .allotmentWindowTick e grant turnUse => envOk e && fits 32 grant && fits 32 turnUse
  | .replicaSample e _ reading => envOk e && fits 16 reading
  | .startRecord e h r | .startAckRecord e h r | .goRecord e h r | .abortStartRecord e h r => envOk e && headOk h && startOk r
  | .startAckCutoff e tree => envOk e && decide (tree < 2)
  | .localRepairRecord e h r | .syndromeRecord e h r | .remainderRecord e h r | .bankRebuildRecord e h r | .creditRecord e h r
  | .closureRequest e h r | .absentRecord e h r | .chainRequest e h r | .decodedRecord e h r | .noGradientRecord e h r =>
    envOk e && headOk h && chainOk r
  | .repairRequest e h r | .repairChainRecord e h r | .repairDone e h r | .repairPushRequest e h r | .repairRefused e h r =>
    envOk e && headOk h && repairOk r
  | .repairTimeout e tag => envOk e && fits 16 tag
  | .restoreChoice e h r | .restoreCredit e h r | .restoreWithdraw e h r | .restoreDone e h r | .restoreDoneVerdict e h r
  | .restoreChoiceVerdict e h r | .restoreRequest e h r => envOk e && headOk h && restoreOk r
  | .controllerTrap e _ cause addr => envOk e && fits 8 cause && fits 32 addr
  | .watchdogExpiry e _ addr => envOk e && fits 32 addr

end Sys2Proof
end

