-- ==== Sys2Proof/Tests/Slice0.lean ====
section
/-! SUPPORT. Tests: ill-formed commands refused, worked values of the manual, and for each statement with hypotheses a state and operands
that meet them (`meets_<statement>`, one part for each clause). The states are small ones built here; `still` says that a command which
brings nothing with it finds the state as it is. -/

namespace Sys2Proof.Machine.Tests

set_option Elab.async false

open Sys2Proof

/-! ### States -/

/-- A command that brings nothing: the time the state holds, no store, no disturbance. -/
def quiet (s : State) : Env := { ht := s.ht, hostTime := s.hostTime, lateFix := s.guard.lateFix, selfFault := s.selfFault }

/-- Nothing waits in the state that any command would take up: no late write-back, no power entry that has to be abandoned. -/
abbrev Calm (s : State) : Prop := (s.guard.fixes, checkEntry s) = ([], s)

theorem still (s : State) (h : Calm s) : applyEnv (quiet s) s = s := by
  obtain ⟨hf, hc⟩ : s.guard.fixes = [] ∧ checkEntry s = s := by simpa [Calm] using h
  have hs : { s with guard.fixes := [] } = s := by rw [← hf]
  have hl : landFixes s = s := by rw [landFixes, hs, hf]; rfl
  have hq : ({ s with ht := max s.ht s.ht, hostTime := s.hostTime, guard.lateFix := s.guard.lateFix, selfFault := s.selfFault } : State) = s := by
    rw [Nat.max_self]
  have hu : ({ s with badBeats := unionIdx s.badBeats [], badUnits := unionIdx s.badUnits [] } : State) = s := by
    simp only [unionIdx, List.filter_nil, List.append_nil]
  simp only [applyEnv, quiet, hq, hl, List.foldl_nil, hu, hc, ite_self]

/-- A quiet command finds the state as it is, and the state has what a statement asks. -/
abbrev Met (s : State) (P : Prop) : Prop := applyEnv (quiet s) s = s ∧ P

/-- A state that a quiet command finds as it is, with what a statement asks of it. -/
theorem meets {s : State} {P : Prop} (h : Calm s) (p : P) : applyEnv (quiet s) s = s ∧ P := ⟨still s h, p⟩

/-- Bytes with a field put in place. -/
def putField (o n v : Nat) (bs : Bytes) : Bytes := bs.take o ++ le n v ++ bs.drop (o + n)

/-- A block of `len` bytes with the fields given as (offset, bytes, value). -/
def block (len : Nat) (fs : List (Nat × Nat × Nat)) : Bytes := fs.foldl (fun b f => putField f.1 f.2.1 f.2.2 b) (zeros len)

/-- CRC-32C with each remainder worked out before the next byte, for evaluation. -/
def crcSteps : Bytes → Nat → Nat
  | [], c => c
  | b :: bs, 0 => crcSteps bs (crcByte 0 b)
  | b :: bs, c + 1 => crcSteps bs (crcByte (c + 1) b)

theorem foldl_crcByte (bs : Bytes) (c : Nat) : bs.foldl crcByte c = crcSteps bs c := by
  induction bs generalizing c with
  | nil => rfl
  | cons b bs ih => cases c <;> simp [crcSteps, ih]

theorem crc32c_steps (bs : Bytes) : crc32c bs = crcSteps bs 0xFFFFFFFF ^^^ 0xFFFFFFFF := by rw [crc32c, foldl_crcByte]

/-- A running descriptor of one slot at index 0, with its fields (R370). -/
def desc (op : Nat) (fs : List (Nat × Nat × Nat)) : Desc := { idx := 0, bytes := block 64 ((0, 1, op) :: fs) }

/-- Ring 0 open, with descriptors running. -/
def running (ds : List Desc) (s : State) : State := setRing 0 { ringOf s 0 with enabled := true, running := ds } s

/-- An engine after a start: chip (1, 0, 0) of a 4 × 2 × 1 job of tag 0x1234, basin mode with k = 4 and one global parity, every region
declared, nothing live. -/
def base : State :=
  let tag := fun s => regPut Reg.jobTag 0x1234 (regPut Reg.jobTagF 0x1234 s)
  let ext := fun s => regPut Reg.jobExtent 4228 (regPut Reg.jobExtentF 4228 s)
  let co := fun s => regPut Reg.jobCoord 1 (regPut Reg.jobCoordF 1 s)
  let geo := fun s => regPut Reg.basinGeom 260 (regPut Reg.basinGeomF 260 s)
  { tag (ext (co (geo State.reset))) with
    ht := 1000000000, hostTime := 5000, ready := true, power := { lock := true },
    regions := #v[(0, 0x400000), (0x800000, 0x400000), (0x1000000, 0x800000), (0x2000000, 0x2000000), (0x10000000, 0x10000000)] }

/-- The same engine once its job is live in epoch 1. -/
def live : State := { base with job := { base.job with live := true, epoch := 1 } }

/-- A turn that starts with its step and lasts 10 ms. -/
def turn (kind : Nat) : TurnEntry :=
  { offset := 0, kind := kind, commitAnchored := false, duration := 10000000, period := 1, phase := 0, work := 0, memBytes := 0, memRate := 0,
    portMask := 0, portRate := 0, portBytes := 0, energy := 0, first := 0, count := 1, flags := 0, deadline := 5000000 }

/-- A collective over the whole job, both paths. -/
def coll : CollEntry :=
  { tensorId := 1, elems := 8, inType := 1, outType := 1, op := 1, sampled := true, source := 0x40000000, resultOff := 0, origin := ⟨0, 0, 0⟩,
    ext := ⟨4, 2, 1⟩, tree0 := 1, tree1 := 2, expIndex := 0, rootOff := 0 }

/-- A plan with the turns given and one collective. -/
def planWith (ts : List TurnEntry) : Plan :=
  { id := 7, tag := 0x1234, lead := 100000, routeBound := 8000, reportRing := 0, tileFed := false, heritage := false, geom := 260,
    cisternNeed := 0, undoNeed := 0, plotBytes := 0x400000, jobChips := 8, inputHalf := 4096, gradSlot := 65536, length := 4096,
    turns := ts, colls := [coll], tensors := [], programs := [] }

/-- Turns of every kind, in the order of their codes. -/
def allTurns : List TurnEntry := (List.range 9).map fun k => turn (k + 1)

/-- The live engine in step 3 of a plan, the step's start at hand. -/
def inStep (ts : List TurnEntry) : State :=
  { live with plans.active := some (planWith ts), step.num := 3, step.startAt := some live.ht, step.polarity := true, step.committed := some 2 }

/-- The engine in step 3 of the plan with every kind of turn. -/
def stepping : State := inStep allTurns

/-- The header of a packet from a chip of the job in force. -/
def from_ (c : Coord) : PktHead := { jobId := 0x123, gen := 4, epoch := 1, sender := c }

/-- A manager frame with the tag in force. -/
def frame : FrameHead := { seq := 9, tag := 0x1234 }

/-! ### Statements of the step, memories, registers and rings -/

theorem meets_StepRunsFrontCommand :
    { live with pending := [.heartbeat (quiet live)] }.pending = .heartbeat (quiet live) :: [] ∧ State.reset.pending = [] := ⟨rfl, rfl⟩

theorem meets_StepKeepsMemoryOk : MemoryOk live ∧ ∃ t, step { live with pending := [.heartbeat (quiet live)] } = .next t :=
  ⟨⟨rfl, rfl, rfl, rfl⟩, _, rfl⟩

theorem meets_ExecKeepsQueue : ∃ t, exec (.heartbeat (quiet live)) live = .next t := ⟨_, rfl⟩

/-- OSE_CH_BGCAP of channel 23 takes 1 to 1,333: 1,334 is out of range. The last offset of the window for a bad access. -/
theorem meets_OutOfRangeWriteIgnored : applyEnv (quiet base) base = base ∧ base.power.state < 2 ∧
    (∃ r, rowAt (Reg.chBgcap + 23 * 0x1000) = some (r, 23) ∧ r.acc = .rw ∧ ownCommand r.off = false ∧ r.off ≠ Reg.reset ∧
      inRange r.off (1334 &&& fieldMask r.off) = false) ∧
    base.power.state ≠ 3 ∧ 2 ^ 20 - 1 < 2 ^ 20 ∧ Reg.jobCoord ∈ shadowRegs ∧ base.pendingCommit = false :=
  meets rfl (by refine ⟨by decide, ⟨_, rfl, ?_⟩, by decide, by decide, by decide, rfl⟩; decide +kernel)

/-- The seed's low half held; staged extents of 0 with no plan active. -/
theorem meets_OutOfRangeWriteIgnored_staging :
    let held := { base with loHold := [(Reg.jobSeedLo, 0xFFFFFFFF#32)] }
    let sized := { regPut Reg.jobExtent 0 base with staged := [7] }
    (applyEnv (quiet held) held = held ∧ held.power.state < 2 ∧ Reg.jobSeedHi ∈ shadowRegs ∧ Reg.jobSeedLo ∈ shadowRegs ∧ held.pendingCommit = false ∧
      (held.loHold.find? fun x => x.1 = Reg.jobSeedLo) = some (Reg.jobSeedLo, 0xFFFFFFFF#32)) ∧
    (applyEnv (quiet sized) sized = sized ∧ sized.power.state < 2 ∧ sized.dry = false ∧ sized.pendingCommit = false ∧ planActive sized = false ∧
      validate { refreshCfg { sized with pendingCommit := true } with pendingCommit := false } = some (0x02, [7])) :=
  ⟨meets rfl (by decide +kernel), meets rfl (by decide +kernel)⟩

theorem meets_RegisterWriteStores : applyEnv (quiet base) base = base ∧ base.power.state < 2 ∧
    (∃ r, rowAt Reg.pgScrubCycle = some (r, 0) ∧ ownCommand r.off = false ∧ r.off ≠ Reg.reset ∧ r.acc = .rw ∧
      ¬ (Reg.ringCtrl ≤ r.off ∧ r.off ≤ Reg.ringHalts) ∧ inRange r.off (86400 &&& fieldMask r.off) = true) ∧
    (∃ r, rowAt Reg.badAccess = some (r, 0) ∧ ownCommand r.off = false ∧ r.off ≠ Reg.reset ∧ r.acc = .ctr) ∧
    (∃ r, rowAt Reg.events = some (r, 0) ∧ ownCommand r.off = false ∧ r.off ≠ Reg.reset ∧ r.acc = .w1c) ∧
    (∃ r, rowAt 0 = some (r, 0) ∧ ownCommand r.off = false ∧ r.off ≠ Reg.reset ∧ r.acc = .ro) :=
  meets rfl (by
    refine ⟨by decide, ⟨_, rfl, ?_⟩, ⟨_, rfl, ?_⟩, ⟨_, rfl, ?_⟩, ⟨_, rfl, ?_⟩⟩ <;> decide +kernel)

theorem meets_PairsReadAndWritten : applyEnv (quiet base) base = base ∧ isReadPair Reg.htLo = true ∧ (quiet base).upsets = [] ∧
    base.power.state < 2 ∧ Reg.ringDbLo ∈ [Reg.ringSqBaseLo, Reg.ringCqBaseLo, Reg.ringDbLo] ∧ (ringOf base 15).enabled = false :=
  meets rfl (by decide +kernel)

/-- A pending commit that moves the chip to coordinate (3, 1, 0), and one whose extents are 0. -/
def moved : State := { regPut Reg.jobCoord 35 base with pendingCommit := true, staged := [8] }
def unsized : State := { regPut Reg.jobExtent 0 base with pendingCommit := true, staged := [7] }

theorem meets_ShadowConfiguration :
    (applyEnv (quiet base) base = base ∧ base.power.state < 2 ∧ base.pendingCommit = false) ∧
    (applyEnv (quiet stepping) stepping = stepping ∧ stepping.power.state < 2 ∧ stepping.pendingCommit = false ∧ planActive stepping = true ∧
      stepping.refill.frozen = false) ∧
    (applyEnv (quiet moved) moved = moved ∧ moved.power.state < 2 ∧ moved.dry = false ∧ moved.pendingCommit = true ∧ commitMoment moved = true ∧
      validate { moved with pendingCommit := false } = none ∧ regGet moved Reg.jobTag = regGet moved Reg.jobTagF) ∧
    (applyEnv (quiet unsized) unsized = unsized ∧ unsized.power.state < 2 ∧ unsized.dry = false ∧ unsized.pendingCommit = true ∧
      commitMoment unsized = true ∧ validate { unsized with pendingCommit := false } = some (0x02, [7])) :=
  ⟨meets rfl (by decide +kernel), meets rfl (by decide +kernel), meets rfl (by decide +kernel), meets rfl (by decide +kernel)⟩

theorem meets_IntakeCaptureAndInjection : applyEnv (quiet base) base = base ∧ base.power.state < 2 ∧
    bits 6 0 (0x7F#32).toNat ≠ 0 ∧ bits 6 0 (0xFFFFFF80#32).toNat = 0 := meets rfl (by decide +kernel)

/-- Ring 15 open with 64 slots at host address 0x10000, records at 0x20000, doorbell at 0x30000 where the tail reads `tail`. -/
def rung (tail : Nat) : State :=
  let at_ := fun base a s => regPut (ringReg 15 base) a s
  setRing 15 { enabled := true } { at_ Reg.ringSqBaseLo 0x10000 (at_ Reg.ringCqBaseLo 0x20000 (at_ Reg.ringDbLo 0x30000 live)) with
    hostMem := writeBytes 0x30000 (le 4 tail) [] }

theorem meets_RingPollCopies :
    (applyEnv (quiet (rung 1)) (rung 1) = rung 1 ∧ ringsServed (rung 1) = true ∧ (rung 1).dry = false ∧ (ringOf (rung 1) 15).isOpen = true ∧
      (ringOf (rung 1) 15).copied = [] ∧ (ringOf (rung 1) 15).lostNow = 0 ∧
      field 0 4 (hostRead (rung 1) (doorbell (rung 1) 15) 4) = 1 ∧ field 0 4 (hostRead (rung 1) (doorbell (rung 1) 15 + 4) 4) = 0 ∧
      idxSub 1 (ringOf (rung 1) 15).sqHead = 1 ∧ idxSub (ringOf (rung 1) 15).cqTail 0 ≤ cqSlots (rung 1) 15 ∧
      (fetchDesc (rung 1) 15 0).ext = false) ∧
    (applyEnv (quiet (rung 0)) (rung 0) = rung 0 ∧ ringsServed (rung 0) = true ∧ (ringOf (rung 0) 15).isOpen = true ∧
      (ringOf (rung 0) 15).copied = [] ∧ (ringOf (rung 0) 15).lostNow = 0 ∧
      field 0 4 (hostRead (rung 0) (doorbell (rung 0) 15) 4) = 0 ∧ field 0 4 (hostRead (rung 0) (doorbell (rung 0) 15 + 4) 4) = 0 ∧
      idxSub 0 (ringOf (rung 0) 15).sqHead = 0 ∧ idxSub (ringOf (rung 0) 15).cqTail 0 ≤ cqSlots (rung 0) 15) ∧
    (applyEnv (quiet (rung 65)) (rung 65) = rung 65 ∧ ringsServed (rung 65) = true ∧ (ringOf (rung 65) 15).isOpen = true ∧
      field 0 4 (hostRead (rung 65) (doorbell (rung 65) 15) 4) = 65 ∧ sqSlots (rung 65) 15 < idxSub 65 (ringOf (rung 65) 15).sqHead) :=
  ⟨meets rfl (by decide +kernel), meets rfl (by decide +kernel), meets rfl (by decide +kernel)⟩

/-- A FENCE, running or taken. -/
def fenceDesc : Desc := desc Op.fence []
def taken : State := setRing 0 { enabled := true, taken := [fenceDesc] } live
def full : State := running (List.replicate 8 fenceDesc) live

theorem meets_DescriptorStarts :
    (applyEnv (quiet taken) taken = taken ∧ flumeRuns taken = true ∧ ringsServed taken = true ∧ (ringOf taken 0).taken = [fenceDesc] ∧
      mayStart taken 0 fenceDesc = true) ∧
    (applyEnv (quiet full) full = full ∧ 8 ≤ (ringOf full 0).running.length ∧ (ringOf full 0).taken = []) ∧
    (let behind := setRing 0 { enabled := true, taken := [fenceDesc], running := List.replicate 8 fenceDesc } live
     applyEnv (quiet behind) behind = behind ∧ (ringOf behind 0).taken = [fenceDesc] ∧ mayStart behind 0 fenceDesc = false) :=
  ⟨meets rfl (by decide +kernel), meets rfl (by decide +kernel), meets rfl (by decide +kernel)⟩

def closing : State := setRing 0 { closing := true } live
def resetting : State := setRing 0 { resetting := true, enabled := true } live

theorem meets_RingControl :
    (applyEnv (quiet live) live = live ∧ live.power.state < 2 ∧ (ringOf live 0).resetting = false ∧ (ringOf live 0).enabled = false) ∧
    (applyEnv (quiet full) full = full ∧ full.power.state < 2 ∧ (ringOf full 0).resetting = false ∧ (ringOf full 0).enabled = true ∧
      (ringOf full 0).taken = []) ∧
    (applyEnv (quiet closing) closing = closing ∧ (ringOf closing 0).closing = true ∧ (ringOf closing 0).running = []) ∧
    (applyEnv (quiet resetting) resetting = resetting ∧ (ringOf resetting 0).resetting = true ∧ (ringOf resetting 0).running = [] ∧
      resetting.restarting = []) :=
  ⟨meets rfl (by decide +kernel), meets rfl (by decide +kernel), meets rfl (by decide +kernel), meets rfl (by decide +kernel)⟩

/-- Ring 0 with a message due and a holdoff of 65,535 µs that ends now. -/
def due : State := setRing 0 { enabled := true, msgDue := true, lastMsg := some (live.ht - 65535000) } (regPut (ringReg 0 Reg.ringIrq) 0xFFFF0000 live)

theorem meets_MessagesAndHostErrors :
    (applyEnv (quiet due) due = due ∧ (ringOf due 0).msgDue = true ∧
      ((ringOf due 0).lastMsg.all fun t => decide (t + bits 31 16 (regNat due (ringReg 0 Reg.ringIrq)) * 1000 ≤ due.ht)) = true) ∧
    (applyEnv (quiet full) full = full ∧ full.power.state < 2 ∧ full.ready = true ∧ (ringOf full 0).halted = false) ∧
    (let halted := setRing 0 { enabled := true, halted := true } { live with restarting := [1] }
     applyEnv (quiet halted) halted = halted ∧ halted.power.state < 2 ∧ halted.ready = true ∧ (ringOf halted 0).halted = true) :=
  ⟨meets rfl (by decide +kernel), meets rfl (by decide +kernel), meets rfl (by decide +kernel)⟩

theorem meets_CompletionRecord : Memory.wf full.hostMem = true ∧ fenceDesc.slots = 1 ∧ (ringOf full 0).muted.contains fenceDesc.idx = false ∧
    nextRecord (rung 0) 15 + 32 ≤ doorbell (rung 0) 15 + 36 ∧
    (ringOf (setRing 0 { muted := [0] } live) 0).muted.contains fenceDesc.idx = true := by decide +kernel

/-- One FENCE of each scope; one behind a descriptor taken before it; a descriptor of no opcode. -/
def fenceAll : Desc := desc Op.fence [(8, 1, 1)]
def behind : State := running [desc Op.planRetire [], { fenceAll with idx := 1, takeSeq := 1 }] live
def strange : Desc := desc 0xFE []

theorem meets_FenceAndUnknownOpcodes :
    (applyEnv (quiet (running [fenceDesc] live)) (running [fenceDesc] live) = running [fenceDesc] live ∧
      descAt (running [fenceDesc] live) 0 0 Op.fence fenceDesc = true ∧ fenceDesc.f 8 1 = 0 ∧
      earlierDone (running [fenceDesc] live) 0 fenceDesc = true) ∧
    (applyEnv (quiet (running [fenceAll] live)) (running [fenceAll] live) = running [fenceAll] live ∧
      descAt (running [fenceAll] live) 0 0 Op.fence fenceAll = true ∧ fenceAll.f 8 1 = 1 ∧
      ∀ r, earlierDone (running [fenceAll] live) r fenceAll = true) ∧
    (applyEnv (quiet behind) behind = behind ∧ descAt behind 0 1 Op.fence { fenceAll with idx := 1, takeSeq := 1 } = true ∧
      fenceAll.f 8 1 < 2 ∧ earlierDone behind 0 { fenceAll with idx := 1, takeSeq := 1 } = false) ∧
    (applyEnv (quiet (running [strange] live)) (running [strange] live) = running [strange] live ∧
      controllersRun (running [strange] live) = true ∧ runningAt (running [strange] live) 0 0 = some strange ∧ strange.wellFormed = false) :=
  ⟨meets rfl (by decide +kernel), meets rfl (by decide +kernel), meets rfl (by decide +kernel), meets rfl (by decide +kernel)⟩

/-- A FENCE of scope 1 with work of another ring before it, one of scope 2, and one in whose work the engine finds a fault. -/
theorem meets_FenceAndUnknownOpcodes_stops :
    let wide := { fenceAll with takeSeq := 1 }
    let across := setRing 1 { enabled := true, running := [desc Op.planRetire []] } (running [wide] live)
    let odd := desc Op.fence [(8, 1, 2)]
    let faulty := { running [fenceDesc] live with selfFault := true }
    (applyEnv (quiet across) across = across ∧ descAt across 0 0 Op.fence wide = true ∧ wide.f 8 1 = 1 ∧ earlierDone across 1 wide = false) ∧
    (applyEnv (quiet (running [odd] live)) (running [odd] live) = running [odd] live ∧ descAt (running [odd] live) 0 0 Op.fence odd = true ∧
      1 < odd.f 8 1) ∧
    (applyEnv (quiet faulty) faulty = faulty ∧ controllersRun faulty = true ∧ runningAt faulty 0 0 = some fenceDesc ∧ fenceDesc.op = Op.fence ∧
      fenceDesc.wellFormed = true ∧ fenceDesc.noTag = false ∧ faulty.selfFault = true ∧ faulty.culvert.queue.length < 64 ∧
      faulty.restore.running = false ∧ (ringOf faulty 0).muted.contains 0 = false) :=
  ⟨meets rfl (by decide +kernel), meets rfl (by decide +kernel), meets rfl (by decide +kernel)⟩


/-! ### Statements of the descriptors -/

/-- A descriptor that runs at ring 0 of the live engine. -/
def asks (d : Desc) : State := running [d] live

/-- A REGION_SET of the undo window: to the last chunk of the address map, and a chunk past the end. -/
def setUndo (at_ : Nat) : Desc := { idx := 0, bytes := block 128 [(0, 1, Op.regionSet), (1, 1, 1), (8, 1, 16), (80, 8, at_), (88, 8, 65536)] }
def setLast : Desc := setUndo (1536 * 2 ^ 30 - 65536)
def setPast : Desc := setUndo (1536 * 2 ^ 30)
def reported : State := { asks setLast with regionWait := [(0, 0, 16, false)] }

theorem meets_RegionSetAndReport :
    (applyEnv (quiet (asks setLast)) (asks setLast) = asks setLast ∧ descAt (asks setLast) 0 0 Op.regionSet setLast = true ∧
      ((asks setLast).regionWait.any fun w => w.1 = 0 ∧ w.2.1 = 0) = false ∧ planActive (asks setLast) = false ∧
      (asks setLast).refill.frozen = false ∧ (asks setLast).restore.running = false ∧ restoreRuns (asks setLast) = false ∧
      regionsOk (asks setLast) setLast = true) ∧
    (applyEnv (quiet (asks setPast)) (asks setPast) = asks setPast ∧ descAt (asks setPast) 0 0 Op.regionSet setPast = true ∧
      ((asks setPast).regionWait.any fun w => w.1 = 0 ∧ w.2.1 = 0) = false ∧ planActive (asks setPast) = false ∧
      (asks setPast).refill.frozen = false ∧ (asks setPast).restore.running = false ∧ restoreRuns (asks setPast) = false ∧
      regionsOk (asks setPast) setPast = false) ∧
    (applyEnv (quiet reported) reported = reported ∧ controllersRun reported = true ∧ reported.regionWait = [(0, 0, 16, false)] ∧
      flumeRuns reported = true ∧ runningAt reported 0 0 = some setLast) ∧
    (let held := { reported with restarting := [0, 1, 2, 3] }
     applyEnv (quiet held) held = held ∧ flumeRuns held = true ∧ controllersRun held = false) ∧
    (let early := running [setLast] stepping
     applyEnv (quiet early) early = early ∧ descAt early 0 0 Op.regionSet setLast = true ∧
      (early.regionWait.any fun w => w.1 = 0 ∧ w.2.1 = 0) = false ∧ planActive early = true) :=
  ⟨meets rfl (by decide +kernel), meets rfl (by decide +kernel), meets rfl (by decide +kernel), meets rfl (by decide +kernel),
   meets rfl (by decide +kernel)⟩

/-- A STATE_FILL of the last page of the plot, and of one past it. -/
def fillDesc (off : Nat) : Desc := desc Op.stateFill [(16, 8, off), (24, 8, 4096), (32, 8, 0x0123456789ABCDEF)]

theorem meets_StateFillWritesTheRange :
    (applyEnv (quiet (asks (fillDesc 0x3FF000))) (asks (fillDesc 0x3FF000)) = asks (fillDesc 0x3FF000) ∧
      descAt (asks (fillDesc 0x3FF000)) 0 0 Op.stateFill (fillDesc 0x3FF000) = true ∧ (fillDesc 0x3FF000).f 9 1 = 0 ∧
      (fillDesc 0x3FF000).f 8 1 ∈ [0, 2, 4] ∧
      rangeBad (asks (fillDesc 0x3FF000)) ((fillDesc 0x3FF000).f 8 1) ((fillDesc 0x3FF000).f 16 8) ((fillDesc 0x3FF000).f 24 8) 4096 = none ∧
      (asks (fillDesc 0x3FF000)).guard.injections = []) ∧
    (applyEnv (quiet (asks (fillDesc 0x400000))) (asks (fillDesc 0x400000)) = asks (fillDesc 0x400000) ∧
      descAt (asks (fillDesc 0x400000)) 0 0 Op.stateFill (fillDesc 0x400000) = true ∧ (fillDesc 0x400000).f 9 1 < 2 ∧
      rangeBad (asks (fillDesc 0x400000)) ((fillDesc 0x400000).f 8 1) ((fillDesc 0x400000).f 16 8) ((fillDesc 0x400000).f 24 8) 4096 = some 0xE3) ∧
    (let d := desc Op.stateFill [(9, 1, 2), (24, 8, 4096)]
     applyEnv (quiet (asks d)) (asks d) = asks d ∧ descAt (asks d) 0 0 Op.stateFill d = true ∧ 1 < d.f 9 1) ∧
    (let d := desc Op.stateFill [(9, 1, 1), (24, 8, 4096), (40, 8, 32)]
     applyEnv (quiet (asks d)) (asks d) = asks d ∧ descAt (asks d) 0 0 Op.stateFill d = true ∧ d.f 9 1 = 1 ∧
      rangeBad (asks d) (d.f 8 1) (d.f 16 8) (d.f 24 8) 4096 = none ∧ d.f 40 8 % 64 ≠ 0) :=
  ⟨meets rfl (by decide +kernel), meets rfl (by decide +kernel), meets rfl (by decide +kernel), meets rfl (by decide +kernel)⟩

/-- A turn entry of an image: kind, offset, duration, flags, first, count. -/
def turnBytes (kind off dur flags n : Nat) : Bytes :=
  block 64 [(0, 6, off), (6, 1, kind), (8, 4, dur), (12, 2, 1), (54, 2, n), (56, 2, flags)]

/-- A plan image in replicated mode with the fewest turns that the audit takes: MIRROR, REDUCE, GAP, CHECK, UPDATE, COMMIT, and no tables. -/
def image : Bytes :=
  let head := block 128 [(0, 4, 0x4E4C504F), (4, 2, 2), (6, 2, 128), (8, 4, 512), (12, 4, 3925576669), (16, 4, 7), (20, 2, 0x1234), (22, 2, 6),
    (24, 4, 100000), (28, 4, 1000), (32, 4, 128), (36, 4, 512), (42, 2, 64), (44, 4, 512), (52, 4, 512), (60, 4, 0x2000), (80, 8, 0x400000), (88, 4, 8)]
  head ++ turnBytes 1 0 1000000 0 0 ++ turnBytes 3 1000000 1000000 0 0 ++ turnBytes 4 2000000 1000000 1 0 ++
    turnBytes 5 3000000 1000000 0 0 ++ turnBytes 6 4000000 1000000 0 0 ++ turnBytes 8 5000000 1000000 0 0

/-- A PLAN_LOAD of `len` bytes at host address 64, and the engine in replicated mode with the image there. -/
def loadDesc (len : Nat) : Desc := desc Op.planLoad [(8, 8, 64), (16, 4, len)]
def imaged : State := { running [loadDesc 512] (regPut Reg.basinGeomF 0x2000 live) with hostMem := writeBytes 64 image [] }

theorem image_length : image.length = 512 := by decide +kernel

theorem image_read : hostRead imaged 64 512 = image := by
  rw [← image_length]
  exact readBytes_writeBytes (m := []) rfl 64 image

theorem image_checksum : audit01 image 512 = true := by
  unfold audit01
  rw [crc32c_steps]
  decide +kernel

theorem image_passes : audit imaged image 512 = 0 := by
  unfold audit
  rw [image_checksum]
  decide +kernel

/-- A plan arm of a standby plan by step and by instant, at the least step and the earliest instant allowed. -/
def armDesc (form n at_ : Nat) : Desc := { desc Op.planArm [(8, 1, form), (12, 4, 7), (16, 4, n), (24, 8, at_)] with fetchedAt := 1000000000 }
def armStep (n : Nat) : State := { running [armDesc 0 n 0] stepping with plans := { stepping.plans with standby := some (planWith []) } }
def armAt : State := { running [armDesc 1 4 1001000000] live with plans.standby := some (planWith []) }
def retiring : State := running [desc Op.planRetire [(8, 4, 7)]] stepping

theorem meets_PlanDescriptors :
    (applyEnv (quiet imaged) imaged = imaged ∧ descAt imaged 0 0 Op.planLoad (loadDesc 512) = true ∧ (loadDesc 512).f 8 8 = 64 ∧
      (loadDesc 512).f 16 4 = 512 ∧ (imaged.plans.armed.isSome && imaged.plans.standby.isSome) = false ∧
      audit imaged (hostRead imaged 64 512) 512 = 0) ∧
    (applyEnv (quiet (asks (loadDesc 128))) (asks (loadDesc 128)) = asks (loadDesc 128) ∧
      descAt (asks (loadDesc 128)) 0 0 Op.planLoad (loadDesc 128) = true ∧ (loadDesc 128).f 8 8 % 64 = 0 ∧ (loadDesc 128).f 16 4 = 128 ∧
      audit (asks (loadDesc 128)) (hostRead (asks (loadDesc 128)) 64 128) 128 ≠ 0) ∧
    (applyEnv (quiet (armStep 4)) (armStep 4) = armStep 4 ∧ descAt (armStep 4) 0 0 Op.planArm (armDesc 0 4 0) = true ∧
      (armStep 4).plans.standby = some (planWith []) ∧ (planWith []).id = (armDesc 0 4 0).f 12 4 ∧ (armDesc 0 4 0).f 8 1 = 0 ∧
      planActive (armStep 4) = true ∧ stepNum (armStep 4) < (armDesc 0 4 0).f 16 4 ∧ (armStep 4).restore.armStep = none) ∧
    (applyEnv (quiet armAt) armAt = armAt ∧ descAt armAt 0 0 Op.planArm (armDesc 1 4 1001000000) = true ∧
      armAt.plans.standby = some (planWith []) ∧ (armDesc 1 4 1001000000).f 8 1 = 1 ∧ planActive armAt = false ∧
      (armDesc 1 4 1001000000).fetchedAt + 1000000 ≤ (armDesc 1 4 1001000000).f 24 8 ∧ armAt.job.live = true ∧
      armAt.job.liveAt ≤ (armDesc 1 4 1001000000).f 24 8 ∧ armAt.restore.armStep.all (· = 4) = true) ∧
    (applyEnv (quiet (armStep 3)) (armStep 3) = armStep 3 ∧ descAt (armStep 3) 0 0 Op.planArm (armDesc 0 3 0) = true ∧
      (armDesc 0 3 0).f 16 4 ≤ stepNum (armStep 3)) ∧
    (applyEnv (quiet retiring) retiring = retiring ∧ descAt retiring 0 0 Op.planRetire (desc Op.planRetire [(8, 4, 7)]) = true ∧
      retiring.plans.active = some (planWith allTurns) ∧ (planWith allTurns).id = (desc Op.planRetire [(8, 4, 7)]).f 8 4) :=
  ⟨meets rfl (by rw [image_read, image_passes]; decide +kernel), meets rfl (by decide +kernel), meets rfl (by decide +kernel),
   meets rfl (by decide +kernel), meets rfl (by decide +kernel), meets rfl (by decide +kernel)⟩

/-- An image at a misaligned address, an armed plan that stands by, an arm of no kind, and a retire of another plan. -/
theorem meets_PlanDescriptors_stops :
    let skew := desc Op.planLoad [(8, 8, 32), (16, 4, 512)]
    let armed := { running [loadDesc 512] stepping with plans := { stepping.plans with standby := some (planWith []), armed := some (.atStep 4) } }
    let odd := armDesc 2 4 0
    let other := desc Op.planRetire [(8, 4, 8)]
    (applyEnv (quiet (asks skew)) (asks skew) = asks skew ∧ descAt (asks skew) 0 0 Op.planLoad skew = true ∧ skew.f 8 8 % 64 ≠ 0) ∧
    (applyEnv (quiet armed) armed = armed ∧ descAt armed 0 0 Op.planLoad (loadDesc 512) = true ∧ (loadDesc 512).f 8 8 % 64 = 0 ∧
      128 ≤ (loadDesc 512).f 16 4 ∧ (loadDesc 512).f 16 4 ≤ 2097152 ∧ (armed.plans.armed.isSome && armed.plans.standby.isSome) = true) ∧
    (applyEnv (quiet (asks odd)) (asks odd) = asks odd ∧ descAt (asks odd) 0 0 Op.planArm odd = true ∧ 1 < odd.f 8 1) ∧
    (applyEnv (quiet (running [other] stepping)) (running [other] stepping) = running [other] stepping ∧
      descAt (running [other] stepping) 0 0 Op.planRetire other = true ∧
      (∀ p, (running [other] stepping).plans.active = some p → p.id ≠ other.f 8 4)) :=
  ⟨meets rfl (by decide +kernel), meets rfl (by decide +kernel), meets rfl (by decide +kernel), meets rfl ⟨by decide +kernel, by
    intro p h; cases h; decide +kernel⟩⟩

/-- A COUNTER_READ of the last register of the window, and a HEALTH_READ of the last of 8 tensors. -/
def counterDesc : Desc := desc Op.counterRead [(8, 4, 2 ^ 20 - 4), (12, 4, 1), (16, 1, 1), (24, 8, 128)]
def healthDesc : Desc := desc Op.healthRead [(8, 4, 7), (12, 4, 1), (16, 4, 8), (24, 8, 128)]

theorem meets_HealthAndCounterReads :
    (applyEnv (quiet (asks counterDesc)) (asks counterDesc) = asks counterDesc ∧ descAt (asks counterDesc) 0 0 Op.counterRead counterDesc = true ∧
      counterDesc.f 8 4 % 4 = 0 ∧ 0 < counterDesc.f 12 4 ∧ counterDesc.f 12 4 ≤ 4096 ∧ counterDesc.f 8 4 + 4 * counterDesc.f 12 4 = 2 ^ 20 ∧
      counterDesc.f 24 8 % 64 = 0) ∧
    (applyEnv (quiet (asks healthDesc)) (asks healthDesc) = asks healthDesc ∧ descAt (asks healthDesc) 0 0 Op.healthRead healthDesc = true ∧
      regionSize (asks healthDesc) 3 ≠ 0 ∧ 0 < healthDesc.f 12 4 ∧ healthDesc.f 12 4 ≤ 8192 ∧
      healthDesc.f 8 4 + healthDesc.f 12 4 = healthDesc.f 16 4 ∧ healthDesc.f 24 8 % 64 = 0 ∧
      roundUp (8 * healthDesc.f 16 4 * 32) 65536 ≤ regionSize (asks healthDesc) 3) ∧
    (let d := desc Op.counterRead [(8, 4, 2 ^ 20 - 4), (12, 4, 2)]
     applyEnv (quiet (asks d)) (asks d) = asks d ∧ descAt (asks d) 0 0 Op.counterRead d = true ∧ 2 ^ 20 < d.f 8 4 + 4 * d.f 12 4) ∧
    (let d := desc Op.healthRead [(8, 4, 8), (12, 4, 1), (16, 4, 8)]
     applyEnv (quiet (asks d)) (asks d) = asks d ∧ descAt (asks d) 0 0 Op.healthRead d = true ∧ regionSize (asks d) 3 ≠ 0 ∧
      d.f 16 4 < d.f 8 4 + d.f 12 4) ∧
    (let bare := { asks healthDesc with regions := #v[(0, 0x400000), (0, 0), (0, 0), (0, 0), (0, 0)] }
     applyEnv (quiet bare) bare = bare ∧ descAt bare 0 0 Op.healthRead healthDesc = true ∧ regionSize bare 3 = 0) :=
  ⟨meets rfl (by decide +kernel), meets rfl (by decide +kernel), meets rfl (by decide +kernel), meets rfl (by decide +kernel),
   meets rfl (by decide +kernel)⟩

/-- A scrub or repair of the last chunk of the pond, and of one past it. -/
def pondRange (op off : Nat) : Desc := desc op [(8, 1, 2), (16, 8, off), (24, 8, 65536)]

theorem meets_ScrubAndRepairRanges : ∀ op ∈ [Op.scrubRange, Op.repairRange], ∀ off ∈ [0x7F0000, 0x800000],
    applyEnv (quiet (asks (pondRange op off))) (asks (pondRange op off)) = asks (pondRange op off) ∧
      descAt (asks (pondRange op off)) 0 0 op (pondRange op off) = true ∧
      ((asks (pondRange op off)).guard.ranges.any fun x => x.ring = 0 ∧ x.idx = 0) = false ∧
      rangeBad (asks (pondRange op off)) ((pondRange op off).f 8 1) ((pondRange op off).f 16 8) ((pondRange op off).f 24 8) 65536 =
        (if off = 0x7F0000 then none else some 0xE3) := by
  intro op ho off hf
  refine meets rfl ?_
  revert off op
  decide +kernel

/-- Ranges that have begun. -/
theorem meets_ScrubAndRepairRanges_begun : ∀ op ∈ [Op.scrubRange, Op.repairRange],
    let begun := { asks (pondRange op 0) with guard.ranges := [{ ring := 0, idx := 0 }] }
    applyEnv (quiet begun) begun = begun ∧ descAt begun 0 0 op (pondRange op 0) = true ∧
      (begun.guard.ranges.any fun x => x.ring = 0 ∧ x.idx = 0) = true := by
  intro op ho
  refine meets rfl ?_
  revert op
  decide +kernel

/-! ### Snapshots and restores -/

/-- Memory that holds fields, given as (address, bytes, value) in rising order. -/
def fieldCells (fs : List (Nat × Nat × Nat)) : Mem := fs.flatMap fun f => listed f.1 (le f.2.1 f.2.2)

/-- A slot of step 2 at partition offset 2^32: its manifest, a table of one entry, and a shard of the pond record in few bytes: its record, 64
table entries that name one frame, and that frame, a plane of one byte. -/
def slot0 : Mem :=
  let a := 2 ^ 32
  fieldCells ([(a, 4, 0x54534E4D), (a + 4, 2, 2), (a + 8, 8, 3), (a + 20, 4, 2), (a + 48, 4, 1), (a + 64, 4, 3258006882), (a + 4092, 4, 672525668),
    (a + 4100, 1, 2), (a + 4104, 8, 8192), (a + 4112, 8, 4368), (a + 4120, 4, 3860631741), (a + 4124, 4, 64),
    (a + 8192, 4, 0x44524853), (a + 8196, 2, 2), (a + 8198, 1, 2), (a + 8204, 4, 2), (a + 8216, 4, 7), (a + 8292, 4, 4368),
    (a + 12284, 4, 1454326253)] ++ (List.range 64).map (fun i => (a + 12288 + 4 * i, 4, 4352)) ++
    [(a + 12544, 4, 16), (a + 12548, 1, 1), (a + 12552, 4, 0x1000001), (a + 12556, 1, 0x5A)])

/-- An export into room for exactly the shard, the manifest into as much room as it needs and into 64 bytes less, and streams of the last of
the shard's 64 chunks and of one past it. -/
def exportDesc : Desc := desc Op.snapExport [(24, 8, 64), (32, 8, 4416)]
def manifestDesc : Desc := { desc Op.snapManifest [(24, 8, 64), (32, 8, 8192)] with idx := 1 }
def shortDesc : Desc := { desc Op.snapManifest [(24, 8, 64), (32, 8, 8128)] with idx := 2 }
def streamDesc : Desc := { desc Op.streamWindow [(20, 4, 63), (24, 4, 1), (32, 8, 0x40000000), (40, 8, 0x50000000)] with idx := 3 }
def pastDesc : Desc := { desc Op.streamWindow [(20, 4, 64), (24, 4, 1), (32, 8, 0x40000000), (40, 8, 0x50000000)] with idx := 4 }
/-- RESTORE_LOAD of step 2, which the slot holds, and of step 1. -/
def restoreDesc : Desc := { desc Op.restoreLoad [(8, 4, 2)] with idx := 5 }
def mixedDesc : Desc := { desc Op.restoreLoad [(8, 4, 1)] with idx := 6 }

/-- The live engine with that slot as the first of two of 16 KiB, pinned, a plan of no tensors in standby, and those descriptors. -/
def slotted : State :=
  { running [exportDesc, manifestDesc, shortDesc, streamDesc, pastDesc, restoreDesc, mixedDesc] (regPut Reg.snapPin 1 live) with
    pond := { live.pond with pins := 1 },
    flash := slot0, fw := { live.fw with flashLen := 2 ^ 32 + 2 * 16384 }, plans.standby := some (planWith []) }

theorem slot_valid : slotValid slotted 0 = true := by
  simp only [slotValid, crc32c_steps]
  decide +kernel

theorem stream_good : streamBad slotted streamDesc = none := by
  simp only [streamBad]
  rw [show streamDesc.f 8 1 = 0 by decide +kernel, slot_valid]
  decide +kernel

theorem stream_past : streamBad slotted pastDesc = some 0xE3 := by
  simp only [streamBad]
  rw [show pastDesc.f 8 1 = 0 by decide +kernel, slot_valid]
  decide +kernel

/-- SNAP_POND after a commit under the standby plan, and drains with and without wait. -/
def pondDesc : Desc := desc Op.snapPond []
def ponding : State := { running [pondDesc] live with
  step.committed := some 2, plans := { live.plans with standby := some (planWith []), lastCommitId := some 7 } }
def drainDesc (wait : Nat) : Desc := desc Op.snapDrain [(8, 1, wait)]

theorem meets_SnapshotDescriptors :
    (applyEnv (quiet ponding) ponding = ponding ∧ descAt ponding 0 0 Op.snapPond pondDesc = true ∧ snapPondBad ponding = none ∧
      ponding.plans.standby = some (planWith []) ∧ ponding.pond.held = false ∧ ponding.pond.copy = none) ∧
    (∀ w : Fin 2, applyEnv (quiet (asks (drainDesc w))) (asks (drainDesc w)) = asks (drainDesc w) ∧
      descAt (asks (drainDesc w)) 0 0 Op.snapDrain (drainDesc w) = true ∧ (asks (drainDesc w)).pond.drain = none ∧ (drainDesc w).f 8 1 = w) ∧
    (applyEnv (quiet slotted) slotted = slotted ∧ slotValid slotted 0 = true ∧
      (descAt slotted 0 0 Op.snapExport exportDesc = true ∧ exportDesc.f 8 1 = 0 ∧ exportDesc.f 24 8 % 64 = 0 ∧ exportDesc.f 32 8 % 64 = 0 ∧
        writtenEntry slotted 0 (exportDesc.f 16 4) = some (8192, 4368, 3860631741, 64) ∧ 4368 ≤ exportDesc.f 32 8 ∧ slotted.badUnits = []) ∧
      (descAt slotted 0 1 Op.snapManifest manifestDesc = true ∧ manifestDesc.f 8 1 = 0 ∧ manifestDesc.f 24 8 % 64 = 0 ∧
        manifestDesc.f 32 8 % 64 = 0 ∧ 4096 + roundUp (32 * tableCount (manifestOf slotted 0)) 4096 = manifestDesc.f 32 8) ∧
      (descAt slotted 0 2 Op.snapManifest shortDesc = true ∧ shortDesc.f 8 1 = 0 ∧ shortDesc.f 24 8 % 64 = 0 ∧ shortDesc.f 32 8 % 64 = 0 ∧
        shortDesc.f 32 8 < 4096 + roundUp (32 * tableCount (manifestOf slotted 0)) 4096) ∧
      (descAt slotted 0 3 Op.streamWindow streamDesc = true ∧ (slotted.pond.streams.any fun x => x.ring = 0 ∧ x.idx = 3) = false ∧
        streamBad slotted streamDesc = none) ∧
      (descAt slotted 0 4 Op.streamWindow pastDesc = true ∧ (slotted.pond.streams.any fun x => x.ring = 0 ∧ x.idx = 4) = false ∧
        streamBad slotted pastDesc = some 0xE3)) :=
  ⟨meets rfl (by decide +kernel), fun w => meets rfl (by revert w; decide +kernel),
   meets rfl ⟨slot_valid, by decide +kernel, by decide +kernel, by decide +kernel, by rw [stream_good]; decide +kernel,
     by rw [stream_past]; decide +kernel⟩⟩

/-- SNAP_POND with no standby plan and with the pond held; SNAP_DRAIN of another kind and while one is in progress; exports into too small a
buffer, of no slot and to a misaligned one; SNAP_MANIFEST of no slot. -/
theorem meets_SnapshotDescriptors_stops :
    let held := { ponding with pond := { ponding.pond with held := true } }
    let draining := { asks (drainDesc 0) with pond := { live.pond with drain := some { ring := 1, idx := 0, waitNext := true } } }
    let small := { exportDesc with bytes := block 64 [(0, 1, Op.snapExport), (24, 8, 64), (32, 8, 4352)] }
    let skew := desc Op.snapExport [(24, 8, 32), (32, 8, 4416)]
    let none_ := desc Op.snapManifest [(24, 8, 64), (32, 8, 8192)]
    let skewed := desc Op.snapManifest [(24, 8, 32), (32, 8, 8192)]
    (applyEnv (quiet (asks pondDesc)) (asks pondDesc) = asks pondDesc ∧ descAt (asks pondDesc) 0 0 Op.snapPond pondDesc = true ∧
      snapPondBad (asks pondDesc) = some 0xE4) ∧
    (applyEnv (quiet held) held = held ∧ descAt held 0 0 Op.snapPond pondDesc = true ∧ snapPondBad held = none ∧
      held.plans.standby = some (planWith []) ∧ held.pond.held = true) ∧
    (applyEnv (quiet (asks (drainDesc 2))) (asks (drainDesc 2)) = asks (drainDesc 2) ∧ descAt (asks (drainDesc 2)) 0 0 Op.snapDrain (drainDesc 2) = true ∧
      (asks (drainDesc 2)).pond.drain = none ∧ 1 < (drainDesc 2).f 8 1) ∧
    (applyEnv (quiet draining) draining = draining ∧ descAt draining 0 0 Op.snapDrain (drainDesc 0) = true ∧ draining.pond.drain.isSome = true) ∧
    (let tight := { slotted with rings := (running [small] slotted).rings }
     applyEnv (quiet tight) tight = tight ∧ descAt tight 0 0 Op.snapExport small = true ∧ small.f 8 1 < 8 ∧ small.f 24 8 % 64 = 0 ∧ small.f 32 8 % 64 = 0 ∧
        writtenEntry tight 0 (small.f 16 4) = some (8192, 4368, 3860631741, 64) ∧ small.f 32 8 < 4368) ∧
    (applyEnv (quiet (asks exportDesc)) (asks exportDesc) = asks exportDesc ∧ descAt (asks exportDesc) 0 0 Op.snapExport exportDesc = true ∧
      slotValid (asks exportDesc) 0 = false) ∧
    (applyEnv (quiet (asks skew)) (asks skew) = asks skew ∧ descAt (asks skew) 0 0 Op.snapExport skew = true ∧ skew.f 24 8 % 64 ≠ 0) ∧
    (applyEnv (quiet (asks none_)) (asks none_) = asks none_ ∧ descAt (asks none_) 0 0 Op.snapManifest none_ = true ∧ none_.f 8 1 < 8 ∧
      none_.f 24 8 % 64 = 0 ∧ none_.f 32 8 % 64 = 0 ∧ slotValid (asks none_) 0 = false) ∧
    (applyEnv (quiet (asks skewed)) (asks skewed) = asks skewed ∧ descAt (asks skewed) 0 0 Op.snapManifest skewed = true ∧ skewed.f 24 8 % 64 ≠ 0) :=
  ⟨meets rfl (by decide +kernel), meets rfl (by decide +kernel), meets rfl (by decide +kernel), meets rfl (by decide +kernel), meets rfl (by decide +kernel),
   meets rfl (by decide +kernel), meets rfl (by decide +kernel), meets rfl (by decide +kernel), meets rfl (by decide +kernel)⟩

theorem valid_slots : validSlots slotted = [0] := by
  have h : List.range (slotCount slotted) = [0, 1] := by decide +kernel
  have h1 : slotValid slotted 1 = false := by decide +kernel
  simp only [validSlots, h, List.filter, slot_valid, h1]

/-- The sources of one valid slot whose table has one entry. -/
theorem one_slot (s : State) {off sum : Nat} (hv : validSlots s = [0]) (hl : (slotTable s 0).length / 32 = 1)
    (h5 : field 5 1 (slice 0 32 (slotTable s 0)) = 0) (h8 : field 8 8 (slice 0 32 (slotTable s 0)) = off)
    (h24 : field 24 4 (slice 0 32 (slotTable s 0)) = sum) (hr : recordGood (flashRead s (slotBase s 0 + off) 4096) = true)
    (hu : unitsGood s (slotBase s 0 + off) 4096 = true) :
    slotSources s = [sourceOfRecord s (flashRead s (slotBase s 0 + off) 4096) 2 0 0 sum] := by
  simp [slotSources, hv, hl, h5, h8, h24, hr, hu, List.range_succ]

/-- A pond record's run read from its one source, a shard in a slot. -/
theorem one_run (s : State) {p : Plan} {x : Shard} {y : Source} {step off stored sum chunks : Nat} (hx : x.kind = 2) (hy : y.kind = 2)
    (hs : y.step = step) (ht : y.tier = 2) (hw : writtenEntry s y.slot y.shard = some (off, stored, sum, chunks))
    (hv : slotValid s y.slot = true) (hu : s.badUnits = []) (h : sum = y.sum) (h' : stored = y.stored)
    (hb : (storedBytes (fun o k => flashRead s (slotBase s y.slot + off + o) k) y 0 4194304).isSome = true) :
    (readRuns [y] step p [x] s).1.isSome = true := by
  obtain ⟨bs, hb⟩ := Option.isSome_iff_exists.mp hb
  simp [readRuns, hx, hy, hs, readFirst, readSource, ht, hw, hv, h, h', unitsGood, hu, hb]

/-- The shard of the slot as a source, and the run of the plan's tables that it serves. -/
def slotSource : Source := sourceOfRecord slotted (flashRead slotted (slotBase slotted 0 + 8192) 4096) 2 0 0 3860631741
def recordRun : Shard :=
  { q := 0, kind := 2, tensor := 0, operand := 0, plane := 0, addr := pondRecAddr slotted (planWith []), chunks := 64, first := 0, width := 1 }

theorem record_good : recordGood (flashRead slotted (slotBase slotted 0 + 8192) 4096) = true := by
  simp only [recordGood, crc32c_steps]
  decide +kernel

theorem own_sources : ownSources slotted = [slotSource] := by
  have h : liveSources slotted ++ pondSources slotted = [] := by decide +kernel
  rw [ownSources, h, one_slot slotted (off := 8192) (sum := 3860631741) valid_slots (by decide +kernel) (by decide +kernel) (by decide +kernel) (by decide +kernel) record_good (by decide +kernel)]
  rfl

theorem stored_good : (storedBytes (fun o k => flashRead slotted (slotBase slotted slotSource.slot + 8192 + o) k) slotSource 0 4194304).isSome = true := by
  simp only [storedBytes, show slotSource.slot = 0 from rfl, Nat.add_zero, record_good, crc32c_steps]
  decide +kernel

theorem read_good : (readRuns (ownSources slotted) 2 (planWith []) (shardsOf slotted (planWith [])) slotted).1.isSome = true := by
  rw [show shardsOf slotted (planWith []) = [recordRun] by decide +kernel, own_sources]
  exact one_run slotted (off := 8192) (stored := 4368) (sum := 3860631741) (chunks := 64) rfl (by decide +kernel) (by decide +kernel) rfl (by decide +kernel) slot_valid rfl (by decide +kernel) (by decide +kernel) stored_good

/-- RESTORE_SCAN with room for exactly the empty catalogue, and with none. -/
def scanDesc (n : Nat) : Desc := desc Op.restoreScan [(8, 8, 64), (16, 8, n), (24, 8, 128)]
def loadActive : State := running [restoreDesc] stepping
/-- RESTORE_RESLICE of a map of no entries at the earliest deadlines, and of 192 bytes of zeros. -/
def mapDesc : Desc := { desc Op.restoreReslice [(8, 8, 64), (16, 8, 192), (24, 8, 1002000000), (32, 8, 1002000001)] with fetchedAt := 1000000000 }
def mapless : State := { running [mapDesc] live with plans.standby := some (planWith []) }
def mapped : State :=
  { mapless with hostMem := fieldCells [(64, 4, 0x50414D52), (68, 2, 2), (70, 2, 1), (72, 8, 192), (80, 4, 4172726344), (92, 4, 8), (96, 4, 260)] }

theorem map_good : mapStatus mapped (hostRead mapped 64 192) 192 = (Code.ok, some (planWith [])) := by
  simp only [mapStatus, mapHeaderOk, crc32c_steps]
  decide +kernel

/-- The read of the need at a step, of the slotted engine. -/
theorem reads_step : (∃ runs s', readRuns (ownSources slotted) (restoreDesc.f 8 4) (planWith []) (shardsOf slotted (planWith []))
      { slotted with restore.spoiled := [], restore.writtenBytes := 0 } = (some runs, s')) ∧
    (∃ s', readRuns (ownSources slotted) (mixedDesc.f 8 4) (planWith []) (shardsOf slotted (planWith []))
      { slotted with restore.spoiled := [], restore.writtenBytes := 0 } = (none, s')) := by
  have h : ({ slotted with restore.spoiled := [], restore.writtenBytes := 0 } : State) = slotted := rfl
  rw [show restoreDesc.f 8 4 = 2 by decide +kernel, show mixedDesc.f 8 4 = 1 by decide +kernel, h]
  refine ⟨?_, slotted, ?_⟩
  · have hr := read_good
    revert hr
    generalize readRuns (ownSources slotted) 2 (planWith []) (shardsOf slotted (planWith [])) slotted = r
    obtain ⟨_ | runs, s'⟩ := r
    · simp
    · exact fun _ => ⟨runs, s', rfl⟩
  · rw [show shardsOf slotted (planWith []) = [recordRun] by decide +kernel, own_sources]
    decide +kernel

theorem meets_RestoreDescriptors :
    (applyEnv (quiet (asks (scanDesc 64))) (asks (scanDesc 64)) = asks (scanDesc 64) ∧ descAt (asks (scanDesc 64)) 0 0 Op.restoreScan (scanDesc 64) = true ∧
      (catalogue (asks (scanDesc 64)) (scanObjects (asks (scanDesc 64)) (scanDesc 64))).2.length = 64 ∧
      (scanDesc 64).f 8 8 = 64 ∧ (scanDesc 64).f 16 8 = 64 ∧ (scanDesc 64).f 24 8 = 128 ∧ (scanDesc 64).f 32 1 ≤ 64) ∧
    (applyEnv (quiet (asks (scanDesc 0))) (asks (scanDesc 0)) = asks (scanDesc 0) ∧ descAt (asks (scanDesc 0)) 0 0 Op.restoreScan (scanDesc 0) = true ∧
      (scanDesc 0).f 16 8 < (catalogue (asks (scanDesc 0)) (scanObjects (asks (scanDesc 0)) (scanDesc 0))).2.length) ∧
    (applyEnv (quiet loadActive) loadActive = loadActive ∧ descAt loadActive 0 5 Op.restoreLoad restoreDesc = true ∧ planActive loadActive = true) ∧
    (applyEnv (quiet slotted) slotted = slotted ∧ descAt slotted 0 5 Op.restoreLoad restoreDesc = true ∧
      descAt slotted 0 6 Op.restoreLoad mixedDesc = true ∧ planActive slotted = false ∧ slotted.plans.standby = some (planWith []) ∧
      logicalAll slotted (planWith []) = true) ∧
    (applyEnv (quiet mapless) mapless = mapless ∧ descAt mapless 0 0 Op.restoreReslice mapDesc = true ∧ mapless.restore.running = false ∧
      resliceBad mapless mapDesc = none ∧ mapDesc.f 8 8 = 64 ∧ mapDesc.f 16 8 = 192 ∧
      mapStatus mapless (hostRead mapless 64 192) 192 = (Code.refusedPlan, none)) ∧
    (applyEnv (quiet mapped) mapped = mapped ∧ descAt mapped 0 0 Op.restoreReslice mapDesc = true ∧ mapped.restore.running = false ∧
      resliceBad mapped mapDesc = none ∧ mapStatus mapped (hostRead mapped 64 192) 192 = (Code.ok, some (planWith []))) :=
  ⟨meets rfl (by decide +kernel), meets rfl (by decide +kernel), meets rfl (by decide +kernel), meets rfl (by decide +kernel),
   meets rfl (by decide +kernel), meets rfl (by rw [map_good]; decide +kernel)⟩

/-- A tensor of one element that the cistern has no logical entry of. -/
def lone : TensorEntry :=
  { id := 1, program := 0, policy := 0, touchMode := 0, elems := 1, gradOff := 0, gradType := 0, weightOp := 0, opCount := 0, rowLen := 1, origin := 0,
    touchMap := 0, lastTouch := 0, allOps := [] }

/-- A scan to a misaligned buffer; a load of a plan whose logical table is not there; a restore that runs, and one with its end no later than
its choice. -/
theorem meets_RestoreDescriptors_stops :
    let skew := desc Op.restoreScan [(8, 8, 32), (16, 8, 64), (24, 8, 128)]
    let bare := { asks (desc Op.restoreLoad []) with plans.standby := some { planWith [] with tensors := [lone] } }
    let again := { asks mapDesc with restore.running := true }
    let late := { desc Op.restoreReslice [(8, 8, 64), (16, 8, 192), (24, 8, 1002000000), (32, 8, 1002000000)] with fetchedAt := 1000000000 }
    (applyEnv (quiet (asks skew)) (asks skew) = asks skew ∧ descAt (asks skew) 0 0 Op.restoreScan skew = true ∧ skew.f 8 8 % 64 ≠ 0) ∧
    (applyEnv (quiet bare) bare = bare ∧ descAt bare 0 0 Op.restoreLoad (desc Op.restoreLoad []) = true ∧ planActive bare = false ∧
      bare.plans.standby = some { planWith [] with tensors := [lone] } ∧ logicalAll bare { planWith [] with tensors := [lone] } = false) ∧
    (applyEnv (quiet again) again = again ∧ descAt again 0 0 Op.restoreReslice mapDesc = true ∧ again.restore.running = true) ∧
    (applyEnv (quiet (asks late)) (asks late) = asks late ∧ descAt (asks late) 0 0 Op.restoreReslice late = true ∧
      (asks late).restore.running = false ∧ resliceBad (asks late) late = some 0xE3) :=
  ⟨meets rfl (by decide +kernel), meets rfl (by decide +kernel), meets rfl (by decide +kernel), meets rfl (by decide +kernel)⟩

/-- A package of one unit at an address: a base of one empty segment, or patch 8. -/
def basePack (a : Nat) : Mem := fieldCells [(a, 4, 0x4D494B4F), (a + 4, 2, 2), (a + 32, 4, 4096), (a + 44, 4, 1), (a + 4092, 4, 129795632)]
def patchPack (a : Nat) : Mem :=
  fieldCells [(a, 4, 0x4D494B4F), (a + 4, 2, 2), (a + 6, 1, 1), (a + 7, 1, 8), (a + 32, 4, 4096), (a + 4092, 4, 2340787641)]

/-- FW_STAGE of the base and of patch 8, and with an activation pending. -/
def stageBase : Desc := desc Op.fwStage [(8, 8, 64), (16, 4, 4096)]
def stagePatch : Desc := desc Op.fwStage [(8, 8, 64), (16, 4, 4096), (20, 1, 1), (24, 4, 8)]
def packing (d : Desc) (m : Mem) : State := { asks d with hostMem := m }
def activating : State := { asks stageBase with fw := { live.fw with activation := some (2, 3000000000) } }

theorem pack_good : packOk (hostRead (packing stageBase (basePack 64)) 64 4096) = true ∧
    packOk (hostRead (packing stagePatch (patchPack 64)) 64 4096) = true := by
  simp only [packOk, packHeadOk, crc32c_steps]
  decide +kernel

theorem meets_PackageStaged :
    (applyEnv (quiet (packing stageBase (basePack 64))) (packing stageBase (basePack 64)) = packing stageBase (basePack 64) ∧
      descAt (packing stageBase (basePack 64)) 0 0 Op.fwStage stageBase = true ∧ stageBase.f 8 8 = 64 ∧ stageBase.f 16 4 = 4096 ∧
      stageBase.f 20 1 = 0 ∧ stageBase.f 24 4 = 0 ∧ (packing stageBase (basePack 64)).fw.activation = none ∧
      let b := hostRead (packing stageBase (basePack 64)) 64 4096
      packOk b = true ∧ field 6 1 b = 0 ∧ field 7 1 b = 0 ∧ segmentsOk b = true ∧ bindFault (packing stageBase (basePack 64)) b = 0 ∧
        Memory.wf (packing stageBase (basePack 64)).flash = true) ∧
    (applyEnv (quiet (packing stagePatch (patchPack 64))) (packing stagePatch (patchPack 64)) = packing stagePatch (patchPack 64) ∧
      descAt (packing stagePatch (patchPack 64)) 0 0 Op.fwStage stagePatch = true ∧ stagePatch.f 20 1 = 1 ∧ stagePatch.f 24 4 = 8 ∧
      let b := hostRead (packing stagePatch (patchPack 64)) 64 4096
      packOk b = true ∧ field 6 1 b = 1 ∧ field 7 1 b = 8 ∧ bindFault (packing stagePatch (patchPack 64)) b = 0) ∧
    (applyEnv (quiet activating) activating = activating ∧ descAt activating 0 0 Op.fwStage stageBase = true ∧
      activating.fw.activation.isSome = true) :=
  ⟨meets rfl (by simp only [pack_good]; decide +kernel), meets rfl (by simp only [pack_good]; decide +kernel), meets rfl (by decide +kernel)⟩

/-- A length of no whole units; a package in an empty buffer; a good one at an engine of another hardware type. -/
theorem meets_PackageStaged_stops :
    let odd := desc Op.fwStage [(8, 8, 64), (16, 4, 4095)]
    let foreign := { packing stageBase (basePack 64) with fw := { live.fw with hwType := 9 } }
    (applyEnv (quiet (asks odd)) (asks odd) = asks odd ∧ descAt (asks odd) 0 0 Op.fwStage odd = true ∧ odd.f 16 4 % 4096 ≠ 0) ∧
    (applyEnv (quiet (asks stageBase)) (asks stageBase) = asks stageBase ∧ descAt (asks stageBase) 0 0 Op.fwStage stageBase = true ∧
      (asks stageBase).fw.activation = none ∧ packOk (hostRead (asks stageBase) 64 4096) = false) ∧
    (applyEnv (quiet foreign) foreign = foreign ∧ descAt foreign 0 0 Op.fwStage stageBase = true ∧ foreign.fw.activation = none ∧
      let b := hostRead foreign 64 4096
      packOk b = true ∧ field 6 1 b = 0 ∧ field 7 1 b = 0 ∧ segmentsOk b = true ∧ bindFault foreign b = 1) :=
  ⟨meets rfl (by decide +kernel), meets rfl (by decide +kernel), meets rfl ⟨by decide +kernel, by decide +kernel, pack_good.1, by decide +kernel⟩⟩

/-! ### Statements of the culvert -/

/-- The live engine frozen in step 3; with refill 5 accepted, and in its recovery run. -/
def frozen : State := { inStep [] with refill.frozen := true, refill.state := 1 }
def refillMsg : RefillMsg := ⟨5, 2, 900000000, 1003000000, 2000000000, [⟨3, 1, 0⟩]⟩
def accepted : State := { frozen with refill := { frozen.refill with state := 2, msg := some refillMsg, lastId := 5 } }

theorem meets_StatusPolicyAndFreeze :
    Met live (heard live frame .queryStatus = true ∧ heard live { frame with tag := 0 } (.policy 4 1) = true ∧ heard live frame .freezeJob = true ∧
      live.refill.frozen = false ∧ live.pendingCommit = false) ∧
    Met frozen (heard frozen frame .freezeJob = true ∧ frozen.refill.frozen = true) :=
  ⟨meets rfl (by decide +kernel), meets rfl (by decide +kernel)⟩

/-- Releases of both kinds at the earliest instant, and of the wrong refill; a refill of 13 lost chips at the earliest instant. -/
def thirteen : List Coord := (List.range 13).map fun i => ⟨i + 4, 0, 0⟩
def lastHead : FrameHead := { seq := 0, tag := 0 }
def newRefill : CulMsg := .beginRefill 0 1 6 2 900000000 1003000000 1003000001 thirteen

theorem meets_ReleaseAndRefillMessages :
    Met accepted ((∀ k : Fin 2, heard accepted frame (.releaseJob 5 k 1002000000 0) = true ∧
        releaseOk 5 k 1002000000 (counted (.releaseJob 5 k 1002000000 0) accepted) = true) ∧
      heard accepted frame (.releaseJob 4 0 1002000000 0) = true ∧ releaseOk 4 0 1002000000 (counted (.releaseJob 4 0 1002000000 0) accepted) = false ∧
      heard accepted frame (.releaseJob 5 0 1001999999 0) = true ∧
      releaseOk 5 0 1001999999 (counted (.releaseJob 5 0 1001999999 0) accepted) = false) ∧
    Met accepted (heard accepted lastHead newRefill = true ∧ 6 ≠ accepted.refill.lastId ∧ thirteen ≠ [] ∧ thirteen.length = 13 ∧
      refillValid ⟨6, 2, 900000000, 1003000000, 1003000001, thirteen⟩ (counted newRefill accepted) = true) ∧
    Met accepted (heard accepted lastHead (.beginRefill 0 1 5 0 0 0 0 []) = true ∧ 5 = accepted.refill.lastId) :=
  ⟨meets rfl (by decide +kernel), meets rfl (by decide +kernel), meets rfl (by decide +kernel)⟩

theorem meets_BasinMapStages : Met live (heard live { frame with tag := 65535 } (.basinMap 4228 35 2 260 33 7) = true ∧
    heard live { frame with tag := 0 } (.basinMap 0xFFFFFFFF 35 2 260 228 7) = true ∧ live.pendingCommit = false ∧ 33 % 64 = 33 ∧ 228 % 64 = 36 ∧
    65535 < 2 ^ 16) := meets rfl (by decide +kernel)

/-- A START of the 8 chips at the earliest deadline and instant, and the start staged by it: at the root, and at another chip. -/
def startFields : StartFields := ⟨8, 0x1234, ⟨1, 0, 0⟩, 1, 1004000000, 1002000000, 8000, 1, 2⟩
def rooted : State := { base with job.staged := some { fields := startFields, isRoot := true }, job.isRoot := true }
def joined : State := { base with job.staged := some { fields := { startFields with root := ⟨0, 0, 0⟩ }, isRoot := false } }

theorem meets_StartAndModeMessages :
    Met live (heard live frame (.modeChange 2 1001000000 1 1) = true ∧ frame.tag ≠ 0 ∧ live.job.live = true ∧ live.job.pendingMode = none ∧
      live.job.epoch < 2) ∧
    Met base (heard base frame (.start 8 1 1004000000 1002000000 8000 1 2) = true ∧
      rootOk (counted (.start 8 1 1004000000 1002000000 8000 1 2) base) frame.tag
        ⟨8, frame.tag, here base, 1, 1004000000, 1002000000, 8000, 1, 2⟩ = true) ∧
    Met rooted (heard rooted frame .startAbort = true ∧ rooted.job.staged = some { fields := startFields, isRoot := true } ∧
      startFields.tag = frame.tag ∧ rooted.ht < startFields.deadline) ∧
    Met joined (heard joined frame .startAbort = true ∧ joined.job.staged = some { fields := { startFields with root := ⟨0, 0, 0⟩ }, isRoot := false } ∧
      joined.ht < startFields.instant) :=
  ⟨meets rfl (by decide +kernel), meets rfl (by decide +kernel), meets rfl (by decide +kernel), meets rfl (by decide +kernel)⟩

/-- The engine with the base package in bank A and nothing in the staging area; with a staged bank; with a bank on trial; and dry. -/
def banked : State := { live with flash := basePack (2 ^ 30) }
def stagedBank : State := { live with fw := { live.fw with banks := [{ state := .confirmed }, { state := .staged, version := 3 }] } }
def trialBank : State := { live with fw := { live.fw with banks := [{ state := .confirmed }, { state := .trial, version := 3 }] } }
def dryEngine : State := { base with ready := false, dry := true, fw := { base.fw with serial := 0x123456789 } }
/-- The digest of nothing, which a FIRMWARE_STAGE of no patches covers, and that message. -/
def noDigest : Bytes := sha256 []
def stageNone : CulMsg := .fwStage 1 0 0 noDigest

theorem bank_read : readPack banked 0 0 = some (flashRead banked (2 ^ 30) 4096) := by
  have h : packOk (flashRead banked (2 ^ 30) 4096) = true := by
    simp only [packOk, packHeadOk, crc32c_steps]
    decide +kernel
  have hn : field 32 4 (flashRead banked (partAddr 0 0) 4096) = 4096 := by decide +kernel
  simp only [readPack, hn, show unitsGood banked (partAddr 0 0) 4096 = true by decide +kernel]
  rw [if_neg (by decide), show partAddr 0 0 = 2 ^ 30 by decide, if_pos h]

theorem readPack_counted (m : CulMsg) (s : State) (a j : Nat) : readPack (counted m s) a j = readPack s a j := rfl

/-- A stage of no patches on a confirmed bank A that holds a good base of version 0. -/
theorem stage_nothing (s : State) {b : Bytes} (hr : readPack s 0 0 = some b) (hb : s.fw.banks = [{ state := .confirmed }, {}])
    (h6 : field 6 1 b = 0) (h7 : field 7 1 b = 0) (hg : segmentsOk b = true) (hf : bindFault s b = 0) (hv : field 8 4 b = 0) :
    stageCheck s 1 0 0 noDigest = (0, [b]) := by
  have hc : confirmedBank s = 0 := by rw [confirmedBank, hb]; rfl
  simp [stageCheck, stageParts, upFrom, hc, bankAt, hb, chainParts, hr, indexed, checkChain, h6, h7, hg, hf, hv, applyChain, noDigest]

theorem meets_FirmwareMessages :
    Met banked (heard banked frame stageNone = true ∧ inTrial (counted stageNone banked) = false ∧ banked.fw.activation = none ∧
      stageCheck (counted stageNone banked) 1 0 0 noDigest = (0, [flashRead banked (2 ^ 30) 4096])) ∧
    Met stagedBank (heard stagedBank frame (.fwActivate 3 1000000000) = true ∧
      (bankAt (counted (.fwActivate 3 1000000000) stagedBank) (standbyIndex (counted (.fwActivate 3 1000000000) stagedBank))).state = .staged ∧
      (bankAt (counted (.fwActivate 3 1000000000) stagedBank) (standbyIndex (counted (.fwActivate 3 1000000000) stagedBank))).version = 3 ∧
      inTrial (counted (.fwActivate 3 1000000000) stagedBank) = false ∧ stagedBank.fw.activation = none) ∧
    Met trialBank (heard trialBank frame (.fwConfirm 3) = true ∧
      trialBank.fw.banks = [{ state := .confirmed }, { state := .trial, version := 3 }]) ∧
    Met dryEngine (awake dryEngine = true ∧ dryEngine.dry = true ∧ dryEngine.restarting = [] ∧ frame.format = 2 ∧
      (dryEngine.culvert.acted.find? fun a => a.1 = culType (.clearDry 0x23456789)) ≠ some (culType (.clearDry 0x23456789), frame.tag, .clearDry 0x23456789) ∧
      0x23456789 = dryEngine.fw.serial % 2 ^ 32) :=
  ⟨meets rfl ⟨rfl, by decide +kernel, rfl, stage_nothing _ (by rw [readPack_counted, bank_read]) rfl (by decide +kernel) (by decide +kernel)
      (by decide +kernel) (by decide +kernel) (by decide +kernel)⟩,
   meets rfl (by decide +kernel), meets rfl (by decide +kernel), meets rfl (by decide +kernel)⟩

/-- A refill whose start has passed, and the second of five parts of one. -/
theorem meets_ReleaseAndRefillMessages_parts :
    let late : CulMsg := .beginRefill 0 1 6 2 900000000 1000000000 1003000001 thirteen
    let part : CulMsg := .beginRefill 1 5 6 0 0 0 0 thirteen
    Met accepted (heard accepted lastHead late = true ∧ 6 ≠ accepted.refill.lastId ∧ thirteen ≠ [] ∧ thirteen.length = 13 ∧
      refillValid ⟨6, 2, 900000000, 1000000000, 1003000001, thirteen⟩ (counted late accepted) = false) ∧
    Met accepted (heard accepted lastHead part = true ∧ 6 ≠ accepted.refill.lastId ∧ accepted.refill.parts = none) :=
  ⟨meets rfl (by decide +kernel), meets rfl (by decide +kernel)⟩

/-- A map with no good axis byte, and one that meets a pending commit. -/
theorem meets_BasinMapStages_stops :
    Met live (heard live frame (.basinMap 4228 35 2 260 35 7) = true ∧ 35 % 64 ≠ 36 ∧ 35 % 64 ≠ 33) ∧
    Met moved (heard moved frame (.basinMap 4228 35 2 260 36 7) = true ∧ moved.pendingCommit = true) :=
  ⟨meets rfl (by decide +kernel), meets rfl (by decide +kernel)⟩

/-- A companion of a spare's start before its refill, and one in mode 2; a START of a live job; aborts that come at the last too late, and with
no start staged. -/
def decidedRoot : State :=
  { base with job.staged := some { fields := { startFields with deadline := 1000000000 }, isRoot := true }, job.isRoot := true }
def pastStart : State := { base with job.staged := some { fields := { startFields with instant := 1000000000 }, isRoot := false } }

theorem meets_StartAndModeMessages_stops :
    Met base (heard base frame (.modeChange 2 1001000000 1 0) = true ∧ frame.tag ≠ 0 ∧ base.job.pendingMode = none ∧ base.job.live = false ∧
      companionOk { epoch := 2, instant := 1001000000, mode := 1, flags := 0 } (counted (.modeChange 2 1001000000 1 0) base) = true) ∧
    Met base (heard base frame (.modeChange 2 1001000000 2 0) = true ∧
      companionOk { epoch := 2, instant := 1001000000, mode := 2, flags := 0 } (counted (.modeChange 2 1001000000 2 0) base) = false) ∧
    Met live (heard live frame (.start 8 1 1004000000 1002000000 8000 1 2) = true ∧
      rootOk (counted (.start 8 1 1004000000 1002000000 8000 1 2) live) frame.tag
        ⟨8, frame.tag, here live, 1, 1004000000, 1002000000, 8000, 1, 2⟩ = false) ∧
    Met decidedRoot (heard decidedRoot frame .startAbort = true ∧
      decidedRoot.job.staged = some { fields := { startFields with deadline := 1000000000 }, isRoot := true } ∧ startFields.tag = frame.tag ∧
      1000000000 ≤ decidedRoot.ht) ∧
    Met pastStart (heard pastStart frame .startAbort = true ∧
      pastStart.job.staged = some { fields := { startFields with instant := 1000000000 }, isRoot := false } ∧ 1000000000 ≤ pastStart.ht) ∧
    Met live (heard live frame .startAbort = true ∧ live.job.staged = none) :=
  ⟨meets rfl (by decide +kernel), meets rfl (by decide +kernel), meets rfl (by decide +kernel), meets rfl (by decide +kernel),
   meets rfl (by decide +kernel), meets rfl (by decide +kernel)⟩

/-- A stage that meets a trial; an activation of another version; a confirmation where nothing is on trial. -/
theorem meets_FirmwareMessages_stops :
    Met trialBank (heard trialBank frame stageNone = true ∧ inTrial (counted stageNone trialBank) = true) ∧
    Met stagedBank (heard stagedBank frame (.fwActivate 4 1000000000) = true ∧
      (bankAt (counted (.fwActivate 4 1000000000) stagedBank) (standbyIndex (counted (.fwActivate 4 1000000000) stagedBank))).version ≠ 4) ∧
    Met stagedBank (heard stagedBank frame (.fwConfirm 3) = true ∧ stagedBank.fw.banks = [{ state := .confirmed }, { state := .staged, version := 3 }]) :=
  ⟨meets rfl (by decide +kernel), meets rfl (by decide +kernel), meets rfl (by decide +kernel)⟩

theorem meets_BadFramesCounted : Met live (live.power.state ≠ 3 ∧ live.ready = true ∧ awake live = true) ∧
    Met dryEngine (dryEngine.power.state ≠ 3 ∧ dryEngine.dry = true) :=
  ⟨meets rfl (by decide +kernel), meets rfl (by decide +kernel)⟩

/-- An event queued, with 19,999 and with 20,000 sent within the second; a heartbeat due 1 ms after the last; a DRY event due after 10 s. -/
def queued (n : Nat) : State :=
  { live with culvert := { live.culvert with queue := [⟨0x04, 0, 0, 0, [], 0x1234⟩], sentAt := List.replicate n 500000000 } }
def beating : State := { live with culvert := { live.culvert with heartbeats := true, hbAt := some 999000000 } }
def dried : State := { dryEngine with ht := 10000000000 }

theorem recent_replicate (n ht a : Nat) (h : ht < a + 1000000000) :
    ((List.replicate n a).filter fun t => decide (ht < t + 1000000000)).length = n := by simp [h]

theorem meets_FramesSent :
    (∀ n, Met (queued n) (culvertSends (queued n) = true ∧ (queued n).culvert.queue = [⟨0x04, 0, 0, 0, [], 0x1234⟩] ∧
      ((queued n).culvert.sentAt.filter fun t => decide ((queued n).ht < t + 1000000000)).length = n)) ∧
    Met beating (culvertSends beating = true ∧ beating.culvert.heartbeats = true ∧
      (beating.culvert.hbAt.all fun t => decide (t + 1000000 ≤ beating.ht)) = true) ∧
    Met dried (dried.dry = true ∧ dried.power.state < 2 ∧ dried.dryEventAt + 10000000000 ≤ dried.ht) :=
  ⟨fun n => meets rfl ⟨rfl, rfl, recent_replicate n 1000000000 500000000 (by decide)⟩, meets rfl (by decide +kernel), meets rfl (by decide +kernel)⟩

/-! ### Statements of the fabric port and the basin code -/

/-- A header in step 3 from a chip of the job, at an offset. -/
def from3 (c : Coord) (off : Nat := 0) : PktHead := { from_ c with offset := off, stepLow := 3 }

/-- Malformed: 4,112 bytes. Then of another job, of another generation, for window 57 with no plan and for window 45. -/
theorem meets_IntakeDrops : Met live (flumeRuns live = true ∧ malformed 1 4112 0 = true ∧ malformed 1 4096 0 = false ∧ tagOf live ≠ 0 ∧
    0x124 ≠ jobIdOf live ∧ (from_ ⟨0, 0, 0⟩).jobId = jobIdOf live ∧ 5 ≠ genOf live ∧ (from_ ⟨0, 0, 0⟩).gen = genOf live ∧ planActive live = false ∧
    57 ≤ (57 : Nat) ∧ 45 < (46 : Nat)) := meets rfl (by decide +kernel)

/-- A page, and the offset of the last page of the last slot that this chip holds of its 64 stripes: parity 1 of stripe 62. -/
def page : Bytes := List.replicate 4096 0x5A#8
def lastPage : Nat := 31 * 65536 + 15 * 4096
/-- That page come before, and its contribution settled. -/
def noted15 : State := notePending 31 0 15 stepping
def settled31 : State := setArrived 31 0 stepping

theorem meets_DeltaPageAccumulates :
    (∀ s ∈ [stepping, noted15, settled31], Met s (delivered s (from3 ⟨0, 0, 0⟩ lastPage) 2 57 page.length = true ∧
      (from3 ⟨0, 0, 0⟩ lastPage).stepLow = stepNum s % 256 ∧ page.length = 4096 ∧ lastPage % 4096 = 0 ∧ (unplace s 31).1 < plotChunks s ∧
      contribOf s 31 ⟨0, 0, 0⟩ = some 0 ∧ isAbsent s 31 = false ∧ (basinMode s && isLocal s (unplace s 31).2) = false)) ∧
    (arrived stepping 31 0 = false ∧ (pendingOf stepping 31 0).toNat.testBit 15 = false) ∧
    (pendingOf noted15 31 0).toNat.testBit 15 = true ∧ arrived settled31 31 0 = true ∧
    (delivered stepping (from3 ⟨2, 0, 0⟩ lastPage) 2 57 page.length = true ∧ contribOf stepping 31 ⟨2, 0, 0⟩ = none) := by
  refine ⟨fun s h => meets ?_ ?_, by decide +kernel, by decide +kernel, by decide +kernel, by decide +kernel⟩ <;> revert s <;> decide +kernel

/-- The chip at (0, 0, 0), which holds the local parity of even stripes for the basin in row 1. -/
def localHolder : State := regPut Reg.jobCoordF 0 stepping
def settled0 : State := setArrived 31 3 localHolder

theorem meets_MarkersSettleBits :
    Met localHolder (delivered localHolder (from3 ⟨3, 1, 0⟩) 6 59 16 = true ∧ markerSlot localHolder false 62 ⟨3, 1, 0⟩ = some (31, 3) ∧
      arrived localHolder 31 3 = false ∧ 0#16 = pendingOf localHolder 31 3 ∧ 1#16 ≠ pendingOf localHolder 31 3 ∧
      memberSender localHolder ⟨3, 1, 0⟩ = true ∧ progressOf localHolder (memberOf localHolder ⟨3, 1, 0⟩) < min 64 (plotChunks localHolder) ∧
      2 ≠ stepNum localHolder) ∧
    Met settled0 (delivered settled0 (from3 ⟨3, 1, 0⟩) 6 59 16 = true ∧ markerSlot settled0 false 62 ⟨3, 1, 0⟩ = some (31, 3) ∧
      arrived settled0 31 3 = true) ∧
    Met stepping (delivered stepping (from3 ⟨0, 0, 0⟩) 6 59 16 = true ∧ markerSlot stepping true 62 ⟨0, 0, 0⟩ = some (31, 0) ∧
      arrived stepping 31 0 = false ∧ 0#16 = pendingOf stepping 31 0 ∧ basinMode stepping = true ∧ isRowMate stepping ⟨0, 0, 0⟩ = true ∧
      62 < plotChunks stepping ∧ heldParity stepping 62 = some (1, 31) ∧ contribOf stepping 31 ⟨0, 0, 0⟩ = some 0 ∧
      (basinMode stepping && isLocal stepping 1) = false) :=
  ⟨meets rfl (by decide +kernel), meets rfl (by decide +kernel), meets rfl (by decide +kernel)⟩

/-- Acknowledgements of one entry (48 B with its padding) from a holder, from a row mate and of step 2; entries that waited 4 µs; an
UPDATE that runs. -/
def ackOne (step : Nat) : AckBody := { step := step, limit := 0, entries := [62] }
def acking : State := { stepping with basin.acks := [{ dest := ⟨3, 1, 0⟩, entries := [(62, 999996000)] }] }
def fresh : State := { stepping with basin.acks := [{ dest := ⟨3, 1, 0⟩, entries := [(62, 999996001)] }] }
def updating : State := { stepping with step := { stepping.step with updBegun := true } }

theorem meets_AcknowledgementsAndTimers :
    Met stepping (delivered stepping (from3 ⟨3, 1, 0⟩) 5 58 (ackBodyBytes (ackOne 3)).length = true ∧ (ackOne 3).step = stepNum stepping ∧
      bankPosition stepping ⟨3, 1, 0⟩ = some 3 ∧ bankPosition stepping ⟨0, 0, 0⟩ = none ∧ isRowMate stepping ⟨0, 0, 0⟩ = true ∧
      delivered stepping (from3 ⟨0, 0, 0⟩) 5 58 (ackBodyBytes (ackOne 3)).length = true ∧ (ackOne 2).step ≠ stepNum stepping) ∧
    Met acking (flumeRuns acking = true ∧ acking.refill.frozen = false ∧
      (acking.basin.acks.any fun a => a.dest = ⟨3, 1, 0⟩ && ackDue acking a) = true) ∧
    Met fresh (flumeRuns fresh = true ∧ fresh.refill.frozen = false ∧
      (fresh.basin.acks.any fun a => a.dest = ⟨3, 1, 0⟩ && ackDue fresh a) = false) ∧
    Met updating (flumeRuns updating = true ∧ updating.refill.frozen = false ∧ codedMode updating = true ∧ updating.step.updBegun = true ∧
      updating.basin.stopped = false ∧ bankPosition updating ⟨3, 1, 0⟩ = some 3) :=
  ⟨meets rfl (by decide +kernel), meets rfl (by decide +kernel), meets rfl (by decide +kernel), meets rfl (by decide +kernel)⟩

/-! ### Statements of the agreement and the reduction -/

/-- A child's contribution; the engine at its cut-off, at the root's timeout, and without a verdict; a verdict of the step. -/
def verdict (v : Nat) : Verdict := { step := 3, planId := 7, commitAt := 1000000000, complete := 8, verdict := v, firstInc := 0xFFFF }
def cutting : State := { stepping with agree.open_ := true, agree.endAt := 1000032000 }
def timing : State := regPut Reg.jobCoordF 34 { stepping with agree.open_ := true, agree.endAt := 1000008000 }
def noWord : State := { stepping with
  agree.open_ := true, agree.endAt := 999992000,
  culvert := { stepping.culvert with queue := List.replicate 63 ⟨0x04, 0, 0, 0, [], 0x1234⟩ } }

theorem meets_AgreementPackets :
    Met stepping (delivered stepping (from3 ⟨0, 0, 0⟩) 1 60 32 = true ∧ (agreeKids stepping).contains ⟨0, 0, 0⟩ = true ∧
      stepping.agree.ownSent = false ∧ stepping.step.released = false ∧ delivered stepping (from3 ⟨2, 1, 0⟩) 7 60 32 = true ∧
      (verdict 0).step = stepNum stepping ∧ stepping.agree.verdict = none) ∧
    Met cutting (flumeRuns cutting = true ∧ agreeCutoff cutting = cutting.ht) ∧
    Met timing (flumeRuns timing = true ∧ timing.agree.open_ = true ∧ agreeParent timing = none ∧ timing.agree.verdictSent = false ∧
      timing.refill.frozen = false ∧ timing.agree.endAt - (hopOf timing - 4000) = timing.ht) :=
  ⟨meets rfl (by decide +kernel), meets rfl (by decide +kernel), meets rfl (by decide +kernel)⟩

/-- A contribution of a chip that is no child; verdicts of the catch-up and of another step; a member before its cut-off. -/
theorem meets_AgreementPackets_others :
    Met stepping ((agreeKids stepping).contains ⟨3, 1, 0⟩ = false ∧ delivered stepping (from3 ⟨3, 1, 0⟩) 1 60 32 = true ∧
      (verdict 1).verdict = 1 ∧ (verdict 2).step = stepNum stepping ∧ committedWord stepping + 1 = (verdict 2).step ∧
      { verdict 0 with step := 2 }.step ≠ stepNum stepping) ∧
    (let early := { cutting with ht := 999999999 }
     Met early (flumeRuns early = true ∧ early.ht < agreeCutoff early)) :=
  ⟨meets rfl (by decide +kernel), meets rfl (by decide +kernel)⟩

theorem meets_CommitOfAStep : stepping.refill.state = 0 ∧ stepping.guard.attempts = [] := ⟨rfl, rfl⟩

theorem meets_NoVerdict : Met noWord (flumeRuns noWord = true ∧ noWord.agree.open_ = true ∧ noWord.agree.verdict = none ∧
    noWord.refill.frozen = false ∧ noWord.agree.endAt + (hopOf noWord - 4000) = noWord.ht ∧ noWord.culvert.queue.length < 64) :=
  meets rfl (by decide +kernel)

/-- The reach of the collective, and of the scale vector, as the plan has them; the prefixes of their packets. -/
def info : RInfo :=
  { turn := 2, entry := turn 3, box := ⟨⟨0, 0, 0⟩, ⟨4, 2, 1⟩⟩, root := 0, lanes := 8, per := 760, base := 0, digest := 1438179540, tree0 := 1,
    tree1 := 2, dual := true }
def up : Prefix := { digest := 1438179540, coll := 0, reach := 0, count := 1 }
def down : Prefix := { up with down := true }
def lanes : List Lane := List.replicate 8 ⟨0, 0⟩
/-- At the cut-off and after it; and the root in step 74, in which the one frame of the reach is sampled. -/
def atCut : State := { stepping with ht := 1004988000 }
def afterCut : State := { stepping with ht := 1004988001 }
def sampling : State := { localHolder with step.num := 74, step.polarity := false, step.committed := some 73 }

theorem meets_ContributionsCombined :
    (∀ s ∈ [atCut, afterCut], Met s (frameParts (.lanes up lanes) = some (up, lanes, []) ∧
      delivered s (from3 ⟨2, 0, 0⟩) 4 (frameWindow up) (wireLen s (.lanes up lanes)) = true ∧ judgePacket s up ⟨2, 0, 0⟩ false 0 = 3 ∧
      infoOf s { keyOf up with path1 := false, retry := false } = some info ∧ s.red.aborted.contains 0 = false ∧
      frameNamed s (keyOf up) info 0 = some 0 ∧ ((reachAt s (keyOf up)).any fun r => r.closed || r.cut.contains (memberIn s info.box ⟨2, 0, 0⟩)) = false ∧
      ((reachAt s (keyOf up)).any fun r => r.frames.any fun a => a.f = 0 && a.kids.contains (memberIn s info.box ⟨2, 0, 0⟩)) = false ∧
      delivered s (from3 ⟨2, 0, 0⟩) 4 63 (wireLen s (.upRecord { up with record := true } [2])) = true ∧
      judgePacket s { up with record := true } ⟨2, 0, 0⟩ false 0 = 3)) ∧
    (atCut.ht = cutoffAt atCut (keyOf up) info ∧ cutoffAt afterCut (keyOf up) info < afterCut.ht) ∧
    Met sampling (
      let p := { up with path := true }
      let k := { keyOf p with path1 := false }
      delivered sampling { from3 ⟨0, 1, 0⟩ 1572864 with stepLow := 74 } 4 62 (wireLen sampling (.lanes p lanes)) = true ∧
      sampling.red.checkStarted = false ∧ infoOf sampling { k with retry := false } = some info ∧ info.dual = true ∧
      info.rootChip sampling false = here sampling ∧ ⟨0, 1, 0⟩ = info.rootChip sampling true ∧ p.digest = info.digest ∧
      1572864 ≤ (1572864 : Nat) ∧ frameNamed sampling { k with path1 := true } info 1572864 = some 0 ∧ sampling.red.aborted.contains p.coll = false ∧
      sampling.red.settled.contains (k.coll, k.reach) = false ∧ path1Of sampling k 0 = none ∧ k.retry = false) := by
  refine ⟨fun s h => meets ?_ ?_, by decide +kernel, meets rfl (by decide +kernel)⟩ <;> revert s <;> decide +kernel

/-- A packet of collective 1, which the plan does not have, one with another digest, and one that comes after CHECK has started. -/
theorem meets_judgedAway :
    judgePacket { stepping with red.checkStarted := true } up ⟨2, 0, 0⟩ false 0 = 0 ∧ judgePacket stepping { up with coll := 1 } ⟨2, 0, 0⟩ false 0 = 1 ∧
      judgePacket stepping { up with digest := 7 } ⟨2, 0, 0⟩ false 0 = 2 := by decide +kernel

/-- The frame of the child come before; the reach closed; and a final that is held, and one that comes when its reach is settled. -/
def begun : State := openFor (keyOf up) info stepping
def twice : State := addInto (keyOf up) 0 1 (some (memberIn stepping info.box ⟨2, 0, 0⟩)) lanes [] begun
def shut : State := updReach (keyOf up) (fun r => { r with closed := true }) begun
def finalKey : RKey := { scale := false, coll := 0, reach := 0 }
def held1 : State := { sampling with red.path1 := [{ coll := 0, reach := 0, f := 0, count := 1, lanes := lanes, retry := false }] }
def settled1 : State := { sampling with red.settled := [(0, 0)] }

theorem meets_ContributionsCombined_again :
    Met twice (delivered twice (from3 ⟨2, 0, 0⟩) 4 (frameWindow up) (wireLen twice (.lanes up lanes)) = true ∧
      judgePacket twice up ⟨2, 0, 0⟩ false 0 = 3 ∧ twice.ht ≤ cutoffAt twice (keyOf up) info ∧
      ((reachAt twice (keyOf up)).any fun r => r.closed || r.cut.contains (memberIn twice info.box ⟨2, 0, 0⟩)) = false ∧
      ((reachAt twice (keyOf up)).any fun r => r.frames.any fun a => a.f = 0 && a.kids.contains (memberIn twice info.box ⟨2, 0, 0⟩)) = true) ∧
    Met shut (judgePacket shut up ⟨2, 0, 0⟩ false 0 = 3 ∧
      ((reachAt shut (keyOf up)).any fun r => r.closed || r.cut.contains (memberIn shut info.box ⟨2, 0, 0⟩)) = true) ∧
    (∀ s ∈ [held1, settled1], Met s (delivered s { from3 ⟨0, 1, 0⟩ 1572864 with stepLow := 74 } 4 62 (wireLen s (.lanes { up with path := true } lanes)) = true ∧
      s.red.checkStarted = false ∧ infoOf s finalKey = some info ∧ frameNamed s { finalKey with path1 := true } info 1572864 = some 0)) ∧
    held1.red.settled.contains (0, 0) = false ∧ (path1Of held1 finalKey 0).isSome = true ∧ settled1.red.settled.contains (0, 0) = true := by
  refine ⟨meets rfl (by decide +kernel), meets rfl (by decide +kernel), fun s h => meets ?_ ?_, by decide +kernel⟩ <;> revert s <;> decide +kernel

/-- The result of a reach whose record asks for its one frame again. -/
def record : ResultRec := { compared := 1, mismatched := 1, unverified := 0, retryList := [0], verdict := 1, bitmap := [] }
/-- A step whose CHECK turn starts late enough that the retries are still open. -/
def retrying : State := { inStep [turn 2, turn 3, { turn 5 with offset := 20000000 }] with
  red.results := [{ scale := false, coll := 0, reach := 0, record := some record }] }
def info1 : RInfo := { info with turn := 1 }

theorem meets_ResultsTaken :
    Met stepping (frameParts (.lanes down lanes) = some (down, lanes, []) ∧
      delivered stepping (from3 ⟨0, 0, 0⟩) 4 61 (wireLen stepping (.lanes down lanes)) = true ∧ judgePacket stepping down ⟨0, 0, 0⟩ true 0 = 3 ∧
      infoOf stepping { keyOf down with path1 := false, retry := false } = some info ∧ stepping.red.aborted.contains 0 = false ∧
      frameNamed stepping (keyOf down) info 0 = some 0 ∧
      delivered stepping (from3 ⟨0, 0, 0⟩) 4 63 (wireLen stepping (.resultRecord { down with record := true } record)) = true ∧
      judgePacket stepping { down with record := true } ⟨0, 0, 0⟩ true 0 = 3) ∧
    Met retrying (∀ d : Bool,
      let p := { up with retry := true, down := d }
      let from1 : Coord := if d then ⟨0, 0, 0⟩ else ⟨2, 0, 0⟩
      (keyOf p).scale = false ∧ infoOf retrying { keyOf p with path1 := false, retry := false } = some info1 ∧
      retrying.red.aborted.contains p.coll = false ∧ frameNamed retrying (keyOf p) info1 0 = some 0 ∧
      delivered retrying (from3 from1) 4 61 (wireLen retrying (.lanes p lanes)) = true ∧ frameWindow p = 61 ∧
      judgePacket retrying p from1 d 0 = 3 ∧ p.fault = false ∧ retrying.ht ≤ cutoffAt retrying (keyOf p) info1 ∧
      ((reachAt retrying (keyOf p)).any fun r => r.closed || r.cut.contains (memberIn retrying info1.box from1)) = false ∧
      ((reachAt retrying (keyOf p)).any fun r => r.frames.any fun a => a.f = 0 && a.kids.contains (memberIn retrying info1.box from1)) = false) ∧
    Met stepping (∀ d : Bool,
      let p := { up with down := d, record := true, abort := true }
      let from1 : Coord := if d then ⟨0, 0, 0⟩ else ⟨2, 0, 0⟩
      delivered stepping (from3 from1) 4 63 (wireLen stepping (.abortRecord p)) = true ∧ stepping.red.checkStarted = false ∧
      infoOf stepping { keyOf p with path1 := false, retry := false } = some info ∧ ((keyOf p).path1 && !info.dual) = false ∧
      p.digest = info.digest ∧ (if d then from1 = info.rootChip stepping false else abortSender stepping p info from1 = true)) :=
  ⟨meets rfl (by decide +kernel), meets rfl (by decide +kernel), meets rfl (by decide +kernel)⟩

/-- Aborts after CHECK has started, of a collective that the plan does not have, of another digest, and from a chip that may send none. -/
theorem meets_ResultsTaken_aborts :
    let p := fun (c : Nat) => ({ up with record := true, abort := true, coll := c } : Prefix)
    (let late := { stepping with red.checkStarted := true }
     Met late (delivered late (from3 ⟨2, 0, 0⟩) 4 63 (wireLen late (.abortRecord (p 0))) = true ∧ late.red.checkStarted = true)) ∧
    Met stepping (delivered stepping (from3 ⟨2, 0, 0⟩) 4 63 (wireLen stepping (.abortRecord (p 1))) = true ∧ stepping.red.checkStarted = false ∧
      infoOf stepping { keyOf (p 1) with path1 := false, retry := false } = none ∧
      infoOf stepping { keyOf (p 0) with path1 := false, retry := false } = some info ∧ { p 0 with digest := 7 }.digest ≠ info.digest ∧
      delivered stepping (from3 ⟨3, 1, 0⟩) 4 63 (wireLen stepping (.abortRecord (p 0))) = true ∧ abortSender stepping (p 0) info ⟨3, 1, 0⟩ = false) :=
  ⟨meets rfl (by decide +kernel), meets rfl (by decide +kernel)⟩

theorem meets_CutoffsAndDeadlines :
    Met stepping (reduceRuns stepping = true ∧ stepping.ht < cutoffAt stepping (keyOf up) info) ∧
    Met { stepping with red.checkStarted := true } (reduceRuns { stepping with red.checkStarted := true } = false) ∧
    Met localHolder (reduceRuns localHolder = true ∧ infoOf localHolder { scale := false, coll := 0, reach := 0 } = some info ∧
      info.rootChip localHolder false = here localHolder ∧ localHolder.red.aborted.contains 0 = false) :=
  ⟨meets rfl (by decide +kernel), meets rfl (by decide +kernel), meets rfl (by decide +kernel)⟩

/-! ### Statements of steps, turns and power, and of starts -/

/-- The next step announced for this instant, and a plan armed for it. -/
def announced : State := { inStep [] with step := { (inStep []).step with num := 4, announced := true, nextAt := 1000000000 } }
def armedNow : State := { live with plans := { live.plans with standby := some (planWith []), armed := some (.atInstant 4 1000000000) } }

theorem meets_StepBegins :
    Met announced (flumeRuns announced = true ∧ announced.refill.frozen = false ∧ announced.pendingCommit = false ∧
      dueStart announced = some (4, 1000000000)) ∧
    Met armedNow (flumeRuns armedNow = true ∧ armedNow.refill.frozen = false ∧ armedNow.pendingCommit = false ∧
      dueStart armedNow = some (4, 1000000000)) :=
  ⟨meets rfl (by decide +kernel), meets rfl (by decide +kernel)⟩

/-- The step of a plan with one turn of a kind, its replicas read at a margin of 1.0625; with the grant; without lock. -/
def waiting (k : Nat) : State := { inStep [turn k] with
  step := { (inStep [turn k]).step with check := 1 },
  power := { live.power with grant := 1000000000, replicas := (List.range 24).map fun c => (c, 0x1100, 1000000000) } }
def granted (k : Nat) : State := { waiting k with power := { (waiting k).power with leaseGrant := true } }
def unlocked (k : Nat) : State := { waiting k with power := { (waiting k).power with lock := false } }
def planned (k : Nat) : Planned := { idx := 0, entry := turn k, step := 3, startAt := 1000000000 }
def met (s : State) (k : Nat) : State :=
  let come := if k = Kind.check then { s with red.checkStarted := true } else s
  turnCome (planned k) { come with step.turns := come.step.turns ++ [newRun come (planned k) []] }
/-- The admission margin of the granted step, and the state that judges it. -/
def margin (k : Nat) : Nat := min 0x1000 (lowestReplica (met (granted k) k) - regNat (met (granted k) k) Reg.marginGuard)
def judged (k : Nat) : State := { met (granted k) k with power.admMargin := margin k }

theorem meets_TurnsAdmitted : ∀ k ∈ [1, 2, 3, 4, 5, 6, 7, 8, 9], (planned k).entry.kind = k ∧
    (∀ s ∈ [waiting k, granted k, unlocked k], Met s (flumeRuns s = true ∧ s.refill.frozen = false ∧ s.pendingCommit = false ∧
      plannedAt s 0 = some (planned k) ∧ runOf s 0 3 = none ∧ meetsTurn s (planned k) = true ∧ (k ≠ 7 → deltaIdx s = none) ∧
      (s.step.turns.find? fun r => r.kind = Kind.delta ∧ r.step = 3) = none)) ∧
    (refusedTurn (met (waiting k) k) (planned k) = false ∧ (waiting k).power.leaseGrant = false) ∧
    (refusedTurn (met (granted k) k) (planned k) = false ∧ (granted k).power.leaseGrant = true ∧
      margin k ≠ 0 ∧ regNat (met (granted k) k) Reg.marginFloor ≤ margin k ∧ grantCovers (judged k) (turn k) = true ∧
      (judged k).plans.active = some (planWith [turn k]) ∧
      (∃ n, needOf (planWith [turn k]) (lowestCap (judged k)) (turn k) (margin k) = some n ∧
        n ≤ (planned k).startAt + (planned k).entry.duration - (judged k).ht)) ∧
    refusedTurn (met (unlocked k) k) (planned k) = true := by
  intro k hk
  refine ⟨rfl, fun s hs => ⟨still s ?_, ?_⟩, ?_, ?_, ?_⟩
  · simp only [List.mem_cons, List.not_mem_nil, or_false] at hs
    rcases hs with rfl | rfl | rfl <;> rfl
  · revert s
    revert k
    decide +kernel
  · revert k
    decide +kernel
  · have h : ∀ k ∈ [1, 2, 3, 4, 5, 6, 7, 8, 9], needOf (planWith [turn k]) (lowestCap (judged k)) (turn k) (margin k) = some 26000 := by
      decide +kernel
    refine ⟨?_, rfl, ?_, ?_, ?_, ?_, 26000, h k hk, ?_⟩ <;> revert k <;> decide +kernel
  · revert k
    decide +kernel

/-- An engine in hold, which meets no turn; one whose replicas have not been read; an UPDATE whose DELTA was refused, and one whose DELTA comes
first. -/
def deltaRun : TurnRun := { idx := 0, step := 3, kind := 7, entry := turn 7, planId := 7, ring := 0, startAt := 1000000000, duration := 10000000, phase := 3 }
def blind (k : Nat) : State := { granted k with power := { (granted k).power with replicas := [] } }
def afterDelta (rs : List TurnRun) : State := { inStep [turn 7, turn 6] with step := { (inStep [turn 7, turn 6]).step with check := 1, turns := rs } }

theorem meets_TurnsAdmitted_stops :
    (∀ k ∈ [1, 2, 3, 4, 5, 6, 7, 8, 9],
      (let held := { waiting k with job := { live.job with held := true } }
       Met held (flumeRuns held = true ∧ held.refill.frozen = false ∧ held.pendingCommit = false ∧ plannedAt held 0 = some (planned k) ∧
        runOf held 0 3 = none ∧ meetsTurn held (planned k) = false)) ∧
      Met (blind k) (flumeRuns (blind k) = true ∧ plannedAt (blind k) 0 = some (planned k) ∧ meetsTurn (blind k) (planned k) = true ∧
        refusedTurn (met (blind k) k) (planned k) = false ∧ (blind k).power.leaseGrant = true ∧
        min 0x1000 (lowestReplica (met (blind k) k) - regNat (met (blind k) k) Reg.marginGuard) = 0)) ∧
    (∀ rs ∈ [[deltaRun], []], Met (afterDelta rs) (flumeRuns (afterDelta rs) = true ∧ (afterDelta rs).refill.frozen = false ∧
      (afterDelta rs).pendingCommit = false ∧ plannedAt (afterDelta rs) 1 = some { planned 6 with idx := 1 } ∧ runOf (afterDelta rs) 1 3 = none ∧
      meetsTurn (afterDelta rs) { planned 6 with idx := 1 } = true ∧
      ((afterDelta rs).step.turns.find? fun r => r.kind = Kind.delta ∧ r.step = 3) = rs.head? ∧ deltaIdx (afterDelta rs) = some 0 ∧
      (plannedAt (afterDelta rs) 0).map (fun d => (runOf (afterDelta rs) d.idx d.step).isSome) = some (!rs.isEmpty))) := by
  refine ⟨fun k hk => ⟨meets rfl ?_, meets rfl ?_⟩, fun rs hr => meets rfl ?_⟩
  · revert k
    decide +kernel
  · revert k
    decide +kernel
  · revert rs
    decide +kernel

/-- A GAP turn whose work is complete; a MIRROR turn and a CHECK turn at their planned ends, not met; an update that waits past the COMMIT
turn, with its run and without. -/
def gapRun : TurnRun := { idx := 0, step := 3, kind := 4, entry := turn 4, planId := 7, ring := 0, startAt := 1000000000, duration := 10000000, phase := 1 }
def gapping : State := { inStep [turn 4] with step := { (inStep [turn 4]).step with turns := [gapRun] } }
def ended (k : Nat) : State := { inStep [turn k] with ht := 1010000000 }
def updRun : TurnRun := { gapRun with idx := 1, kind := 6, entry := turn 6 }
def stuck (rs : List TurnRun) : State := { inStep [turn 8, turn 6] with
  ht := 1010000000, step := { (inStep [turn 8, turn 6]).step with turns := rs }, upd.started := true, upd.waiting := true }

theorem meets_EndsOfTurns :
    Met gapping (controllersRun gapping = true ∧ ((runningTurns gapping).find? fun r => r.idx = 0) = some gapRun ∧ workDone gapping gapRun = true) ∧
    (∀ k ∈ [1, 5], Met (ended k) (flumeRuns (ended k) = true ∧ (ended k).refill.frozen = false ∧
      ((plannedTurns (ended k)).find? fun q => q.idx = 0 ∧ q.startAt + q.entry.duration ≤ (ended k).ht) = some (planned k) ∧
      ((runOf (ended k) 0 3).all fun r => decide (r.phase ≠ 0)) = true ∧ (planned k).entry.kind = k ∧ (ended k).step.mirrorGot.contains 3 = false ∧
      (ended k).step.check = 0)) ∧
    (∀ rs ∈ [[updRun], [{ updRun with phase := 2 }], []], Met (stuck rs) (flumeRuns (stuck rs) = true ∧ (stuck rs).refill.frozen = false ∧
      ((plannedTurns (stuck rs)).any fun q => q.entry.kind = Kind.commit && decide (q.startAt + q.entry.duration ≤ (stuck rs).ht)) = true ∧
      (stuck rs).basin.stopped = false ∧ (stuck rs).upd.started = true ∧ (stuck rs).step.updDone = false ∧ (stuck rs).upd.waiting = true ∧
      ((stuck rs).step.turns.find? fun r => r.kind = Kind.update ∧ r.step = stepNum (stuck rs) ∧ (r.phase = 1 ∨ r.phase = 2)) = rs.head?)) := by
  refine ⟨meets rfl (by decide +kernel), fun k hk => meets rfl ?_, fun rs hr => meets rfl ?_⟩
  · revert k
    decide +kernel
  · revert rs
    decide +kernel

/-- The earliest raise of lease hold before a turn, at 200 µs; a held lease; no lock. -/
def aheadOf : State := { inStep [turn 4] with ht := 999800000, step.startAt := some 1000000000 }
def held : State := { inStep [turn 4] with power := { live.power with leaseHold := true } }
def lockless : State := { live with power := { live.power with lock := false } }

theorem meets_LeaseLockAndMargin :
    Met aheadOf (flumeRuns aheadOf = true ∧ aheadOf.power.state = 0 ∧ aheadOf.refill.frozen = false ∧
      planned 4 ∈ plannedTurns aheadOf ++ nextTurns aheadOf ∧ (planned 4).startAt ≤ aheadOf.ht + regNat aheadOf Reg.leaseLead ∧
      aheadOf.ht ≤ (planned 4).startAt + (planned 4).entry.duration ∧ runOf aheadOf 0 3 = none) ∧
    Met held (held.power.leaseHold = true) ∧
    Met live (flumeRuns live = true ∧ live.power.lock = true ∧ live.culvert.queue.length < 64 ∧ live.power.state < 2) ∧
    Met lockless (flumeRuns lockless = true ∧ lockless.power.lock = false) :=
  ⟨meets rfl (by decide +kernel), meets rfl (by decide +kernel), meets rfl (by decide +kernel), meets rfl (by decide +kernel)⟩

/-- A window without background work while a turn runs; and the two kinds of barrier. -/
def updating1 : State := { inStep [turn 6] with step := { (inStep [turn 6]).step with turns := [{ updRun with idx := 0 }] } }
def barred (b : Barrier) : State := { live with pond.barriers := [b] }

/-- The state as a tick takes it. -/
def ticked (s : State) : State := tickCycle (capTick { s with power.grant := 5, pond.pins := regNat s Reg.snapPin })

theorem meets_WindowTickAndBarriers :
    Met live (flumeRuns live = true ∧ controllersRun (ticked live) = true ∧ windowPermits (startDeferred (ticked live)) = true) ∧
    Met updating1 (flumeRuns updating1 = true ∧ controllersRun (ticked updating1) = true ∧ windowPermits (startDeferred (ticked updating1)) = false) ∧
    (let halted := { live with restarting := [1] }
     Met halted (flumeRuns halted = true ∧ controllersRun (ticked halted) = false)) ∧
    (∀ b, Met (barred b) ((barred b).pond.barriers = b :: [])) :=
  ⟨meets rfl (by decide +kernel), meets rfl (by decide +kernel), meets rfl (by decide +kernel), fun _ => meets rfl rfl⟩

/-- Start records: of the start that the root (0, 0, 0) sends, of other fields, and acknowledgements of a child. -/
def sentFields : StartFields := { startFields with root := ⟨0, 0, 0⟩, instant := 1001000000, deadline := 1000500000 }
def startRec (f : StartFields) : StartRec := { tree := 0, fields := f }

theorem meets_StartRecords :
    Met base (delivered base (from_ ⟨0, 0, 0⟩) 7 46 (startRecBytes 0 (startRec sentFields)).length = true ∧ (startRec sentFields).sumOk = true ∧
      sentFields.tag = tagOf base ∧ base.job.conflicted ≠ some sentFields.tag ∧ base.job.live = false ∧ base.job.staged = none ∧
      sentFields.jobChips = jobChips base ∧ base.ht + 1000000 = sentFields.instant ∧
      delivered base (from_ ⟨0, 0, 0⟩) 7 46 (startRecBytes 1 (startRec sentFields)).length = true) ∧
    Met joined (
      let x : StagedStart := { fields := { startFields with root := ⟨0, 0, 0⟩ }, isRoot := false }
      delivered joined (from_ ⟨0, 0, 0⟩) 7 46 (startRecBytes 0 (startRec sentFields)).length = true ∧ sentFields.tag = tagOf joined ∧
      joined.job.conflicted ≠ some sentFields.tag ∧ joined.job.live = false ∧ joined.job.staged = some x ∧ sentFields ≠ x.fields ∧
      delivered joined (from_ ⟨2, 0, 0⟩) 1 46 (startRecBytes 3 (startRec x.fields)).length = true ∧ x.sent.contains 0 = false ∧ x.decided = false ∧
      (ackKids joined x.fields 0).contains ⟨2, 0, 0⟩ = true ∧ x.outcome = 0 ∧
      delivered joined (from_ ⟨0, 0, 0⟩) 7 46 (startRecBytes 1 (startRec x.fields)).length = true ∧
      delivered joined (from_ ⟨0, 0, 0⟩) 7 46 (startRecBytes 2 (startRec x.fields)).length = true) :=
  ⟨meets rfl (by decide +kernel), meets rfl (by decide +kernel)⟩

/-- A copy with the fields staged; a late acknowledgement; one of a chip that is no child; records of another start. -/
theorem meets_StartRecords_others :
    let x : StagedStart := { fields := { startFields with root := ⟨0, 0, 0⟩ }, isRoot := false }
    let gone := { joined with job.staged := some { x with sent := [0] } }
    Met joined (joined.job.staged = some x ∧ (startRec x.fields).fields = x.fields ∧ (startRec x.fields).sumOk = true ∧
      (ackKids joined x.fields 0).contains ⟨3, 1, 0⟩ = false ∧
      delivered joined (from_ ⟨3, 1, 0⟩) 1 46 (startRecBytes 3 (startRec x.fields)).length = true ∧ (startRec sentFields).fields ≠ x.fields) ∧
    Met gone (gone.job.staged = some { x with sent := [0] } ∧
      delivered gone (from_ ⟨2, 0, 0⟩) 1 46 (startRecBytes 3 (startRec x.fields)).length = true ∧ [0].contains (startRec x.fields).tree = true) :=
  ⟨meets rfl (by decide +kernel), meets rfl (by decide +kernel)⟩

/-- A chip at its cut-off; the root at its deadline with every acknowledgement in and with none; a chip at the instant with each outcome; a
mode change at its instant. -/
def cutStart : State := { joined with ht := 1002000000 - 8000 - 12000 }
def allIn : StagedStart := { fields := startFields, isRoot := true, bits := [(1, [0, 1, 2, 3, 4, 5, 6, 7])] }
def deciding (x : StagedStart) : State := { rooted with ht := 1002000000, job := { rooted.job with staged := some x } }
def settling (n : Nat) : State := { base with ht := 1004000000, job.staged := some { fields := startFields, isRoot := true, outcome := n } }
def changing : State := { live with job := { live.job with pendingMode := some { epoch := 2, instant := 1000000000, mode := 1, flags := 0 } } }

theorem meets_StartDecidedAndTaken :
    Met cutStart (controllersRun cutStart = true ∧
      cutStart.job.staged = some { fields := { startFields with root := ⟨0, 0, 0⟩ }, isRoot := false } ∧
      startFields.deadline ≤ cutStart.ht + startFields.routeBound + heightOf (here cutStart) ⟨0, 0, 0⟩ * (startFields.routeBound + 4000)) ∧
    (∀ x ∈ [allIn, { allIn with bits := [] }], Met (deciding x) (controllersRun (deciding x) = true ∧ (deciding x).job.staged = some x ∧
      x.isRoot = true ∧ x.decided = false ∧ x.fields.deadline = (deciding x).ht ∧
      (((List.range x.fields.jobChips).filter fun i => !(unionIdx (ackBits (deciding x) x 0) (ackBits (deciding x) x 1)).contains i) = []) =
        (x = allIn))) ∧
    (∀ n : Fin 3, Met (settling n) (controllersRun (settling n) = true ∧
      (settling n).job.staged = some { fields := startFields, isRoot := true, outcome := n } ∧ startFields.instant = (settling n).ht)) ∧
    Met changing (controllersRun changing = true ∧ changing.job.live = true ∧
      changing.job.pendingMode = some { epoch := 2, instant := 1000000000, mode := 1, flags := 0 }) := by
  refine ⟨meets rfl (by decide +kernel), fun x hx => meets rfl ?_, fun n => meets rfl ?_, meets rfl (by decide +kernel)⟩
  · simp only [eq_iff_iff]
    revert x
    decide +kernel
  · revert n
    decide +kernel

/-! ### Statements of the refill, the page guard and the restore -/

/-- A refill accepted for this instant; a spare at its deadline; releases of both kinds at this instant and later. -/
def msgAt (start deadline : Nat) : RefillMsg := ⟨5, 2, 900000000, start, deadline, [⟨1, 0, 0⟩]⟩
def starting (n : Nat) : State := { frozen with refill := { frozen.refill with state := 2, msg := some (msgAt n 2000000000), lastId := 5 } }
def spare : State := { frozen with refill := { frozen.refill with
  state := 3, msg := some (msgAt 900000000 1000000000), lastId := 5, isSpare := true, wins := [52, 53, 54, 55, 56], absentEqs := [(62, 0)], isDecoder := true } }
def releasing (kind n : Nat) : State := { frozen with refill := { frozen.refill with release := some (kind, n, 0) } }

theorem meets_RefillInstants :
    Met (starting 1000000000) (flumeRuns (starting 1000000000) = true ∧ (starting 1000000000).refill.msg = some (msgAt 1000000000 2000000000) ∧
      (starting 1000000000).refill.state = 2) ∧
    Met (starting 1000000001) (flumeRuns (starting 1000000001) = true ∧ (starting 1000000001).ht < 1000000001) ∧
    Met spare (flumeRuns spare = true ∧ spare.refill.msg = some (msgAt 900000000 1000000000) ∧ spare.refill.isSpare = true ∧
      spare.refill.reported = false ∧ spare.refill.state = 3 ∧ (msgAt 900000000 1000000000).deadline = spare.ht) ∧
    (∀ kind ∈ [0, 1], Met (releasing kind 1000000000) (flumeRuns (releasing kind 1000000000) = true ∧ (releasing kind 1000000000).refill.frozen = true ∧
      (releasing kind 1000000000).refill.release = some (kind, 1000000000, 0))) ∧
    Met (releasing 0 1000000001) ((releasing 0 1000000001).ht < 1000000001) :=
  ⟨meets rfl (by decide +kernel), meets rfl (by decide +kernel), meets rfl (by decide +kernel), fun _ _ => meets rfl ⟨rfl, rfl, rfl⟩,
   meets rfl (by decide +kernel)⟩

/-- A member that is no spare, the windows of the refill open. -/
def accepted5 : State := { spare with refill := { spare.refill with isSpare := false, isDecoder := false } }

/-- Mirrored inputs that end their half and that do not; the last page of the plot, of the cistern and of window 54; the last page of a
share, with the fifteen others come and without. -/
def sixteen : Bytes := List.replicate 16 0x5A#8
def sharing (m : BitVec 16) : State := { spare with basin.absent := [63], refill := { spare.refill with bankGot := [(63, m)] } }

theorem meets_WindowStores :
    Met stepping (delivered stepping (from3 ⟨1, 1, 0⟩ 4096) 1 47 page.length = true ∧ stepping.plans.active = some (planWith allTurns) ∧
      4096 + page.length = (4096 / max (planWith allTurns).inputHalf 1 + 1) * (planWith allTurns).inputHalf ∧
      4096 / max (planWith allTurns).inputHalf 1 % 2 = stepNum stepping % 2 ∧
      delivered stepping (from3 ⟨1, 1, 0⟩ 4096) 1 47 sixteen.length = true ∧
      4096 + sixteen.length ≠ (4096 / max (planWith allTurns).inputHalf 1 + 1) * (planWith allTurns).inputHalf) ∧
    Met spare (delivered spare (from3 ⟨0, 0, 0⟩ 0x3FF000) 1 52 page.length = true ∧ spare.refill.isSpare = true ∧ spare.refill.frozen = true ∧
      0x3FF000 % 4096 = 0 ∧ page.length = 4096 ∧ codedMode spare = true ∧
      delivered spare (from3 ⟨0, 0, 0⟩ 0x1FFF000) 1 53 page.length = true ∧ delivered spare (from3 ⟨0, 0, 0⟩ 0x3FF000) 1 54 page.length = true) ∧
    (∀ b : Bool, let m := if b then 0x7FFF#16 else 0#16; Met (sharing m) (delivered (sharing m) (from3 ⟨0, 0, 0⟩ 0x3FF000) 1 56 page.length = true ∧
      isAbsent (sharing m) (0x3FF000 / 65536) = true ∧
      (getKey 63 0 (sharing m).refill.bankGot ||| BitVec.ofNat 16 (2 ^ (0x3FF000 % 65536 / 4096)) = 0xFFFF#16 ↔ b = true))) := by
  refine ⟨meets rfl (by decide +kernel), meets rfl (by decide +kernel), fun b => meets rfl ?_⟩
  revert b
  decide +kernel

/-- Pages for the plot at a chip that is no spare and in a recovery run; parts of pages; a page of a slot that is there. -/
def recovering : State := { spare with
  refill := { spare.refill with frozen := false }, job.mode := 0, step := { spare.step with recoveryAt := some 900000000 } }

theorem meets_WindowStores_others :
    Met accepted5 (delivered accepted5 (from3 ⟨0, 0, 0⟩ 0x3FF000) 1 52 page.length = true ∧ accepted5.refill.isSpare = false) ∧
    Met recovering (delivered recovering (from3 ⟨0, 0, 0⟩ 0x3FF000) 1 52 page.length = true ∧ recovering.refill.isSpare = true ∧
      recovering.refill.frozen = false ∧ recovering.step.recoveryAt.isSome = true) ∧
    Met spare (delivered spare (from3 ⟨0, 0, 0⟩ 16) 1 54 sixteen.length = true ∧ sixteen.length ≠ 4096 ∧
      delivered spare (from3 ⟨0, 0, 0⟩ 0x3FF000) 1 56 page.length = true ∧ isAbsent spare (0x3FF000 / 65536) = false) :=
  ⟨meets rfl (by decide +kernel), meets rfl (by decide +kernel), meets rfl (by decide +kernel)⟩

/-- A record of refill 5, or of another. -/
def chainRec (kind : Nat) : ChainRec :=
  { refillId := 5, kind := kind, equation := 1, stripe := 62, position := 128, arrival := 2, hop := 0, pending := [0, 0, 0, 0], holderStep := 3 }

theorem meets_RefillRecords :
    Met spare (delivered spare (from3 ⟨0, 0, 0⟩) 1 55 32 = true ∧ (chainRec 0).refillId = spare.refill.lastId ∧
      { chainRec 0 with refillId := 4 }.refillId ≠ spare.refill.lastId ∧ updateRuns { spare with refill.bytes := spare.refill.bytes + 32 } = false ∧
      spare.refill.isDecoder = true ∧ (chainRec 7).stripe < plotChunks spare ∧ spare.refill.isSpare = true ∧ spare.refill.frozen = true ∧
      (absentOf { spare with refill.bytes := spare.refill.bytes + 32 } 62).contains 1 = false ∧
      absentOf { spare with refill.bytes := spare.refill.bytes + 32 } 62 ≠ [] ∧
      heldParity { spare with refill.bytes := spare.refill.bytes + 32 } 62 = some (1, 31) ∧ 2 ≤ (chainRec 9).arrival) :=
  meets rfl (by decide +kernel)

/-- A member asked by the holder of its row for its part of a rebuild; a decoded record of a chunk not got, and at a chip that is no spare; a
record of another step. -/
def asked : State := { stepping with refill := { stepping.refill with lastId := 5 } }

theorem meets_RefillRecords_others :
    (let opened := { asked with refill.linkRebuild := true, refill.chainsSeen := true, refill.wins := [54, 55] }
     let r := { chainRec 8 with equation := 0 }
     Met asked (asksRebuild ⟨0, 0, 0⟩ r asked = true ∧ delivered opened (from3 ⟨0, 0, 0⟩) 1 55 32 = true)) ∧
    Met accepted5 (delivered accepted5 (from3 ⟨0, 0, 0⟩) 1 55 32 = true ∧ accepted5.refill.isDecoder = false ∧ accepted5.refill.isSpare = false ∧
      { chainRec 3 with holderStep := 2 }.holderStep ≠ stepNum accepted5) ∧
    Met spare ({ chainRec 9 with arrival := 1 }.arrival < 2 ∧ chunkGot spare 62 = false) :=
  ⟨meets rfl (by decide +kernel), meets rfl (by decide +kernel), meets rfl (by decide +kernel)⟩

/-- A repair request for stripe 62, chain records that end here and that pass on, and push requests for page 15 of the plot and of a half
that no plan places. -/
def repairRec (kind target : Nat) (who : Coord) : RepairRec :=
  { tag := 3, kind := kind, target := target, stripe := 62, mask := 0x8000, arrival := 0, hop := 0, requester := who, equation := 1, pending := [0, 0, 0, 0],
    offset := 0 }
def pushed (r : RepairRec) : Option (List (Nat × Bytes)) × State :=
  gather (fun n s => match pushSource live r n with
    | some (region, a) => readPage region a {} s
    | none => (none, s)) (pagesOf r.mask) live
/-- An attempt on page 15 of a mirrored chunk, and on a page of a basin. -/
def attempt : Attempt :=
  { tag := 3, region := 0, addr := 0x3EF000, target := 0, stripe := 62, page := 15, kind := 0, equation := 1, deadline := 1000000000,
    rest := [], forWhom := .escalation }
def repairing : State := { live with guard := { live.guard with attempts := [{ attempt with kind := 4, region := 3 }] } }

theorem meets_RepairTraffic :
    Met stepping (delivered stepping (from3 ⟨3, 1, 0⟩) 1 51 32 = true ∧ (repairRec 0 0 ⟨3, 1, 0⟩).stripe < plotChunks stepping ∧
      heldParity stepping 62 = some (1, 31) ∧ isOurMember stepping ⟨3, 1, 0⟩ = true ∧ isLocal stepping 1 = false ∧
      (repairRec 1 0 ⟨1, 0, 0⟩).requester = here stepping ∧
      (∃ rest, ((mendRoute stepping (here stepping) (repairRec 1 0 ⟨0, 0, 0⟩)).dropWhile fun c => c ≠ here stepping) = here stepping :: rest)) ∧
    Met live (delivered live (from3 ⟨3, 1, 0⟩) 1 51 32 = true ∧
      ((pagesOf (repairRec 4 4 ⟨0, 0, 0⟩).mask).all fun n => (pushSource live (repairRec 4 4 ⟨0, 0, 0⟩) n).isSome) = false ∧
      ((pagesOf (repairRec 4 5 ⟨0, 0, 0⟩).mask).all fun n => (pushSource live (repairRec 4 5 ⟨0, 0, 0⟩) n).isSome) = true ∧
      (repairRec 4 5 ⟨0, 0, 0⟩).target ≠ 0 ∧ (pushed (repairRec 4 5 ⟨0, 0, 0⟩)).1.isSome = true ∧
      delivered live (from3 ⟨0, 0, 0⟩ (3 * 65536 + 15 * 4096)) 1 50 page.length = true ∧ page.length = 4096 ∧ live.guard.attempts = []) ∧
    Met repairing (delivered repairing (from3 ⟨0, 0, 0⟩ (3 * 65536 + 15 * 4096)) 1 50 page.length = true ∧
      (repairing.guard.attempts.find? fun a => a.kind = 4 && !a.deferred && a.tag % 64 = 3 && a.page = 15 && !(a.region = 0 && mirrorMode repairing)) =
        some { attempt with kind := 4, region := 3 }) := by
  refine ⟨meets rfl ?_, meets rfl (by decide +kernel), meets rfl (by decide +kernel)⟩
  refine ⟨by decide +kernel, by decide +kernel, by decide +kernel, by decide +kernel, by decide +kernel, by decide +kernel, ?_⟩
  exact ⟨[⟨2, 0, 0⟩, ⟨3, 0, 0⟩, ⟨0, 0, 0⟩], by decide +kernel⟩

def failing (n : Nat) : State := { live with guard := { live.guard with attempts := [{ attempt with deadline := n }] } }

theorem meets_RepairAttemptsEnd :
    (∀ n ∈ [1000000000, 1000000001], Met (failing n) (flumeRuns (failing n) = true ∧ attemptOf (failing n) 3 = some { attempt with deadline := n } ∧ attemptOf (failing n) 4 = none ∧
      delivered (failing n) (from3 ⟨3, 1, 0⟩) 1 51 32 = true)) ∧ 1000000000 ≤ (failing 1000000000).ht ∧ (failing 1000000001).ht < 1000000001 :=
  ⟨fun n hn => meets rfl (by revert n; decide +kernel), by decide, by decide⟩

/-- A request from a chip of another basin, one for a stripe past the plot, chain records for other chips and past the plot, and the copy of a
plot page that its mirror holds. -/
def mirrored : State := regPut Reg.basinGeomF 0x1000 live

theorem meets_RepairTraffic_others :
    Met live (delivered live (from3 ⟨3, 1, 0⟩) 1 51 32 = true ∧ isOurMember live ⟨5, 0, 0⟩ = false ∧
      plotChunks live ≤ { repairRec 0 0 ⟨3, 1, 0⟩ with stripe := 64 }.stripe ∧ ((repairRec 1 0 ⟨0, 0, 0⟩).requester ≠ here live) ∧
      delivered live (from3 ⟨0, 0, 0⟩ 16) 1 50 sixteen.length = true ∧ sixteen.length ≠ 4096) ∧
    Met mirrored (delivered mirrored (from3 (partneredBy mirrored)) 1 51 32 = true ∧
      ((pagesOf 0x8000).all fun n => (pushSource mirrored (repairRec 4 0 (partneredBy mirrored)) n).isSome) = true) :=
  ⟨meets rfl (by decide +kernel), meets rfl (by decide +kernel)⟩

/-- Page 15 of plot chunk 62 with every beat bad: a push request for it finds it, and cannot read it. -/
def spoiled : State := { live with badBeats := (List.range 128).map fun i => 0x3EF000 + 32 * i }

theorem meets_RepairTraffic_unread :
    Met spoiled (delivered spoiled (from3 ⟨0, 0, 0⟩) 1 51 32 = true ∧
      ((pagesOf 0x8000).all fun n => (pushSource spoiled (repairRec 4 5 ⟨0, 0, 0⟩) n).isSome) = true ∧
      (gather (fun n s => match pushSource s (repairRec 4 5 ⟨0, 0, 0⟩) n with
        | some (region, a) => readPage region a {} s
        | none => (none, s)) (pagesOf 0x8000) spoiled).1.isSome = false) := meets rfl (by decide +kernel)

/-- A restore that runs in a stage: sources 0 and 1 here and source 2 at (0, 0, 0), a piece of two chunks that this chip needs from source 2,
and the same that (0, 0, 0) needs from source 0. -/
def heldAt (c : Coord) : Source :=
  { holder := c, tier := 1, slot := 0, shard := 0, step := 2, planId := 7, oldTag := 0x1234, oldCoord := c, tensor := 1, kind := 0, operand := 0,
    plane := 0, fmt := 1, first := 0, count := 32768, addr := 0, stored := 0, sum := 0 }
def piece (c : Coord) (source : Nat) : Piece :=
  { dest := c, tensor := 1, kind := 0, operand := 0, plane := 0, first := 0, count := 32768, at_ := 65536, bytes := 131072, source := source, next := 1 }
def restoring (stage : Nat) : State := { live with
  plans := { live.plans with standby := some (planWith []) },
  restore := { live.restore with
    running := true, state := stage, mapSum := 0x55, sources := [heldAt ⟨1, 0, 0⟩, heldAt ⟨1, 0, 0⟩, heldAt ⟨0, 0, 0⟩],
    pieces := [piece ⟨1, 0, 0⟩ 2, piece ⟨0, 0, 0⟩ 0], choiceAt := 2000000000, doneAt := 3000000000 } }
def restoreRec (kind : Nat) : RestoreRec := { digest := 0x55, kind := kind, position := 1, source := 2 }

theorem meets_RestoreRecords :
    Met (restoring 3) (delivered (restoring 3) (from_ ⟨0, 0, 0⟩) 1 48 4096 = true ∧ (restoring 3).restore.state = 3 ∧
      lowestIncomplete (restoring 3) = some 1 ∧ (restoring 3).restore.running = true ∧ delivered (restoring 3) (from_ ⟨0, 0, 0⟩) 1 49 32 = true ∧
      (restoreRec 2).digest = (restoring 3).restore.mapSum ∧
      ((myPieces (restoring 3)).find? fun p => p.source = 2 ∧ p.at_ / 65536 = 1 ∧ !p.done ∧
        (mapSource (restoring 3) p.source).map Source.holder = some ⟨0, 0, 0⟩) = some (piece ⟨1, 0, 0⟩ 2) ∧
      mapSource (restoring 3) 1 = some (heldAt ⟨1, 0, 0⟩) ∧ here (restoring 3) = ⟨1, 0, 0⟩ ∧
      ((restoring 3).restore.pieces.find? fun p => p.dest = ⟨0, 0, 0⟩ ∧ p.at_ / 65536 = 1 ∧ p.source ≠ 1 ∧ mayServe (heldAt ⟨1, 0, 0⟩) p) =
        some (piece ⟨0, 0, 0⟩ 0) ∧ delivered (restoring 3) (from_ ⟨2, 1, 0⟩) 7 49 32 = true) ∧
    Met (restoring 2) ((restoring 2).restore.state = 2 ∧ (restoring 2).restore.running = true ∧
      delivered (restoring 2) (from_ ⟨0, 0, 0⟩) 1 49 32 = true ∧ delivered (restoring 2) (from_ ⟨2, 1, 0⟩) 7 49 32 = true ∧
      (restoreRec 2).digest = (restoring 2).restore.mapSum ∧ { restoreRec 2 with digest := 0x54 }.digest ≠ (restoring 2).restore.mapSum ∧
      { restoreRec 1 with status := 7 }.status ≠ 0) ∧
    Met live (live.restore.running = false ∧ flumeRuns live = true ∧ tagOf live ≠ 0 ∧ (from_ ⟨0, 0, 0⟩).jobId = jobIdOf live ∧
      (from_ ⟨0, 0, 0⟩).gen = genOf live ∧ malformed 1 32 0 = false ∧ malformed 7 32 0 = false ∧ malformed 1 4096 0 = false) :=
  ⟨meets rfl (by decide +kernel), meets rfl (by decide +kernel), meets rfl (by decide +kernel)⟩

/-- The restore at its choice and at its end: a chip at its cut-off, a route bound later, the root at the deadline, before either. -/
def atTime (stage n : Nat) : State := { restoring stage with ht := n }
def rootAt (stage n : Nat) : State := regPut Reg.jobCoordF 34 (atTime stage n)

theorem meets_RestoreDeadlines :
    (∀ x ∈ [(2, 2000000000), (3, 3000000000)],
      Met (atTime x.1 (x.2 - 8000 - 2 * 12000)) (controllersRun (atTime x.1 (x.2 - 32000)) = true ∧ (atTime x.1 (x.2 - 32000)).restore.running = true ∧
        agreeParent (atTime x.1 (x.2 - 32000)) ≠ none ∧
        restoreEnd (atTime x.1 (x.2 - 32000)) = x.2 - 32000 + restoreBound (atTime x.1 (x.2 - 32000)) +
          agreeHeight (atTime x.1 (x.2 - 32000)) * restoreHop (atTime x.1 (x.2 - 32000))) ∧
      Met (rootAt x.1 x.2) (controllersRun (rootAt x.1 x.2) = true ∧ (rootAt x.1 x.2).restore.running = true ∧ agreeParent (rootAt x.1 x.2) = none ∧
        (rootAt x.1 x.2).restore.state = x.1 ∧ restoreEnd (rootAt x.1 x.2) = x.2) ∧
      Met (atTime x.1 (x.2 + 8000)) (controllersRun (atTime x.1 (x.2 + 8000)) = true ∧ agreeParent (atTime x.1 (x.2 + 8000)) ≠ none ∧
        (atTime x.1 (x.2 + 8000)).restore.state = x.1 ∧ restoreEnd (atTime x.1 (x.2 + 8000)) + restoreBound (atTime x.1 (x.2 + 8000)) = x.2 + 8000)) ∧
    Met (restoring 2) ((restoring 2).restore.running = true ∧ (restoring 2).ht < (restoring 2).restore.choiceAt ∧
      (restoring 2).ht < (restoring 2).restore.doneAt) := by
  refine ⟨fun x hx => ⟨meets rfl ?_, meets rfl ?_, meets rfl ?_⟩, meets rfl (by decide +kernel)⟩ <;> revert x <;> decide +kernel

/-- An activation at its deadline at a handover point, and past it. -/
def handing (n : Nat) : State := { stagedBank with ht := n, fw := { stagedBank.fw with activation := some (3, 1000000000) } }

theorem meets_HandoverAndLapse :
    Met (handing 1000000000) ((handing 1000000000).fw.activation = some (3, 1000000000) ∧ controllersRun (handing 1000000000) = true ∧
      (handing 1000000000).ht = 1000000000 ∧ handoverPoint (handing 1000000000) = true ∧
      (handing 1000000000).fw.banks = [{ state := .confirmed }, { state := .staged, version := 3 }] ∧
      (handing 1000000000).fw.settings.length = 2) ∧
    Met (handing 1000000001) ((handing 1000000001).fw.activation = some (3, 1000000000) ∧ controllersRun (handing 1000000001) = true ∧
      (1000000000 < (handing 1000000001).ht ∨ handoverPoint (handing 1000000001) = false)) :=
  ⟨meets rfl (by decide +kernel), meets rfl (by decide +kernel)⟩

def dryBase : State := { base with dry := true }
def restarted : State := { live with restarting := [0, 1, 2, 3] }

theorem meets_ControllersTrapAndRestart :
    Met live (flumeRuns live = true ∧ live.fw.activation = none ∧ live.power.moving = none ∧ live.restarting = [] ∧ 0xFFFFFFFF < 2 ^ 32 ∧
      live.power.state = 0 ∧ live.dry = false ∧ live.ready = true) ∧
    Met dryBase (dryBase.dry = true) ∧ Met restarted (restarted.restarting ≠ []) ∧
    (let retained := { live with power := { live.power with state := 2 } }
     Met retained (retained.power.state < 3 ∧ retained.dry = false ∧ retained.ready = true ∧ retained.restarting = [])) :=
  ⟨meets rfl (by decide +kernel), meets rfl (by decide +kernel), meets rfl (by decide +kernel), meets rfl (by decide +kernel)⟩

/-- The engine with no tag, which may leave E0; in E1 and in E3; and transitions done, to each state, allowed and not. -/
def untagged : State := regPut Reg.jobTagF 0 base
def inPower (n : Nat) : State := { untagged with power := { base.power with state := n } }
def moving (s : State) (n : Nat) : State := { s with power := { s.power with moving := some n } }

theorem meets_PowerRequestsAndTransitions :
    (∀ v ∈ [1, 2, 3], Met untagged (untagged.power.state ≠ 3 ∧ untagged.power.moving = none ∧ v ≠ untagged.power.state ∧ runningTurns untagged = [] ∧
      mayMove untagged.power.state v (regPut Reg.pwrCtrl v { untagged with power.refused := false }) = true)) ∧
    Met live (live.power.moving = none ∧ 2 ≠ live.power.state ∧ runningTurns live = [] ∧
      mayMove live.power.state 2 (regPut Reg.pwrCtrl 2 { live with power.refused := false }) = false) ∧
    Met (inPower 3) ((inPower 3).power.state = 3 ∧ (1 : Nat) ≠ 0 ∧ (inPower 3).power.moving = none) ∧
    (∀ n ∈ [1, 2, 3], Met (moving untagged n) ((moving untagged n).power.moving = some n ∧ mayMove untagged.power.state n (moving untagged n) = true)) ∧
    ((moving live 2).power.moving = some 2 ∧ mayMove live.power.state 2 (moving live 2) = false) ∧
    (∀ n ∈ [1, 2, 3], Met (moving (inPower n) 0) ((moving (inPower n) 0).power.moving = some 0 ∧ (moving (inPower n) 0).power.state = n)) ∧
    Met untagged (untagged.power.moving = none) := by
  refine ⟨fun v hv => meets rfl ?_, meets rfl (by decide +kernel), meets rfl (by decide +kernel), fun n hn => meets ?_ ?_, by decide +kernel,
    fun n _ => meets rfl ⟨rfl, rfl⟩, meets rfl rfl⟩
  · revert v
    decide +kernel
  · simp only [List.mem_cons, List.not_mem_nil, or_false] at hn
    rcases hn with rfl | rfl | rfl <;> exact Prod.ext rfl rfl
  · revert n
    decide +kernel

def retried : State := { base with ready := false, fw := { base.fw with retryAt := some 1000000000 } }

theorem meets_ResetsAndStarts :
    Met live (live.power.state ≠ 3 ∧ live.fw.activation = none) ∧ Met (inPower 3) ((inPower 3).power.state = 3) ∧
    Met activating (activating.power.state ≠ 3 ∧ activating.fw.activation = some (2, 3000000000)) ∧ live.fw.retryAt = none ∧
    Met retried (retried.fw.retryAt = some retried.ht ∧ retried.ready = false ∧ retried.dry = false ∧ retried.power.state < 3) ∧
    (∃ r, rowAt Reg.starts = some (r, 0)) :=
  ⟨meets rfl (by decide +kernel), meets rfl (by decide +kernel), meets rfl (by decide +kernel), rfl, meets rfl (by decide +kernel), ⟨_, rfl⟩⟩

/-! ### Ill-formed commands: one for each check -/

/-- A command of the clock and no more. -/
def calm : Env := { ht := 0, hostTime := 0 }

theorem test_wellFormed_accepts : Instr.wellFormed (.heartbeat calm) = true ∧ Instr.wellFormed (.registerWrite calm 0x100 5) = true ∧
    Instr.wellFormed (.accumXor calm (from_ ⟨1, 0, 0⟩) (List.replicate 16 1#8)) = true := by decide

theorem test_illFormed_env : Instr.wellFormed (.heartbeat { calm with ht := 2 ^ 64 }) = false ∧
    Instr.wellFormed (.heartbeat { calm with hostTime := 2 ^ 64 }) = false ∧
    Instr.wellFormed (.heartbeat { calm with hostStores := [(2 ^ 64 - 1, [1#8, 2#8])] }) = false ∧
    Instr.wellFormed (.heartbeat { calm with computeStores := [(2 ^ 41, [1#8])] }) = false ∧
    Instr.wellFormed (.heartbeat { calm with flips := [(2 ^ 42, 1#8)] }) = false ∧
    Instr.wellFormed (.heartbeat { calm with badBeats := [2 ^ 42] }) = false ∧ Instr.wellFormed (.heartbeat { calm with badUnits := [2 ^ 52] }) = false ∧
    Instr.wellFormed (.heartbeat { calm with point := some (4, 0) }) = false ∧
    Instr.wellFormed (.heartbeat { calm with point := some (0, 65536) }) = false := by decide

theorem test_illFormed_upset : Instr.wellFormed (.heartbeat { calm with upsets := [⟨8, 0, 0, 1#13, 0, 0⟩] }) = false ∧
    Instr.wellFormed (.heartbeat { calm with upsets := [⟨0, 264, 0, 1#13, 0, 0⟩] }) = false ∧
    Instr.wellFormed (.heartbeat { calm with upsets := [⟨0, 0, 2 ^ 19, 1#13, 0, 0⟩] }) = false ∧
    Instr.wellFormed (.heartbeat { calm with upsets := [⟨0, 0, 0, 1#13, 0, 2 ^ 64⟩] }) = false := by decide

theorem test_illFormed_coord : Instr.wellFormed (.ackFlush calm ⟨32, 0, 0⟩) = false ∧ Instr.wellFormed (.ackFlush calm ⟨0, 32, 0⟩) = false ∧
    Instr.wellFormed (.progressTimer calm ⟨0, 0, 16⟩) = false := by decide

theorem test_illFormed_head : WellFormed.headOk { from_ ⟨0, 0, 0⟩ with jobId := 4096 } = false ∧
    WellFormed.headOk { from_ ⟨0, 0, 0⟩ with gen := 16 } = false ∧ WellFormed.headOk { from_ ⟨0, 0, 0⟩ with epoch := 256 } = false ∧
    WellFormed.headOk (from_ ⟨32, 0, 0⟩) = false ∧ WellFormed.headOk { from_ ⟨0, 0, 0⟩ with offset := 2 ^ 48 } = false ∧
    WellFormed.headOk { from_ ⟨0, 0, 0⟩ with offset := 8 } = false ∧
    Instr.wellFormed (.finalMarker calm { from_ ⟨0, 0, 0⟩ with stepLow := 256 } 3 0) = false := by decide

theorem test_illFormed_data : Instr.wellFormed (.accumXor calm (from_ ⟨1, 0, 0⟩) [1#8]) = false := by decide

theorem test_illFormed_data_long : Instr.wellFormed (.accumXor calm (from_ ⟨1, 0, 0⟩) (List.replicate 4112 1#8)) = false := by
  rw [Instr.wellFormed, WellFormed.dataOk, List.length_replicate]; decide

/-- A prefix of nothing. -/
def pfx : Prefix := { digest := 0, coll := 0, reach := 0, count := 0 }

theorem test_illFormed_prefix : Instr.wellFormed (.abortRecord calm (from_ ⟨1, 0, 0⟩) { pfx with digest := 2 ^ 32 }) = false ∧
    Instr.wellFormed (.abortRecord calm (from_ ⟨1, 0, 0⟩) { pfx with coll := 65536 }) = false ∧
    Instr.wellFormed (.abortRecord calm (from_ ⟨1, 0, 0⟩) { pfx with reach := 65536 }) = false ∧
    Instr.wellFormed (.partialRecord calm (from_ ⟨1, 0, 0⟩) { pfx with count := 65536 } []) = false ∧
    Instr.wellFormed (.partialRecord calm (from_ ⟨1, 0, 0⟩) pfx [65536]) = false := by decide

theorem test_illFormed_body : Instr.wellFormed (.partialFrame calm (from_ ⟨1, 0, 0⟩) (.lanes pfx [⟨0#40, 8⟩])) = false ∧
    Instr.wellFormed (.resultFrame calm (from_ ⟨1, 0, 0⟩) (.data [])) = false := by decide

theorem test_illFormed_lanes_many : WellFormed.lanesOk (List.replicate 761 ⟨0#40, 0⟩) = false ∧
    WellFormed.bodyOk (.exps pfx (List.replicate 2043 0)) = false := by
  constructor
  · rw [WellFormed.lanesOk, List.length_replicate]; rfl
  · rw [WellFormed.bodyOk, List.length_replicate]; exact Bool.and_false _

theorem test_illFormed_result : WellFormed.resultOk ⟨65536, 0, 0, [], 0, []⟩ = false ∧ WellFormed.resultOk ⟨0, 65536, 0, [], 0, []⟩ = false ∧
    WellFormed.resultOk ⟨0, 0, 65536, [], 0, []⟩ = false ∧ WellFormed.resultOk ⟨0, 0, 0, [1, 2, 3, 4, 5, 6, 7, 8, 9], 0, []⟩ = false ∧
    WellFormed.resultOk ⟨0, 0, 0, [65536], 0, []⟩ = false ∧
    Instr.wellFormed (.resultRecord calm (from_ ⟨1, 0, 0⟩) pfx ⟨0, 0, 0, [], 3, []⟩) = false := by decide

/-- A chain record of nothing. -/
def chain : ChainRec :=
  { refillId := 1, kind := 0, equation := 0, stripe := 0, position := 0, arrival := 0, hop := 0, pending := [0#16, 0#16, 0#16, 0#16],
    holderStep := 0 }

theorem test_illFormed_chain : WellFormed.chainOk { chain with refillId := 65536 } = false ∧ WellFormed.chainOk { chain with kind := 256 } = false ∧
    WellFormed.chainOk { chain with equation := 256 } = false ∧ WellFormed.chainOk { chain with stripe := 2 ^ 32 } = false ∧
    WellFormed.chainOk { chain with position := 2 ^ 32 } = false ∧ WellFormed.chainOk { chain with arrival := 256 } = false ∧
    WellFormed.chainOk { chain with hop := 256 } = false ∧ WellFormed.chainOk { chain with pending := [0#16] } = false ∧
    Instr.wellFormed (.creditRecord calm (from_ ⟨1, 0, 0⟩) { chain with holderStep := 2 ^ 32 }) = false := by decide

/-- A repair record of nothing. -/
def mend : RepairRec :=
  { tag := 1, kind := 0, target := 0, stripe := 0, mask := 0#16, arrival := 0, hop := 0, requester := ⟨0, 0, 0⟩, equation := 0,
    pending := [0#16, 0#16, 0#16, 0#16], offset := 0 }

theorem test_illFormed_repair : WellFormed.repairOk { mend with tag := 0 } = false ∧ WellFormed.repairOk { mend with tag := 65536 } = false ∧
    WellFormed.repairOk { mend with kind := 256 } = false ∧ WellFormed.repairOk { mend with target := 256 } = false ∧
    WellFormed.repairOk { mend with stripe := 2 ^ 32 } = false ∧ WellFormed.repairOk { mend with requester := ⟨0, 0, 16⟩ } = false ∧
    Instr.wellFormed (.repairRequest calm (from_ ⟨1, 0, 0⟩) { mend with pending := [] }) = false ∧
    Instr.wellFormed (.repairTimeout calm 65536) = false := by decide

theorem test_illFormed_restore : WellFormed.restoreOk { digest := 2 ^ 32, kind := 0 } = false ∧
    WellFormed.restoreOk { digest := 0, kind := 256 } = false ∧ WellFormed.restoreOk { digest := 0, kind := 0, vector := 65536 } = false ∧
    WellFormed.restoreOk { digest := 0, kind := 0, step := 2 ^ 32 } = false ∧
    WellFormed.restoreOk { digest := 0, kind := 0, complete := 65536 } = false ∧
    WellFormed.restoreOk { digest := 0, kind := 0, covered := 65536 } = false ∧
    WellFormed.restoreOk { digest := 0, kind := 0, position := 2 ^ 32 } = false ∧
    WellFormed.restoreOk { digest := 0, kind := 0, source := 2 ^ 32 } = false ∧
    Instr.wellFormed (.restoreDone calm (from_ ⟨1, 0, 0⟩) { digest := 0, kind := 0, status := 256 }) = false := by decide

/-- The fields of a start of eight chips. -/
def fieldsOfStart : StartFields :=
  { jobChips := 8, tag := 0x1234, root := ⟨0, 0, 0⟩, epoch := 1, instant := 0, deadline := 0, routeBound := 0, treeA := 0, treeB := 0 }

theorem test_illFormed_start : WellFormed.startOk ⟨2, true, fieldsOfStart, []⟩ = false ∧
    WellFormed.startOk ⟨0, true, { fieldsOfStart with jobChips := 65536 }, []⟩ = false ∧
    WellFormed.startOk ⟨0, true, { fieldsOfStart with tag := 65536 }, []⟩ = false ∧
    WellFormed.startOk ⟨0, true, { fieldsOfStart with root := ⟨32, 0, 0⟩ }, []⟩ = false ∧
    WellFormed.startOk ⟨0, true, { fieldsOfStart with epoch := 2 ^ 32 }, []⟩ = false ∧
    WellFormed.startOk ⟨0, true, { fieldsOfStart with instant := 2 ^ 64 }, []⟩ = false ∧
    WellFormed.startOk ⟨0, true, { fieldsOfStart with deadline := 2 ^ 64 }, []⟩ = false ∧
    WellFormed.startOk ⟨0, true, { fieldsOfStart with routeBound := 2 ^ 32 }, []⟩ = false ∧
    WellFormed.startOk ⟨0, true, { fieldsOfStart with treeA := 65536 }, []⟩ = false ∧
    Instr.wellFormed (.goRecord calm (from_ ⟨1, 0, 0⟩) ⟨0, true, { fieldsOfStart with treeB := 65536 }, []⟩) = false ∧
    Instr.wellFormed (.startAckCutoff calm 2) = false := by decide

theorem test_illFormed_frame : Instr.wellFormed (.freezeJob calm { seq := 65536, tag := 0 }) = false ∧
    Instr.wellFormed (.freezeJob calm { seq := 0, tag := 65536 }) = false ∧
    Instr.wellFormed (.policy calm frame 3 256) = false ∧ Instr.wellFormed (.policy calm frame (2 ^ 32) 0) = false ∧
    Instr.wellFormed (.releaseJob calm frame 65536 0 0 0) = false ∧ Instr.wellFormed (.basinMap calm frame 0 0 0 0 256 0) = false ∧
    Instr.wellFormed (.modeChange calm frame 0 0 256 0) = false ∧ Instr.wellFormed (.start calm frame 65536 0 0 0 0 0 0) = false ∧
    Instr.wellFormed (.firmwareActivate calm frame (2 ^ 32) 0) = false ∧ Instr.wellFormed (.firmwareConfirm calm frame (2 ^ 32)) = false :=
  by decide

theorem test_illFormed_beginRefill :
    Instr.wellFormed (.beginRefill calm 0 1 1 0 0 0 0 (List.replicate 17 ⟨0, 0, 0⟩)) = false ∧
    Instr.wellFormed (.beginRefill calm 0 1 1 0 0 0 0 [⟨0, 0, 16⟩]) = false ∧
    Instr.wellFormed (.beginRefill calm 16 1 1 0 0 0 0 []) = false := by decide

theorem test_illFormed_stage : Instr.wellFormed (.firmwareStage calm frame 256 0 0 []) = false ∧
    Instr.wellFormed (.firmwareStage calm frame 0 65536 0 []) = false ∧ Instr.wellFormed (.firmwareStage calm frame 0 0 (2 ^ 32) []) = false ∧
    Instr.wellFormed (.firmwareStage calm frame 0 0 0 (List.replicate 33 0#8)) = false := by decide

theorem test_illFormed_register : Instr.wellFormed (.registerWrite calm (2 ^ 20) 0) = false ∧
    Instr.wellFormed (.registerWrite calm 2 0) = false ∧ Instr.wellFormed (.badRegisterAccess calm (2 ^ 20) true) = false := by decide

theorem test_illFormed_raw : WellFormed.rawOk ⟨from_ ⟨0, 0, 0⟩, 256, 0, 0⟩ = false ∧ WellFormed.rawOk ⟨from_ ⟨0, 0, 0⟩, 0, 64, 0⟩ = false ∧
    Instr.wellFormed (.malformedPacket calm ⟨from_ ⟨0, 0, 0⟩, 0, 0, 65536⟩) = false := by decide

theorem test_illFormed_marker : Instr.wellFormed (.progressMarker calm (from_ ⟨1, 0, 0⟩) (2 ^ 32) 0 0) = false ∧
    Instr.wellFormed (.progressMarker calm (from_ ⟨1, 0, 0⟩) 3 2 0) = false ∧
    Instr.wellFormed (.progressMarker calm (from_ ⟨1, 0, 0⟩) 3 0 (2 ^ 32)) = false ∧
    Instr.wellFormed (.invalidateMarker calm (from_ ⟨1, 0, 0⟩) 3 (2 ^ 32) 0#16 0) = false ∧
    Instr.wellFormed (.ack calm (from_ ⟨1, 0, 0⟩) ⟨3, 0, [2 ^ 32]⟩) = false := by decide

theorem test_illFormed_ack_long : Instr.wellFormed (.ack calm (from_ ⟨1, 0, 0⟩) ⟨3, 0, List.replicate 1021 0⟩) = false := by
  rw [Instr.wellFormed, List.length_replicate]; rfl

theorem test_illFormed_agreement : WellFormed.contributionOk ⟨2 ^ 32, 0, 0, 0, 0, 0⟩ = false ∧
    WellFormed.contributionOk ⟨0, 0, 0, 65536, 0, 0⟩ = false ∧ WellFormed.contributionOk ⟨0, 0, 0, 0, 65536, 0⟩ = false ∧
    Instr.wellFormed (.agreementContribution calm (from_ ⟨1, 0, 0⟩) ⟨0, 0, 0, 0, 0, 2 ^ 32⟩) = false ∧
    WellFormed.verdictOk ⟨0, 0, 2 ^ 64, 0, 0, 0⟩ = false ∧ WellFormed.verdictOk ⟨0, 0, 0, 65536, 0, 0⟩ = false ∧
    Instr.wellFormed (.agreeVerdict calm (from_ ⟨1, 0, 0⟩) ⟨0, 0, 0, 0, 3, 0⟩) = false := by decide

theorem test_illFormed_startIn : Instr.wellFormed (.chipColdReset calm { identity := [], flashBase := 2 ^ 64, flashLen := 0 }) = false ∧
    Instr.wellFormed (.chipWarmReset calm { identity := [], flashBase := 0, flashLen := 2 ^ 64 }) = false ∧
    Instr.wellFormed (.startRetry calm { identity := [], flashBase := 0, flashLen := 0, firstBad := 32 }) = false ∧
    (let st : StartIn := { identity := [], flashBase := 0, flashLen := 0 }
     [{ st with badFlash := [2 ^ 52] }, { st with trapStage := some 10 }, { st with trapStage := some 0 }, { st with trapCause := 256 },
      { st with trapAt := 2 ^ 32 }, { st with cutStage := some 10 }, { st with testNs := 2 ^ 64 }, { st with totalNs := 2 ^ 64 }].all
        (fun st => !Instr.wellFormed (.startRetry calm st)) = true) := by decide

theorem test_illFormed_badFrame : Instr.wellFormed (.culvertBadFrame calm (.unknownType 256)) = false ∧
    Instr.wellFormed (.culvertBadFrame calm (.format 1 2 0)) = false ∧ Instr.wellFormed (.culvertBadFrame calm (.format 1 256 0)) = false ∧
    Instr.wellFormed (.culvertBadFrame calm (.format 256 1 0)) = false ∧ Instr.wellFormed (.culvertBadFrame calm (.format 1 1 65536)) = false :=
  by decide

theorem test_illFormed_numbers : Instr.wellFormed (.fence calm 0 (2 ^ 32)) = false ∧ Instr.wellFormed (.mirrorTurn calm 65536 []) = false ∧
    Instr.wellFormed (.turnWorkComplete calm 0 (2 ^ 64)) = false ∧ Instr.wellFormed (.replicaSample calm 0 65536) = false ∧
    Instr.wellFormed (.allotmentWindowTick calm (2 ^ 32) 0) = false ∧ Instr.wellFormed (.hostAccessError calm 0 (2 ^ 64) true) = false ∧
    Instr.wellFormed (.controllerTrap calm 0 256 0) = false ∧ Instr.wellFormed (.watchdogExpiry calm 0 (2 ^ 32)) = false ∧
    Instr.wellFormed (.dualPathSettle calm 65536 0) = false ∧ Instr.wellFormed (.reduceCutoff calm 0 false 65536) = false := by decide

/-! ### Worked values of the manual -/

/-- The products of file 06's combining example, and its sums. -/
theorem test_gf_products : gfMul (coef 0 0) 0xFE#8 = 0x5B#8 ∧ gfMul (coef 0 1) 0xFE#8 = 0xD9#8 ∧ gfMul (coef 2 0) 0xE0#8 = 0x7B#8 ∧
    gfMul (coef 2 1) 0xE0#8 = 0x15#8 ∧ gfMul (coef 3 0) 0x03#8 = 0x35#8 ∧ gfMul (coef 3 1) 0x03#8 = 0x28#8 := by decide

/-- The first test vector of R158. -/
theorem test_furrow_zero : furrow 0#64 0#64 0#64 = (0x46438048F0D1BD68#64, 0xA2402F6F8F693A83#64) := by decide

/-- The second test vector of R158: step 7, tensor 3, element 5, purpose 1. -/
theorem test_furrow_counter : furrowCounter 7 3 5 1 = (0x0000000501000000#64, 0x0000000700000300#64) ∧
    furrow 0#64 (furrowCounter 7 3 5 1).1 (furrowCounter 7 3 5 1).2 = (0x8D0A93D480CCC925#64, 0x31188E804FD5B63B#64) := by decide

/-- The reference step's pair of update and delta turns, and its pond turn (file 03). -/
def updateRef : TurnEntry :=
  { turn Kind.update with work := 42949672960, memBytes := 1483105894400, memRate := 24000, duration := 300000000 }

def deltaRef : TurnEntry :=
  { turn Kind.delta with
    work := 1202590842880, memBytes := 1046898278400, memRate := 8000, portMask := 7, portRate := 672, portBytes := 172469780480,
    duration := 300000000 }

def pondRef : TurnEntry :=
  { turn Kind.pond with work := 687194767360, memBytes := 697932185600, memRate := 32000, duration := 32000000 }

/-- A plan of the pair, with the undo window the example subtracts. -/
def pairPlan : Plan := { planWith [updateRef, deltaRef, pondRef] with undoNeed := 8589934592 }

/-- The time needs of file 03's example at an admission margin of 0x0F00. -/
theorem test_needs : needOf pairPlan 24000 deltaRef 0x0F00 = some 256677460 ∧ needOf pairPlan 24000 updateRef 0x0F00 = some 252416579 ∧
    needOf pairPlan 24000 pondRef 0x0F00 = some 30567990 := by decide

/-- Elements of file 04's example quantized at E = 2: 0.75, −6.0 and 0.0078125 in bfloat16. -/
theorem test_quantize : quantize 1 0x3F40 2 = (⟨BitVec.ofInt 40 786432, 3⟩, false, false) ∧
    quantize 1 0xC0C0 2 = (⟨BitVec.ofInt 40 (-6291456), 4⟩, false, false) ∧
    quantize 1 0x3C00 2 = (⟨BitVec.ofInt 40 8192, 2⟩, false, false) := by decide

/-- Element 0 of that example summed over members 0 and 1 and converted at E = 2, d = 2: 1.625; element 1: −1.0. -/
theorem test_convert : (addLanes ⟨BitVec.ofInt 40 786432, 3⟩ ⟨BitVec.ofInt 40 2621440, 3⟩).1 = ⟨BitVec.ofInt 40 3407872, 6⟩ ∧
    convertLane 1 ⟨BitVec.ofInt 40 3407872, 6⟩ 2 2 = 0x3FD0 ∧ convertLane 1 ⟨BitVec.ofInt 40 (-2097152), 6⟩ 2 2 = 0xBF80 := by decide

/-- The program of file 05's example: a momentum and a weight. -/
def sgd : Program :=
  { len := 2, instrs := [0x18850000#32, 0x1C44D080#32], consts := [0x3F000000], points0 := 1, points1 := 0, curve0 := [(0, 0x3C000000)],
    curve1 := [] }

/-- Its registers before the first instruction, after the catch-up: gradient 0.75, weight 1.0, momentum 0.25. -/
def sgdRegs : List Nat := [0x3F400000, 0x3F800000, 0x3E800000, 0, 0, 0, 0, 0, 0, 0, 0, 0, 0, curveAt sgd.curve0 7, 0, 0]

/-- Element 5 of tensor 3 in step 7: the catch-up leaves 0.25, the program momentum 0.875 and weight 0.9931640625. -/
theorem test_update_program : catchUp false 0x3F800000 0x3F000000 4 7 = 0x3E800000 ∧
    (runProgram ⟨false, 0#64, 7, 3, 5, 8⟩ sgd sgdRegs).getD 2 0 = 0x3F600000 ∧
    (runProgram ⟨false, 0#64, 7, 3, 5, 8⟩ sgd sgdRegs).getD 1 0 = 0x3F7E4000 := by decide

/-- The same element written back: momentum to nearest, weight with the bits 0x8D0A. -/
theorem test_update_rounding : (roundOut false fmtBf16 .nearest 0x3F600000).1 = 0x3F60 ∧
    (roundOut false fmtBf16 (.stochastic 0x8D0A 16) 0x3F7E4000).1 = 0x3F7E ∧
    (roundOut false fmtBf16 (.stochastic 0xC000 16) 0x3F7E4000).1 = 0x3F7F := by decide
end Sys2Proof.Machine.Tests
end

section
/-! PROOF. The byte memories stay in canonical form: every command keeps them (Laws/Keep says it of each meaning), so every step does. -/

namespace Sys2Proof.Machine

open Sys2Proof

/-- Whatever the command, its meaning keeps the queue and the canonical form of the byte memories. -/
theorem keeps_exec (c : Instr) (s : State) : KeepsNext s (exec c s) :=
  match c with
  | .regionSet .. => keeps_execRegionSet s
  | .stateFill .. => keeps_execStateFill s
  | .planLoad .. => keeps_execPlanLoad s
  | .planArm .. => keeps_execPlanArm s
  | .planRetire .. => keeps_execPlanRetire s
  | .snapPond .. => keeps_execSnapPond s
  | .snapDrain .. => keeps_execSnapDrain s
  | .snapExport .. => keeps_execSnapExport s
  | .snapManifest .. => keeps_execSnapManifest s
  | .restoreScan .. => keeps_execRestoreScan s
  | .restoreLoad .. => keeps_execRestoreLoad s
  | .restoreReslice .. => keeps_execRestoreReslice s
  | .scrubRange .. => keeps_execScrubRange s
  | .repairRange .. => keeps_execRepairRange s
  | .healthRead .. => keeps_execHealthRead s
  | .counterRead .. => keeps_execCounterRead s
  | .streamWindow .. => keeps_execStreamWindow s
  | .fwStageDesc .. => keeps_execFwStageDesc s
  | .fence .. => keeps_execFence s
  | .unknownOpcode .. => keeps_execUnknownOpcode s
  | .descriptorStart .. => keeps_execDescriptorStart s
  | .ringPoll .. => keeps_execRingPoll s
  | .msixHoldoffExpiry .. => keeps_execMsixHoldoffExpiry s
  | .hostAccessError .. => keeps_execHostAccessError s
  | .ringEnable .. => keeps_execRingEnable s
  | .ringDisable .. => keeps_execRingDisable s
  | .ringDisableDone .. => keeps_execRingDisableDone s
  | .ringReset .. => keeps_execRingReset s
  | .ringResetDone .. => keeps_execRingResetDone s
  | .configCommit .. => keeps_execConfigCommit s
  | .configDiscard .. => keeps_execConfigDiscard s
  | .configCommitApply .. => keeps_execConfigCommitApply s
  | .shadowRegisterWrite .. => keeps_execShadowRegisterWrite s
  | .engineReset .. => keeps_execEngineReset s
  | .controllerRestart .. => keeps_execControllerRestart s
  | .controllerRestartDone .. => keeps_execControllerRestartDone s
  | .powerRequest .. => keeps_execPowerRequest s
  | .powerTransitionDone .. => keeps_execPowerTransitionDone s
  | .errorInject .. => keeps_execErrorInject s
  | .registerWrite .. => keeps_execRegisterWrite s
  | .badRegisterAccess .. => keeps_execBadRegisterAccess s
  | .wideRegisterCapture .. => keeps_execWideRegisterCapture s
  | .intakeEntryCapture .. => keeps_execIntakeEntryCapture s
  | .queryStatus .. => keeps_execQueryStatus s
  | .basinMap .. => keeps_execBasinMap s
  | .freezeJob .. => keeps_execFreezeJob s
  | .releaseJob .. => keeps_execReleaseJob s
  | .beginRefill .. => keeps_execBeginRefill s
  | .policy .. => keeps_execPolicy s
  | .modeChange .. => keeps_execModeChange s
  | .start .. => keeps_execStart s
  | .startAbort .. => keeps_execStartAbort s
  | .firmwareStage .. => keeps_execFirmwareStage s
  | .firmwareActivate .. => keeps_execFirmwareActivate s
  | .firmwareConfirm .. => keeps_execFirmwareConfirm s
  | .clearDry .. => keeps_execClearDry s
  | .culvertBadFrame .. => keeps_execCulvertBadFrame s
  | .heartbeat .. => keeps_execHeartbeat s
  | .event .. => keeps_execEvent s
  | .dryEventRepeat .. => keeps_execDryEventRepeat s
  | .mirroredInputStore .. => keeps_execMirroredInputStore s
  | .malformedPacket .. => keeps_execMalformedPacket s
  | .accumXor .. => keeps_execAccumXor s
  | .chunkMarker .. => keeps_execChunkMarker s
  | .progressMarker .. => keeps_execProgressMarker s
  | .finalMarker .. => keeps_execFinalMarker s
  | .invalidateMarker .. => keeps_execInvalidateMarker s
  | .ack .. => keeps_execAck s
  | .ackFlush .. => keeps_execAckFlush s
  | .progressTimer .. => keeps_execProgressTimer s
  | .agreementContribution .. => keeps_execAgreementContribution s
  | .agreeVerdict .. => keeps_execAgreeVerdict s
  | .commitCutoff .. => keeps_execCommitCutoff s
  | .commitRootTimeout .. => keeps_execCommitRootTimeout s
  | .noVerdict .. => keeps_execNoVerdict s
  | .updateWaitTimeout .. => keeps_execUpdateWaitTimeout s
  | .partialFrame .. => keeps_execPartialFrame s
  | .partialRecord .. => keeps_execPartialRecord s
  | .path1FinalFrame .. => keeps_execPath1FinalFrame s
  | .resultFrame .. => keeps_execResultFrame s
  | .resultRecord .. => keeps_execResultRecord s
  | .abortRecord .. => keeps_execAbortRecord s
  | .retryFrame .. => keeps_execRetryFrame s
  | .reduceCutoff .. => keeps_execReduceCutoff s
  | .reduceDeadline .. => keeps_execReduceDeadline s
  | .dualPathSettle .. => keeps_execDualPathSettle s
  | .retryDeadline .. => keeps_execRetryDeadline s
  | .stepStart .. => keeps_execStepStart s
  | .leaseRaise .. => keeps_execLeaseRaise s
  | .mirrorTurn .. => keeps_execMirrorTurn s
  | .scaleTurn .. => keeps_execScaleTurn s
  | .reduceTurn .. => keeps_execReduceTurn s
  | .gapTurn .. => keeps_execGapTurn s
  | .checkTurn .. => keeps_execCheckTurn s
  | .updateTurn .. => keeps_execUpdateTurn s
  | .deltaTurn .. => keeps_execDeltaTurn s
  | .commitTurn .. => keeps_execCommitTurn s
  | .pondTurn .. => keeps_execPondTurn s
  | .turnWorkComplete .. => keeps_execTurnWorkComplete s
  | .allotmentWindowTick .. => keeps_execAllotmentWindowTick s
  | .replicaSample .. => keeps_execReplicaSample s
  | .leaseGrant .. => keeps_execLeaseGrant s
  | .breach .. => keeps_execBreach s
  | .lockDrop .. => keeps_execLockDrop s
  | .lockRegain .. => keeps_execLockRegain s
  | .partitionWindowsReport .. => keeps_execPartitionWindowsReport s
  | .flashBarrierDone .. => keeps_execFlashBarrierDone s
  | .startRecord .. => keeps_execStartRecord s
  | .startAckRecord .. => keeps_execStartAckRecord s
  | .goRecord .. => keeps_execGoRecord s
  | .abortStartRecord .. => keeps_execAbortStartRecord s
  | .startAckCutoff .. => keeps_execStartAckCutoff s
  | .startDeadline .. => keeps_execStartDeadline s
  | .startInstant .. => keeps_execStartInstant s
  | .modeChangeInstant .. => keeps_execModeChangeInstant s
  | .refillStart .. => keeps_execRefillStart s
  | .refillDeadline .. => keeps_execRefillDeadline s
  | .refillPlotStore .. => keeps_execRefillPlotStore s
  | .refillCisternStore .. => keeps_execRefillCisternStore s
  | .chainPages .. => keeps_execChainPages s
  | .localRepairRecord .. => keeps_execLocalRepairRecord s
  | .syndromeRecord .. => keeps_execSyndromeRecord s
  | .remainderRecord .. => keeps_execRemainderRecord s
  | .bankRebuildRecord .. => keeps_execBankRebuildRecord s
  | .bankShareStore .. => keeps_execBankShareStore s
  | .creditRecord .. => keeps_execCreditRecord s
  | .closureRequest .. => keeps_execClosureRequest s
  | .absentRecord .. => keeps_execAbsentRecord s
  | .chainRequest .. => keeps_execChainRequest s
  | .decodedRecord .. => keeps_execDecodedRecord s
  | .noGradientRecord .. => keeps_execNoGradientRecord s
  | .releaseInstant .. => keeps_execReleaseInstant s
  | .repairRequest .. => keeps_execRepairRequest s
  | .repairChainRecord .. => keeps_execRepairChainRecord s
  | .repairDone .. => keeps_execRepairDone s
  | .repairPushRequest .. => keeps_execRepairPushRequest s
  | .repairRefused .. => keeps_execRepairRefused s
  | .repairTimeout .. => keeps_execRepairTimeout s
  | .restoreDataStore .. => keeps_execRestoreDataStore s
  | .restoreChoice .. => keeps_execRestoreChoice s
  | .restoreChoiceVerdict .. => keeps_execRestoreChoiceVerdict s
  | .restoreCredit .. => keeps_execRestoreCredit s
  | .restoreWithdraw .. => keeps_execRestoreWithdraw s
  | .restoreRequest .. => keeps_execRestoreRequest s
  | .restoreDone .. => keeps_execRestoreDone s
  | .restoreDoneVerdict .. => keeps_execRestoreDoneVerdict s
  | .restoreChoiceDeadline .. => keeps_execRestoreChoiceDeadline s
  | .restoreDoneDeadline .. => keeps_execRestoreDoneDeadline s
  | .handover .. => keeps_execHandover s
  | .activationLapse .. => keeps_execActivationLapse s
  | .controllerTrap .. => keeps_execControllerTrap s
  | .watchdogExpiry .. => keeps_execWatchdogExpiry s
  | .chipColdReset .. => keeps_execChipColdReset s
  | .chipWarmReset .. => keeps_execChipWarmReset s
  | .startRetry .. => keeps_execStartRetry s
  | .turnPlannedEnd .. => keeps_execTurnPlannedEnd s
  | .restoreCutoff .. => keeps_execRestoreCutoff s
  | .flashWriteFailure .. => keeps_execFlashWriteFailure s
  | .unmappedWindowPacket .. => keeps_execUnmappedWindowPacket s
  | .repairPages .. => keeps_execRepairPages s

/-- A step that answers a next state keeps the canonical form: an empty queue idles, a command is judged on the state with the queue's rest. -/
theorem memoryOk_step {s t : State} (h : MemoryOk s) (hst : step s = .next t) : MemoryOk t := by
  unfold step at hst
  cases hp : s.pending with
  | nil => rw [hp] at hst; exact Host.Outcome.next.inj hst ▸ h
  | cons c rest => rw [hp] at hst; exact (keeps_exec c _ t hst).2 h

/-- Settles O2: the meaning of each command keeps the memories, and a step is one command's meaning. -/
theorem stepKeepsMemoryOk : Obligations.StepKeepsMemoryOk := fun _ _ h hst => memoryOk_step h hst

end Sys2Proof.Machine
end

section
/-! PROOF. Register rows and what a plain write of each access code stores (R11, R384, R385). -/

namespace Sys2Proof.Machine

open Sys2Proof

/-! ### Register rows -/

/-- A row found for an offset is a row of the map, and the offset is that copy of it. -/
theorem rowAt_some {off n : Nat} {r : RegRow} (h : rowAt off = some (r, n)) : r ∈ regMap ∧ r.copy off = some n := by
  obtain ⟨r', hr', hc⟩ := List.exists_of_findSome?_eq_some h
  simp only [Option.map_eq_some_iff, Prod.mk.injEq] at hc
  obtain ⟨m, hm, rfl, rfl⟩ := hc
  exact ⟨hr', hm⟩

/-- Where the copy of a strided row lies. -/
theorem copy_some {r : RegRow} {off n : Nat} (hs : r.stride ≠ 0) (h : r.copy off = some n) : off = r.off + n * r.stride ∧ n < r.cnt := by
  rw [RegRow.copy, if_neg hs] at h
  split at h
  case isFalse => cases h
  case isTrue hc =>
    obtain ⟨hle, hmod, hcnt⟩ := hc
    cases h
    have := Nat.div_mul_cancel (Nat.dvd_of_mod_eq_zero hmod)
    exact ⟨by omega, hcnt⟩

/-- OSE_CFG_COMMIT is write-only. -/
theorem acc_of_cfgCommit : ∀ r ∈ regMap, r.off = Reg.cfgCommit → r.acc = .wo := by decide +kernel

theorem off_ne_cfgCommit {off n : Nat} {r : RegRow} (hr : rowAt off = some (r, n)) (h : r.acc ≠ .wo) : r.off ≠ Reg.cfgCommit :=
  fun e => h (acc_of_cfgCommit r (rowAt_some hr).1 e)

theorem rowAt_cfgCommit : rowAt Reg.cfgCommit = some (⟨Reg.cfgCommit, 1, 0, .wo, 0#32, 0⟩, 0) := by decide

/-! ### One stored register -/

theorem regsKept_regSet (off : Nat) (v : Word) (s : State) : RegsKept [off] s (regSet off v s) :=
  fun _ ho => regGet_regSet_other (by simpa using ho) v s

theorem onlyRegs_regSet (off : Nat) (v : Word) (s : State) : OnlyRegs s (regSet off v s) := regSet_eq off v s

/-- The fields of a word, stored, read back as they are: they fit in 32 bits. -/
theorem regNat_regPut_fields (off m : Nat) (v : Word) (s : State) : regNat (regPut off (v.toNat &&& m) s) off = v.toNat &&& m := by
  rw [regNat_regPut_same, Nat.mod_eq_of_lt (Nat.lt_of_le_of_lt Nat.and_le_left v.isLt)]

/-! ### Plain writes -/

/-- In E0 and E1 a register write is the plain write on the state as the neighbours leave it. -/
theorem exec_registerWrite_up {e : Env} {s₀ s : State} (hs : applyEnv e s₀ = s) (hp : s.power.state < 2) (off : Nat) (v : Word) :
    exec (.registerWrite e off v) s₀ = .next (plainWrite off v s) := by
  have h : ¬ (s.power.state = 2 ∧ off = Reg.reset) := by omega
  change execRegisterWrite e off v s₀ = _
  simp only [execRegisterWrite, hs, if_neg h, hostWriteTo_up hp]

theorem plainWrite_cfgCommit (v : Word) (s : State) : plainWrite Reg.cfgCommit v s = commitWrite v s := by
  simp [plainWrite, rowAt_cfgCommit]

/-- A write with no commit pending: discard goes before commit, and neither bit changes nothing. -/
theorem commitWrite_idle {s : State} (h : s.pendingCommit = false) (v : Word) :
    commitWrite v s = if bit 1 v.toNat then refreshCfg (discardStaged s) else if bit 0 v.toNat then requestCommit s else s := by
  simp [commitWrite, h]

/-! A row that is neither OSE_RESET nor one with a command of its own, and whose access code is not write-only, goes by its access code. -/

section
variable {off n : Nat} {r : RegRow} (hr : rowAt off = some (r, n)) (hown : ownCommand r.off = false) (hreset : r.off ≠ Reg.reset)
include hr hown hreset

theorem plainWrite_ro (h : r.acc = .ro) (v : Word) (s : State) : plainWrite off v s = s := by
  simp [plainWrite, hr, off_ne_cfgCommit hr (by simp [h]), hown, hreset, h]

theorem plainWrite_ctr (h : r.acc = .ctr) (v : Word) (s : State) : plainWrite off v s = regPut off 0 s := by
  simp [plainWrite, hr, off_ne_cfgCommit hr (by simp [h]), hown, hreset, h]

theorem plainWrite_w1c (h : r.acc = .w1c) (v : Word) (s : State) : plainWrite off v s = regSet off (regGet s off &&& ~~~v) s := by
  simp [plainWrite, hr, off_ne_cfgCommit hr (by simp [h]), hown, hreset, h]

/-- An RW or RS register of a ring block follows the ring's rules, any other stores what is in range. -/
theorem plainWrite_rw (h : r.acc = .rw ∨ r.acc = .rs) (v : Word) (s : State) :
    plainWrite off v s =
      if Reg.ringCtrl ≤ r.off ∧ r.off ≤ Reg.ringHalts then ringWrite r.off n off v s
      else if inRange r.off (v.toNat &&& fieldMask r.off) then regPut off (v.toNat &&& fieldMask r.off) s else badAccess off s := by
  rcases h with h | h <;> simp [plainWrite, hr, off_ne_cfgCommit hr (by simp [h]), hown, hreset, h]

end

/-! ### The obligation -/

/-- Settles O8: each access code by its own law of the plain write, OSE_CFG_COMMIT by its branches. -/
theorem registerWriteStores : Obligations.RegisterWriteStores := by
  unfold Obligations.RegisterWriteStores
  refine ⟨fun e s₀ s off n v r hs hp hr hown hreset => ⟨_, exec_registerWrite_up hs hp off v, ?_, ?_, ?_, ?_⟩, fun e s₀ s v hs hp => ?_⟩
  · intro hacc hring hin
    rw [plainWrite_rw hr hown hreset hacc, if_neg hring, if_pos hin]
    exact ⟨regNat_regPut_fields off _ v s, regsKept_regSet off _ s, onlyRegs_regSet off _ s⟩
  · intro hacc
    rw [plainWrite_ctr hr hown hreset hacc]
    exact ⟨regNat_regPut_same off 0 s, regsKept_regSet off _ s, onlyRegs_regSet off _ s⟩
  · intro hacc
    rw [plainWrite_w1c hr hown hreset hacc]
    exact ⟨regGet_regSet_same off _ s, regsKept_regSet off _ s, onlyRegs_regSet off _ s⟩
  · exact fun hacc => plainWrite_ro hr hown hreset hacc v s
  · rw [exec_registerWrite_up hs hp, plainWrite_cfgCommit]
    refine ⟨fun hpend => by rw [commitWrite, if_pos hpend], fun hidle => ?_⟩
    rw [commitWrite_idle hidle]
    exact ⟨fun h1 => by rw [if_pos h1], fun h1 h0 => by simp [h1, h0], fun h1 h0 => by simp [h1, h0]⟩

end Sys2Proof.Machine
end

section
/-! PROOF. The register pairs (R10): what a capture answers, and an address of a ring written half by half. -/

namespace Sys2Proof.Machine

open Sys2Proof

/-! ### What waits between two accesses -/

/-- What a pair of accesses counts on between its halves: the captures, the held low halves, the rings and the power state. -/
def held (s : State) : List (Nat × Word) × List (Nat × Word) × Vector Ring 16 × Nat := (s.wideCap, s.loHold, s.rings, s.power.state)

theorem held_foldl {α : Type} {f : State → α → State} (hf : ∀ s x, held (f s x) = held s) : ∀ (l : List α) (s : State),
    held (l.foldl f s) = held s
  | [], _ => rfl
  | x :: l, s => (held_foldl hf l (f s x)).trans (hf s x)

theorem held_landFix (a : Nat) (pattern check : Bytes) (s : State) : held (landFix a pattern check s) = held s := by
  simp only [held, landFix, wideAdd, clearBeats, widePut_wideCap, widePut_loHold, widePut_rings, widePut_power]

theorem held_landFixes (s : State) : held (landFixes s) = held s := by
  unfold landFixes
  exact (held_foldl (fun _ _ => held_landFix ..) _ _).trans rfl

theorem held_hostWrite (a : Nat) (bs : Bytes) (s : State) : held (hostWrite a bs s) = held s := rfl

theorem held_computeStore : ∀ (bs : Bytes) (a : Nat) (s : State), held (computeStore a bs s) = held s
  | [], _, _ => rfl
  | b :: bs, a, s => by
    rw [computeStore, held_computeStore bs]
    split <;> rfl

theorem held_flipByte (a : Nat) (b : Byte) (s : State) : held (flipByte a b s) = held s := by
  unfold flipByte
  split <;> rfl

theorem held_abandonMove (s : State) : held (abandonMove s) = held s := by
  unfold abandonMove
  split
  · split <;> rfl
  · rfl

theorem held_checkEntry (s : State) : held (checkEntry s) = held s := by
  unfold checkEntry
  split
  · split
    · exact held_abandonMove s
    · rfl
  · rfl

/-- The neighbours leave all of it, whatever time passes, while they disturb no SRAM. -/
theorem held_applyEnv {e : Env} (he : e.upsets = []) (s : State) : held (applyEnv e s) = held s := by
  unfold applyEnv
  extract_lets guard landed stored computed marked flipped upset power pointed
  have hlanded : held landed = held s := held_landFixes _
  have hstored : held stored = held s := (held_foldl (fun _ _ => held_hostWrite ..) _ _).trans hlanded
  have hcomputed : held computed = held s := (held_foldl (fun _ _ => held_computeStore ..) _ _).trans hstored
  have hflipped : held flipped = held s := (held_foldl (fun _ _ => held_flipByte ..) _ _).trans hcomputed
  have hupset : upset = flipped := by simp only [upset, he, List.foldl_nil, ite_self]
  have hpointed : held pointed = held upset := by
    unfold pointed
    split <;> rfl
  rw [held_checkEntry, hpointed, hupset, hflipped]

theorem ringOf_of_held {s t : State} (h : held t = held s) (q : Fin 16) : ringOf t q = ringOf s q := by
  have hrings : t.rings = s.rings := congrArg (fun x => x.2.2.1) h
  simp only [ringOf, hrings]

theorem wideCap_of_held {s t : State} (h : held t = held s) : t.wideCap = s.wideCap := congrArg (fun x => x.1) h

theorem loHold_of_held {s t : State} (h : held t = held s) : t.loHold = s.loHold := congrArg (fun x => x.2.1) h

theorem powerState_of_held {s t : State} (h : held t = held s) : t.power.state = s.power.state := congrArg (fun x => x.2.2.2) h

/-! ### A key put in a list -/

theorem find?_putKey (k : Nat) (v : Word) : ∀ l : List (Nat × Word), ((putKey k v l).find? fun c => decide (c.1 = k)) = some (k, v)
  | [] => by simp [putKey]
  | (k', v') :: l => by
    by_cases h : k' = k
    · simp [putKey, h]
    · simp [putKey, h, find?_putKey k v l]

theorem getKey_putKey (k : Nat) (v d : Word) : ∀ l : List (Nat × Word), getKey k d (putKey k v l) = v
  | [] => by simp [putKey, getKey]
  | (k', v') :: l => by
    by_cases h : k' = k
    · simp [putKey, getKey, h]
    · simp [putKey, getKey, h, getKey_putKey k v d l]

/-! ### Read-only pairs -/

/-- The counters of a channel block are rows of 24 copies, one per channel. -/
theorem channelPair_shape : ∀ r ∈ regMap, r.off = Reg.chRdLo ∨ r.off = Reg.chWrLo → r.stride = 0x1000 ∧ r.cnt = 24 := by decide +kernel

/-- A read-only pair is one of the list or a traffic counter of a channel. -/
theorem isReadPair_cases {off : Nat} (h : isReadPair off = true) :
    off ∈ readPairs ∨ ∃ n < 24, off = Reg.chRdLo + n * 0x1000 ∨ off = Reg.chWrLo + n * 0x1000 := by
  unfold isReadPair at h
  rcases Bool.or_eq_true _ _ ▸ h with hlist | hchan
  · exact .inl (by simpa using hlist)
  · cases hr : rowAt off with
    | none => simp [hr] at hchan
    | some x =>
      obtain ⟨r, n⟩ := x
      obtain ⟨hmem, hcopy⟩ := rowAt_some hr
      have hoff : r.off = Reg.chRdLo ∨ r.off = Reg.chWrLo := by simpa [hr] using hchan
      obtain ⟨hstride, hcnt⟩ := channelPair_shape r hmem hoff
      obtain ⟨heq, hn⟩ := copy_some (by omega) hcopy
      rw [hstride] at heq
      exact .inr ⟨n, by omega, hoff.imp (fun e => by rw [heq, e]) fun e => by rw [heq, e]⟩

/-- Where the channel counters and the intake entries lie. -/
theorem channelPair_offsets : Reg.chRdLo = 0x10010 ∧ Reg.chWrLo = 0x10018 ∧ Reg.intakeW = 0x50000 := ⟨rfl, rfl, rfl⟩

theorem readPairs_apart : ∀ off ∈ readPairs, off + 4 < Reg.chRdLo ∧ off + 4 ∉ readPairs := by decide

/-- The high half of a read-only pair is no low half, and lies below the intake entries. -/
theorem isReadPair_high {off : Nat} (h : isReadPair off = true) : isReadPair (off + 4) = false ∧ off + 4 < Reg.intakeW := by
  obtain ⟨hrd, hwr, hin⟩ := channelPair_offsets
  have hlow := isReadPair_cases h
  refine ⟨Bool.eq_false_iff.2 fun h4 => ?_, ?_⟩
  · rcases hlow with hl | ⟨n, hn, hl⟩ <;> rcases isReadPair_cases h4 with hh | ⟨m, hm, hh⟩
    · exact (readPairs_apart off hl).2 hh
    · have := (readPairs_apart off hl).1
      omega
    · have := (readPairs_apart (off + 4) hh).1
      omega
    · omega
  · rcases hlow with hl | ⟨n, hn, hl⟩
    · have := (readPairs_apart off hl).1
      omega
    · omega

/-- A read below the intake entries of a half whose value was captured answers that value. -/
theorem lastRead_readPlain_captured {off : Nat} {v : Word} {s : State} (hp : s.power.state ≠ 3) (hoff : off < Reg.intakeW)
    (hc : (s.wideCap.find? fun c => decide (c.1 = off)) = some (off, v)) : (readPlain off s).lastRead = v := by
  have hentry : (s.intakeCap.find? fun c => decide (off = Reg.intakeW + c.1 * 0x20 + c.2.2 * 4 ∧ c.2.2 < 8)) = none := by
    refine List.find?_eq_none.2 fun c _ => ?_
    simp only [decide_eq_true_eq]
    omega
  simp only [readPlain, if_neg hp, hentry, hc]

/-- A capture of a low half, outside E3. -/
theorem exec_wideRegisterCapture_low {e : Env} {s₀ s : State} (hs : applyEnv e s₀ = s) {off : Nat} (hpair : isReadPair off = true)
    (hp : s.power.state ≠ 3) : exec (.wideRegisterCapture e off) s₀ =
      .next { s with lastRead := readReg s off, wideCap := putKey (off + 4) (readReg s (off + 4)) s.wideCap } := by
  change execWideRegisterCapture e off s₀ = _
  simp [execWideRegisterCapture, hs, hpair, hp]

/-- A read of a register that is no low half. -/
theorem exec_wideRegisterCapture_plain {e : Env} {s : State} {off : Nat} (hpair : isReadPair off = false) :
    exec (.wideRegisterCapture e off) s = .next (readPlain off (applyEnv e s)) := by
  change execWideRegisterCapture e off s = _
  simp [execWideRegisterCapture, hpair]

/-! ### The addresses of a ring -/

/-- The halves of a ring's addresses are RW rows of 16 copies, one per ring. -/
theorem rowAt_ringAddress : ∀ q : Fin 16, ∀ base ∈ [Reg.ringSqBaseLo, Reg.ringCqBaseLo, Reg.ringDbLo],
    rowAt (ringReg q base) = some (⟨base, 16, 0x100, .rw, 0#32, 28⟩, q.val) ∧
    rowAt (ringReg q base + 4) = some (⟨base + 4, 16, 0x100, .rw, 0#32, 28⟩, q.val) := by decide +kernel

theorem ringNo_val (q : Fin 16) : ringNo q.val = q := Fin.ext (Nat.mod_eq_of_lt q.isLt)

section
variable {q : Fin 16} {base : Nat} (hbase : base ∈ [Reg.ringSqBaseLo, Reg.ringCqBaseLo, Reg.ringDbLo])
include hbase

theorem ringAddress_halves : ownCommand base = false ∧ base ≠ Reg.reset ∧ (Reg.ringCtrl ≤ base ∧ base ≤ Reg.ringHalts) ∧
    ownCommand (base + 4) = false ∧ base + 4 ≠ Reg.reset ∧ (Reg.ringCtrl ≤ base + 4 ∧ base + 4 ≤ Reg.ringHalts) ∧
    base + 4 ∉ [Reg.ringSqBaseLo, Reg.ringCqBaseLo, Reg.ringDbLo] ∧ base + 4 ∈ [Reg.ringSqBaseHi, Reg.ringCqBaseHi, Reg.ringDbHi] := by
  revert base
  decide

/-- The low half of an address of a disabled ring is held. -/
theorem plainWrite_ringAddressLow {s : State} (hd : (ringOf s q).enabled = false) (v : Word) :
    plainWrite (ringReg q base) v s = { s with loHold := putKey (ringReg q base) v s.loHold } := by
  obtain ⟨hown, hreset, hring, -⟩ := ringAddress_halves hbase
  rw [plainWrite_rw (rowAt_ringAddress q base hbase).1 hown hreset (.inl rfl), if_pos hring]
  simp [ringWrite, hbase, ringNo_val, hd]

/-- The high half puts both in force: itself, and the low half that is held. -/
theorem plainWrite_ringAddressHigh {s : State} (hd : (ringOf s q).enabled = false) (v : Word) :
    plainWrite (ringReg q base + 4) v s =
      regSet (ringReg q base + 4) v (regSet (ringReg q base) (getKey (ringReg q base) (regGet s (ringReg q base)) s.loHold)
        { s with loHold := s.loHold.filter fun e => e.1 ≠ ringReg q base }) := by
  obtain ⟨-, -, -, hown, hreset, hring, hlow, hhigh⟩ := ringAddress_halves hbase
  rw [plainWrite_rw (rowAt_ringAddress q base hbase).2 hown hreset (.inl rfl), if_pos hring]
  simp only [ringWrite, List.contains_iff_mem, ringNo_val]
  rw [if_neg hlow, if_pos hhigh]
  simp [hd]

end

/-! ### The obligation -/

/-- Settles O9: the capture waits in the state, and the held half waits there, until the other half is accessed; no neighbour touches either. -/
theorem pairsReadAndWritten : Obligations.PairsReadAndWritten := by
  unfold Obligations.PairsReadAndWritten
  refine ⟨fun e s₀ s off hs hpair hp => ⟨_, exec_wideRegisterCapture_low hs hpair hp, rfl, rfl, fun e' he' => ?_⟩,
    fun e e' s₀ s q base lo hi hs hp hbase hd he' => ⟨_, exec_registerWrite_up hs hp _ _, ?_, ?_⟩⟩
  · obtain ⟨hplain, hoff⟩ := isReadPair_high hpair
    have hheld := held_applyEnv he' { s with lastRead := readReg s off, wideCap := putKey (off + 4) (readReg s (off + 4)) s.wideCap }
    refine ⟨_, exec_wideRegisterCapture_plain hplain, lastRead_readPlain_captured ?_ hoff ?_⟩
    · rw [powerState_of_held hheld]
      exact hp
    · rw [wideCap_of_held hheld]
      exact find?_putKey _ _ _
  · rw [plainWrite_ringAddressLow hbase hd]
  · rw [plainWrite_ringAddressLow hbase hd]
    have hheld := held_applyEnv he' { s with loHold := putKey (ringReg q base) lo s.loHold }
    have hp' := powerState_of_held hheld
    refine ⟨_, exec_registerWrite_up rfl (by rw [hp']; exact hp) _ _, ?_⟩
    rw [plainWrite_ringAddressHigh hbase (by rw [ringOf_of_held hheld]; exact hd), loHold_of_held hheld, getKey_putKey]
    refine ⟨?_, regGet_regSet_same _ _ _, fun o ho => ?_⟩
    · rw [regGet_regSet_other (by omega), regGet_regSet_same]
    · simp only [List.mem_cons, List.not_mem_nil, or_false, not_or] at ho
      rw [regGet_regSet_other ho.2, regGet_regSet_other ho.1]
      rfl

end Sys2Proof.Machine
end

section
/-! PROOF. Staging and committing configuration (R389 to R396): the copy between shadow registers and the values in force, and what the
bookkeeping around it leaves alone. -/

namespace Sys2Proof.Machine

open Sys2Proof

/-! ### Registers copied onto registers -/

/-- Each register of a list stored from another: the discard copies from the values in force, the commit copies onto them. -/
def copyRegs (dst src : Nat → Nat) (l : List Nat) (s : State) : State := l.foldl (fun s off => regSet (dst off) (regGet s (src off)) s) s

theorem copyRegs_cons (dst src : Nat → Nat) (x : Nat) (l : List Nat) (s : State) :
    copyRegs dst src (x :: l) s = copyRegs dst src l (regSet (dst x) (regGet s (src x)) s) := rfl

theorem regGet_copyRegs_other {dst src : Nat → Nat} {o : Nat} : ∀ {l : List Nat} (s : State), (∀ x ∈ l, o ≠ dst x) →
    regGet (copyRegs dst src l s) o = regGet s o
  | [], _, _ => rfl
  | x :: l, s, h => by
    rw [copyRegs_cons, regGet_copyRegs_other _ fun y hy => h y (List.mem_cons_of_mem x hy), regGet_regSet_other (h x List.mem_cons_self)]

/-- A copy whose targets are apart from each other and from its sources stores each source in its target. -/
theorem regGet_copyRegs {dst src : Nat → Nat} (hdst : ∀ {x y}, dst x = dst y → x = y) {y : Nat} : ∀ {l : List Nat} (s : State),
    (∀ x ∈ l, ∀ z ∈ l, src x ≠ dst z) → y ∈ l → regGet (copyRegs dst src l s) (dst y) = regGet s (src y)
  | [], _, _, hy => nomatch hy
  | x :: l, s, hsrc, hy => by
    have hrest : ∀ u ∈ l, ∀ z ∈ l, src u ≠ dst z := fun u hu z hz => hsrc u (List.mem_cons_of_mem x hu) z (List.mem_cons_of_mem x hz)
    rw [copyRegs_cons]
    by_cases hyl : y ∈ l
    · rw [regGet_copyRegs hdst _ hrest hyl, regGet_regSet_other (hsrc y hy x List.mem_cons_self)]
    · obtain rfl : y = x := (List.mem_cons.1 hy).resolve_right hyl
      rw [regGet_copyRegs_other _ fun z hz e => hyl (by rwa [hdst e]), regGet_regSet_same]

theorem copyRegs_pendingCommit {dst src : Nat → Nat} : ∀ (l : List Nat) (s : State), (copyRegs dst src l s).pendingCommit = s.pendingCommit
  | [], _ => rfl
  | x :: l, s => by rw [copyRegs_cons, copyRegs_pendingCommit l, regSet_pendingCommit]

/-! ### What keeps the configuration -/

/-- The staged set, the pending commit, and every register from the shadow registers up to the ring blocks are as they were. -/
def ConfigKept (s t : State) : Prop :=
  t.staged = s.staged ∧ t.pendingCommit = s.pendingCommit ∧ ∀ o, Reg.jobSeedLo ≤ o → o < Reg.ringCtrl → regGet t o = regGet s o

theorem ConfigKept.staged {s t : State} (h : ConfigKept s t) : t.staged = s.staged := h.1

theorem ConfigKept.pendingCommit {s t : State} (h : ConfigKept s t) : t.pendingCommit = s.pendingCommit := h.2.1

theorem ConfigKept.regs {s t : State} (h : ConfigKept s t) {o : Nat} (hlo : Reg.jobSeedLo ≤ o) (hhi : o < Reg.ringCtrl) :
    regGet t o = regGet s o := h.2.2 o hlo hhi

theorem configKept_refl (s : State) : ConfigKept s s := ⟨rfl, rfl, fun _ _ _ => rfl⟩

theorem configKept_trans {s t u : State} (h : ConfigKept s t) (h' : ConfigKept t u) : ConfigKept s u :=
  ⟨h'.staged.trans h.staged, h'.pendingCommit.trans h.pendingCommit, fun _ hlo hhi => (h'.regs hlo hhi).trans (h.regs hlo hhi)⟩

/-- A store below the shadow registers, or in a ring block or above. -/
theorem configKept_regSet {s t : State} (h : ConfigKept s t) {off : Nat} (hoff : off < Reg.jobSeedLo ∨ Reg.ringCtrl ≤ off) (v : Word) :
    ConfigKept s (regSet off v t) :=
  configKept_trans h ⟨rfl, rfl, fun o hlo hhi => regGet_regSet_other (by omega) v t⟩

theorem configKept_regPut {s t : State} (h : ConfigKept s t) {off : Nat} (hoff : off < Reg.jobSeedLo ∨ Reg.ringCtrl ≤ off) (n : Nat) :
    ConfigKept s (regPut off n t) := configKept_regSet h hoff _

theorem configKept_count {s t : State} (h : ConfigKept s t) {off : Nat} (hoff : off < Reg.jobSeedLo ∨ Reg.ringCtrl ≤ off) (n : Nat) :
    ConfigKept s (count off n t) := configKept_regPut h hoff _

/-- The same value stored on both sides. -/
theorem configKept_regPut_both {s t : State} (h : ConfigKept s t) (off n : Nat) : ConfigKept (regPut off n s) (regPut off n t) := by
  refine ⟨h.staged, h.pendingCommit, fun o hlo hhi => ?_⟩
  by_cases ho : o = off
  · simp only [regPut, ho, regGet_regSet_same]
  · simp only [regPut, regGet_regSet_other ho, h.regs hlo hhi]

/-- The counters and captures of a ring block lie above the shadow registers. -/
theorem ringCtrl_le_ringReg {base : Nat} (h : Reg.ringCtrl ≤ base) (q : Fin 16) : Reg.ringCtrl ≤ ringReg q base :=
  Nat.le_trans h (Nat.le_add_right _ _)

section
variable {s t : State} (h : ConfigKept s t)
include h

theorem configKept_refreshCfg : ConfigKept s (refreshCfg t) := configKept_regPut h (.inl (by decide)) _

theorem configKept_setRing (q : Fin 16) (r : Ring) : ConfigKept s (setRing q r t) := h

theorem configKept_hostWrite (a : Nat) (bs : Bytes) : ConfigKept s (hostWrite a bs t) := h

theorem configKept_msix (m : List (Fin 16 × Nat × Nat)) : ConfigKept s { t with msix := m } := h

theorem configKept_cfgDone (done : List Nat) : ConfigKept s { t with cfgDone := done } := h

theorem configKept_job (j : Job) : ConfigKept s { t with job := j } := h

theorem configKept_dueMsix (q : Fin 16) : ConfigKept s (dueMsix q t) := by
  unfold dueMsix
  dsimp only
  split <;> split
  · exact configKept_msix (configKept_setRing h q _) _
  · exact configKept_setRing h q _
  · exact configKept_msix (configKept_setRing h q _) _
  · exact configKept_setRing h q _

theorem configKept_putSlots (q : Fin 16) : ∀ (l : List Bytes) (j : Nat) (cont : Bool), ConfigKept s (putSlots q j cont l t)
  | [], _, _ => h
  | _ :: l, j, _ => configKept_hostWrite (configKept_putSlots q l (idxAdd j 1) true) _ _

theorem configKept_putRecord (q : Fin 16) (slots : List Bytes) : ConfigKept s (putRecord q slots t) :=
  configKept_hostWrite (configKept_setRing (configKept_putSlots h q slots (ringOf t q).cqTail false) q _) _ _

theorem configKept_flushLost (q : Fin 16) : ConfigKept s (flushLost q t) := by
  unfold flushLost
  dsimp only
  split
  · with_reducible exact configKept_dueMsix (configKept_setRing (configKept_putRecord h q _) q _) q
  · with_reducible exact h

theorem configKept_report (q : Fin 16) (slots : List Bytes) (isEvent : Bool) : ConfigKept s (report q slots isEvent t) := by
  have hflushed := configKept_flushLost h q
  unfold report
  dsimp only
  split
  · split
    · with_reducible exact configKept_dueMsix (configKept_putRecord hflushed q slots) q
    · with_reducible exact configKept_putRecord hflushed q slots
  · with_reducible exact configKept_count (configKept_setRing hflushed q _) (.inr (ringCtrl_le_ringReg (by decide) q)) 1

theorem configKept_dropPlan (standby : Bool) (cause : Nat) (p : Plan) : ConfigKept s (dropPlan standby cause p t) := by
  have hnoted : ConfigKept s (if standby then { t with plans.dropStandbyAt := some (nextStepNo t) }
      else { t with plans.retireAt := some (nextStepNo t) }) := by
    cases standby <;> exact h
  unfold dropPlan planLostEvent
  dsimp only
  with_reducible exact configKept_report hnoted _ _ _

theorem configKept_reauditPlans : ConfigKept s (reauditPlans t) := by
  unfold reauditPlans
  extract_lets u
  have hu : ConfigKept s u := by
    unfold u
    split
    · split
      · exact h
      · exact configKept_dropPlan h _ _ _
    · exact h
  clear_value u
  split
  · split
    · exact hu
    · exact configKept_dropPlan hu _ _ _
  · exact hu

theorem configKept_refreshSlots : ConfigKept s (refreshSlots t) :=
  configKept_regPut (configKept_regPut h (.inl (by decide)) _) (.inl (by decide)) _

end

/-! ### Shadow registers and their values in force -/

/-- The shadow registers and their values in force lie between the bookkeeping registers of a commit and the ring blocks. -/
theorem shadowRegs_bounds : ∀ off ∈ shadowRegs, (Reg.jobSeedLo ≤ off ∧ off < Reg.ringCtrl) ∧
    Reg.jobSeedLo ≤ inForce off ∧ inForce off < Reg.ringCtrl := by decide

theorem shadow_ne_inForce : ∀ off ∈ shadowRegs, ∀ o ∈ shadowRegs, off ≠ inForce o := by decide

theorem inForce_injective {x y : Nat} (h : inForce x = inForce y) : x = y := Nat.add_right_cancel h

theorem configKept_withStaged {s t : State} (h : ConfigKept s t) (l : List Nat) : ConfigKept { s with staged := l } { t with staged := l } :=
  ⟨rfl, h.pendingCommit, fun _ => h.regs⟩

theorem configKept_putStaged (l : List Nat) (s : State) : ConfigKept { s with staged := l } (putStaged l s) :=
  configKept_regPut (configKept_refl { s with staged := l }) (.inl (by decide)) _

theorem regGet_withStaged (l : List Nat) (s : State) (o : Nat) : regGet { s with staged := l } o = regGet s o := rfl

/-! ### Discard and request -/

/-- In E0 and E1 the rows of OSE_CFG_COMMIT are its write on the state as the neighbours leave it. -/
theorem exec_configDiscard_up {e : Env} {s₀ s : State} (hs : applyEnv e s₀ = s) (hp : s.power.state < 2) (hidle : s.pendingCommit = false) :
    exec (.configDiscard e) s₀ = .next (refreshCfg (discardStaged s)) := by
  change execConfigDiscard e s₀ = _
  simp only [execConfigDiscard, hs, hostWriteTo_up hp, commitWrite_idle hidle]
  rfl

theorem exec_configCommit_up {e : Env} {s₀ s : State} (hs : applyEnv e s₀ = s) (hp : s.power.state < 2) (hidle : s.pendingCommit = false) :
    exec (.configCommit e) s₀ = .next (requestCommit s) := by
  change execConfigCommit e s₀ = _
  simp only [execConfigCommit, hs, hostWriteTo_up hp, commitWrite_idle hidle]
  rfl

/-- The discard copies each shadow register from its value in force. -/
theorem discardStaged_eq (s : State) : discardStaged s =
    putStaged [] (copyRegs (fun o => o) inForce shadowRegs { s with loHold := s.loHold.filter fun e => e.1 ≠ Reg.jobSeedLo }) := rfl

theorem refreshCfg_discardStaged (s : State) : (refreshCfg (discardStaged s)).staged = [] ∧
    ∀ off ∈ shadowRegs, regGet (refreshCfg (discardStaged s)) off = regGet s (inForce off) := by
  rw [discardStaged_eq]
  have hkept := configKept_refreshCfg (configKept_putStaged []
    (copyRegs (fun o => o) inForce shadowRegs { s with loHold := s.loHold.filter fun e => e.1 ≠ Reg.jobSeedLo }))
  refine ⟨hkept.staged, fun off hoff => ?_⟩
  obtain ⟨⟨hlo, hhi⟩, -⟩ := shadowRegs_bounds off hoff
  have hapart : ∀ x ∈ shadowRegs, ∀ z ∈ shadowRegs, inForce x ≠ z := fun x hx z hz => (shadow_ne_inForce z hz x hx).symm
  rw [hkept.regs hlo hhi, regGet_withStaged, regGet_copyRegs (dst := fun o => o) id _ hapart hoff]
  rfl

/-- With a plan active at an engine that is not frozen, the request only waits. -/
theorem requestCommit_waits {s : State} (hplan : planActive s = true) (hf : s.refill.frozen = false) :
    requestCommit s = refreshCfg { s with pendingCommit := true } := by
  have hno : ¬ ((refreshCfg { s with pendingCommit := true }).refill.frozen ||
      !planActive (refreshCfg { s with pendingCommit := true })) = true := by
    simp only [refreshCfg, regPut_refill, planActive, regPut_plans]
    simpa only [hf, Bool.false_or, Bool.not_eq_true', Bool.not_eq_false, planActive] using hplan
  rw [requestCommit]
  exact if_neg hno

/-! ### The commit -/

/-- The pending commit at its moment, outside dry mode. -/
theorem exec_configCommitApply_moment {e : Env} {s₀ s : State} (hs : applyEnv e s₀ = s) (hp : s.power.state < 2) (hdry : s.dry = false)
    (hpend : s.pendingCommit = true) (hm : commitMoment s = true) : exec (.configCommitApply e) s₀ = .next (applyCommit false s).2 := by
  change execConfigCommitApply e s₀ = _
  simp [execConfigCommitApply, hs, hp, hm, applyPending, hpend, hdry]

/-- The staged values in force, but those of OSE_SNAP_CFG. -/
def putInForce (s : State) : State := copyRegs inForce id (shadowRegs.filter (· ≠ Reg.snapCfg)) s

/-- The slot count and the pond bit of a word in force, and alone left in the shadow register. -/
def putSnapInForce (cfg : Nat) (s : State) : State := regPut (inForce Reg.snapCfg) (bits 4 0 cfg) (regPut Reg.snapCfg (bits 4 0 cfg) s)

/-- What a commit puts in force at one instant. -/
def committedConfig (s : State) : State := { putSnapInForce (regNat s Reg.snapCfg) (putInForce s) with staged := [] }

theorem regNat_putInForce_snapCfg (s : State) : regNat (putInForce s) Reg.snapCfg = regNat s Reg.snapCfg :=
  congrArg BitVec.toNat <| regGet_copyRegs_other s fun x hx => shadow_ne_inForce Reg.snapCfg (by decide) x (List.mem_filter.1 hx).1

theorem committedConfig_pendingCommit (s : State) : (committedConfig s).pendingCommit = s.pendingCommit := by
  simp only [committedConfig, putSnapInForce, regPut_pendingCommit, putInForce, copyRegs_pendingCommit]

theorem regGet_committedConfig (s : State) {off : Nat} (hoff : off ∈ shadowRegs) (hne : off ≠ Reg.snapCfg) :
    regGet (committedConfig s) (inForce off) = regGet s off := by
  rw [committedConfig, regGet_withStaged]
  have hshadow : inForce off ≠ Reg.snapCfg := (shadow_ne_inForce Reg.snapCfg (by decide) off hoff).symm
  rw [putSnapInForce, regPut, regGet_regSet_other (fun e => hne (inForce_injective e)), regPut, regGet_regSet_other hshadow]
  refine regGet_copyRegs (src := id) inForce_injective s (fun x hx z hz => ?_) (List.mem_filter.2 ⟨hoff, by simpa using hne⟩)
  exact shadow_ne_inForce x (List.mem_filter.1 hx).1 z (List.mem_filter.1 hz).1

theorem regNat_committedConfig_snapCfgF (s : State) : regNat (committedConfig s) Reg.snapCfgF = bits 4 0 (regNat s Reg.snapCfg) := by
  rw [committedConfig, regNat, regGet_withStaged, ← regNat, show Reg.snapCfgF = inForce Reg.snapCfg from rfl]
  rw [putSnapInForce, regNat_regPut_same, bits]
  omega

theorem configKept_putSnapInForce {s t : State} (h : ConfigKept s t) (cfg : Nat) :
    ConfigKept (putSnapInForce cfg s) (putSnapInForce cfg t) :=
  configKept_regPut_both (configKept_regPut_both h _ _) _ _

theorem configKept_flashWrite {s t : State} (h : ConfigKept s t) (a : Nat) (bs : Bytes) : ConfigKept s (flashWrite a bs t) := h

theorem configKept_issueBarrier {s t : State} (h : ConfigKept s t) (b : Barrier) : ConfigKept s (issueBarrier b t) := h

theorem configKept_zeroManifests {s t : State} (h : ConfigKept s t) : ConfigKept s (zeroManifests t) := by
  unfold zeroManifests
  generalize List.range (slotCount t) = l
  suffices hall : ∀ u, ConfigKept s u → ConfigKept s (l.foldl (fun s i => flashWrite (slotBase s i) (zeros 4096) s) u) from hall t h
  induction l with
  | nil => exact fun _ hu => hu
  | cons i l ih => exact fun u hu => ih _ (configKept_flashWrite hu _ _)

/-- The slot count in force and the header written anew are flash's matter: of the configuration it is the two registers alone. -/
theorem configKept_applySnap {s t : State} (h : ConfigKept s t) {cfg : Nat} (hcfg : regNat t Reg.snapCfg = cfg) :
    ConfigKept (putSnapInForce cfg s) (applySnap t) := by
  subst hcfg
  unfold applySnap
  extract_lets cfg n clean
  have hclean : ∀ {u}, ConfigKept s u → ConfigKept (putSnapInForce (regNat t Reg.snapCfg) s) (clean u) :=
    fun hu => configKept_putSnapInForce hu cfg
  clear_value clean
  split
  · with_reducible exact
      configKept_issueBarrier (configKept_flashWrite (configKept_zeroManifests (hclean (configKept_zeroManifests h))) _ _) _
  · with_reducible exact hclean h

/-- Between the values put in force and the re-audit a commit only keeps its books: the staged set emptied, its time, its count, its status. -/
theorem configKept_commitBooks {s t : State} (h : ConfigKept s t) (at' n : Nat) :
    ConfigKept { s with staged := [] }
      (refreshCfg (regPut Reg.cfgStatus n (count Reg.cfgCommits 1 (widePut Reg.cfgAppliedAtLo at' (putStaged [] t))))) := by
  have hstaged := configKept_trans (configKept_withStaged h []) (configKept_putStaged [] t)
  exact configKept_refreshCfg (configKept_regPut (configKept_count (configKept_regPut (configKept_regPut hstaged (.inl (by decide)) _)
    (.inl (by decide)) _) (.inl (by decide)) _) (.inl (by decide)) _)

/-- A commit that passes with the tag as it was: what it puts in force stands, whatever the re-audit of the plans reports. -/
theorem configKept_applyCommit {s : State} (hv : validate { s with pendingCommit := false } = none)
    (htag : regGet s Reg.jobTag = regGet s Reg.jobTagF) :
    ConfigKept (committedConfig { s with pendingCommit := false }) (applyCommit false s).2 := by
  unfold applyCommit
  extract_lets s₁ oldTag oldGeom tagStaged forced snapped timed booked job axis kept
  rw [show validate s₁ = none from hv]
  have hforced : ConfigKept (putInForce s₁) forced := configKept_refl (putInForce s₁)
  have hcfg : regNat forced Reg.snapCfg = regNat s₁ Reg.snapCfg := regNat_putInForce_snapCfg s₁
  clear_value forced
  have hsnapped : ConfigKept (putSnapInForce (regNat s₁ Reg.snapCfg) (putInForce s₁)) snapped :=
    configKept_applySnap (configKept_cfgDone hforced _) hcfg
  have hbooked : ConfigKept (committedConfig s₁) booked := configKept_commitBooks hsnapped _ _
  have haxis : ConfigKept (committedConfig s₁) axis := by
    unfold axis
    clear_value booked
    split
    · exact configKept_job hbooked _
    · exact hbooked
  have htagged : regGet axis Reg.jobTagF = regGet s₁ Reg.jobTagF :=
    ((haxis.regs (by decide) (by decide)).trans (regGet_committedConfig s₁ (off := Reg.jobTag) (by decide) (by decide))).trans htag
  have hkept : kept = axis := if_neg fun hne => hne.2 (by simp only [tagOf, regNat, htagged, oldTag])
  rw [hkept]
  dsimp only
  split
  · exact configKept_refreshSlots (configKept_reauditPlans haxis)
  · exact configKept_refreshSlots haxis

/-! ### The failed commit -/

theorem regGet_event (code status cause : Nat) (detail : Bytes) (s : State) (o : Nat) :
    regGet (event code status cause detail s) o = regGet s o := by
  simp only [regGet, event_regs]

theorem configKept_event {s t : State} (h : ConfigKept s t) (code status cause : Nat) (detail : Bytes) :
    ConfigKept s (event code status cause detail t) :=
  configKept_trans h ⟨event_staged .., event_pendingCommit .., fun o _ _ => regGet_event code status cause detail t o⟩

/-- A flagged event shows in OSE_EVENTS. -/
theorem testBit_flagEvent {n : Nat} (hn : n < 32) (s : State) : (regNat (flagEvent n s) Reg.events).testBit n = true := by
  rw [flagEvent, regOr, regNat_regPut_same, Nat.testBit_mod_two_pow, Nat.testBit_or, Nat.testBit_two_pow_self]
  simp [hn]

/-- A commit that fails keeps the configuration, counts the disagreement and flags it. -/
theorem commitFailed_kept (f : Failure) (s : State) : ConfigKept s (commitFailed f false s) ∧
    regNat (commitFailed f false s) Reg.cfgDisagrees = min (regNat s Reg.cfgDisagrees + 1) 0xFFFFFFFF ∧
    (regNat (commitFailed f false s) Reg.events).testBit 5 = true := by
  unfold commitFailed
  extract_lets fail status
  refine ⟨?_, ?_, ?_⟩
  · have hstatus : ConfigKept s status := configKept_refreshCfg
      (configKept_regPut (configKept_regPut (configKept_refl s) (.inl (by decide)) _) (.inl (by decide)) _)
    exact configKept_event (configKept_regPut (configKept_count hstatus (.inl (by decide)) 1) (.inl (by decide)) _) _ _ _ _
  · have hstatus : regNat status Reg.cfgDisagrees = regNat s Reg.cfgDisagrees := by
      simp only [status, fail, refreshCfg]
      rw [regNat_regPut_other (by decide), regNat_regPut_other (by decide), regNat_regPut_other (by decide)]
    rw [regNat, regGet_event, ← regNat, flagEvent, regOr, regNat_regPut_other (by decide), regNat_count_same, hstatus]
    rfl
  · rw [regNat, regGet_event, ← regNat]
    exact testBit_flagEvent (by decide) _

/-! ### The obligation -/

/-- Settles O10: the discard and the commit are one copy of registers each, and what surrounds them keeps the configuration. -/
theorem shadowConfiguration : Obligations.ShadowConfiguration := by
  unfold Obligations.ShadowConfiguration
  refine ⟨fun e s₀ s hs hp hidle => ⟨_, exec_configDiscard_up hs hp hidle, refreshCfg_discardStaged s⟩,
    fun e s₀ s hs hp hidle hplan hf => ⟨_, exec_configCommit_up hs hp hidle, ?_⟩,
    fun e s₀ s hs hp hdry hpend hm hv htag => ⟨_, exec_configCommitApply_moment hs hp hdry hpend hm, ?_⟩,
    fun e s₀ s f hs hp hdry hpend hm hv => ⟨_, exec_configCommitApply_moment hs hp hdry hpend hm, ?_⟩⟩
  · rw [requestCommit_waits hplan hf]
    exact ⟨rfl, rfl, fun o ho => regGet_regSet_other (by simpa using ho) _ _, rfl⟩
  · have hkept := configKept_applyCommit hv htag
    refine ⟨hkept.staged, hkept.pendingCommit.trans ?_, fun off hoff hne => ?_, ?_⟩
    · rw [committedConfig_pendingCommit]
    · obtain ⟨-, hlo, hhi⟩ := shadowRegs_bounds off hoff
      exact (hkept.regs hlo hhi).trans (regGet_committedConfig _ hoff hne)
    · rw [regNat, hkept.regs (by decide) (by decide), ← regNat, regNat_committedConfig_snapCfgF]
      rfl
  · have hfail : (applyCommit false s).2 = commitFailed f false { s with pendingCommit := false } := by
      simp only [applyCommit, hv]
    rw [hfail]
    obtain ⟨hkept, hcount, hflag⟩ := commitFailed_kept f { s with pendingCommit := false }
    refine ⟨hkept.staged, hkept.pendingCommit, fun off hoff => ?_, hcount, hflag⟩
    obtain ⟨⟨hlo, hhi⟩, hlo', hhi'⟩ := shadowRegs_bounds off hoff
    exact ⟨hkept.regs hlo hhi, hkept.regs hlo' hhi'⟩

end Sys2Proof.Machine
end

section
/-! PROOF. Compute writes (R17, R47): judged byte by byte against the windows that the memory partition holds. -/

namespace Sys2Proof.Machine

open Sys2Proof

theorem computeStore_cons (a : Nat) (b : Byte) (bs : Bytes) (s : State) :
    computeStore a (b :: bs) s = computeStore (a + 1) bs (if inWindow s a then s else hbmPut a [b] s) := rfl

/-- A compute write changes HBM alone. -/
theorem computeStore_eq : ∀ (bs : Bytes) (a : Nat) (s : State), { computeStore a bs s with hbm := s.hbm } = s
  | [], _, _ => rfl
  | b :: bs, a, s => by
    rw [computeStore_cons]
    split
    case isTrue => exact computeStore_eq bs (a + 1) s
    case isFalse => exact congrArg (fun t : State => { t with hbm := s.hbm }) (computeStore_eq bs (a + 1) (hbmPut a [b] s))

/-- The first byte of a compute write lands where no window holds its address. -/
theorem readByte_firstByte (a : Nat) (b : Byte) (s : State) (x : Nat) :
    readByte (if inWindow s a then s else hbmPut a [b] s).hbm x = if x = a ∧ inWindow s x = false then b else readByte s.hbm x := by
  by_cases hx : x = a
  case pos =>
    subst hx
    cases hw : inWindow s x
    case true => simp
    case false =>
      have hbyte := readByte_writeBytes_in (a := x) [b] s.hbm (Nat.le_refl x) (by simp)
      simpa [hbmPut] using hbyte
  case neg =>
    have hbyte := readByte_writeBytes_out (a := x) (b := a) [b] s.hbm (by simp only [List.length_singleton]; omega)
    split <;> simp [hx, hbmPut, hbyte]

/-- A compute write lands byte by byte: where it reaches and no window holds the address. -/
theorem readByte_computeStore (x : Nat) : ∀ (bs : Bytes) (a : Nat) (s : State), readByte (computeStore a bs s).hbm x =
    if a ≤ x ∧ x < a + bs.length ∧ inWindow s x = false then bs.getD (x - a) 0#8 else readByte s.hbm x
  | [], a, s => by
    have hempty : ¬ (a ≤ x ∧ x < a + ([] : Bytes).length ∧ inWindow s x = false) := by simp only [List.length_nil]; omega
    rw [if_neg hempty]
    rfl
  | b :: bs, a, s => by
    have hwin : inWindow (if inWindow s a then s else hbmPut a [b] s) x = inWindow s x := by split <;> rfl
    rw [computeStore_cons, readByte_computeStore x bs, hwin, readByte_firstByte, List.length_cons]
    rcases Nat.lt_trichotomy x a with hlt | rfl | hgt
    · simp [show ¬ a + 1 ≤ x by omega, show ¬ a ≤ x by omega, show x ≠ a by omega]
    · simp
    · have hindex : x - a = x - (a + 1) + 1 := by omega
      simp [show x ≠ a by omega, show a + 1 ≤ x by omega, show a ≤ x by omega, hindex, show a + 1 + bs.length = a + (bs.length + 1) by omega]

/-- Settles O5, byte by byte along the written bytes. -/
theorem computeStoreJudgedByByte : Obligations.ComputeStoreJudgedByByte := by
  unfold Obligations.ComputeStoreJudgedByByte
  exact fun a bs s => ⟨fun x => readByte_computeStore x bs a s, computeStore_eq bs a s⟩

end Sys2Proof.Machine
end

section
/-! PROOF. The commit of a step and the start of the next (R36, R80, R81, R181, R301): what surrounds them leaves the step alone. -/

namespace Sys2Proof.Machine

open Sys2Proof

/-! ### The refill settled with a commit (R217, R240) -/

/-- Only the refill's state and the packets issued may differ. -/
def RefillTold (s t : State) : Prop := ∃ f p d, t = { s with refill := f, sent := p, delayed := d }

theorem refillTold_refl (s : State) : RefillTold s s := ⟨_, _, _, rfl⟩

theorem refillTold_refill {s t : State} (h : RefillTold s t) (f : Refill) : RefillTold s { t with refill := f } := by
  obtain ⟨_, _, _, rfl⟩ := h
  exact ⟨_, _, _, rfl⟩

theorem refillTold_send {s t : State} (h : RefillTold s t) (dest : Dest) (cls window offset stepLow : Nat) (payload : Payload) :
    RefillTold s (send dest cls window offset stepLow payload t) := by
  obtain ⟨_, _, _, rfl⟩ := h
  unfold send
  split
  · exact ⟨_, _, _, rfl⟩
  · split
    · exact ⟨_, _, _, rfl⟩
    · split
      · exact ⟨_, _, _, rfl⟩
      · dsimp only
        split <;> exact ⟨_, _, _, rfl⟩

theorem refillTold_foldl {α : Type} {s : State} {f : State → α → State} (hf : ∀ t x, RefillTold s t → RefillTold s (f t x)) {t : State}
    (h : RefillTold s t) (l : List α) : RefillTold s (l.foldl f t) :=
  List.foldlRecOn l f h fun t ht x _ => hf t x ht

theorem refillTold_sendChainRec {s t : State} (h : RefillTold s t) (dst : Coord) (r : ChainRec) : RefillTold s (sendChainRec dst r t) :=
  refillTold_send h _ _ _ _ _ _

theorem refillTold_askLate {s t : State} (h : RefillTold s t) : RefillTold s (askLate t) :=
  refillTold_foldl (fun _ _ hu => refillTold_foldl (fun _ _ hv => refillTold_sendChainRec hv _ _) hu _) (refillTold_refill h _) _

theorem refillTold_addRebuild {s t : State} (h : RefillTold s t) (i j : Nat) : RefillTold s (addRebuild i j t) := by
  unfold addRebuild
  split
  · exact h
  · exact refillTold_refill h _

theorem refillTold_askRedo {s t : State} (h : RefillTold s t) : RefillTold s (askRedo t) := by
  refine refillTold_foldl (fun u x hu => ?_) (refillTold_refill h _) _
  split
  · exact refillTold_addRebuild hu _ _
  · exact refillTold_sendChainRec hu _ _

/-- What a commit does to a refill is the refill's own matter. -/
theorem refillTold_settleRefill (n : Nat) (s : State) : RefillTold s (settleRefill n s) := by
  unfold settleRefill
  split
  · exact refillTold_refl s
  · exact refillTold_askRedo (refillTold_askLate (refillTold_refill (refillTold_refl s) _))

/-- With no repair attempt kept, none begins. -/
theorem startDeferred_noAttempts {s : State} (h : s.guard.attempts = []) : startDeferred s = s := by
  simp [startDeferred, dueAttempts, h]

theorem refillTold_startDeferred {s t : State} (h : RefillTold s t) (hidle : s.guard.attempts = []) : RefillTold s (startDeferred t) := by
  have hguard : t.guard = s.guard := by
    obtain ⟨_, _, _, rfl⟩ := h
    rfl
  rwa [startDeferred_noAttempts (by rw [hguard]; exact hidle)]

/-! ### The commit (R36) -/

/-- Settles O38: the commit sets the step's record, and what it then does to a refill and to deferred repairs leaves that record. -/
theorem commitOfAStep : Obligations.CommitOfAStep := by
  unfold Obligations.CommitOfAStep
  intro s commitAt _ hidle
  obtain ⟨f, p, d, htold⟩ : RefillTold _ (commitStep commitAt true s) :=
    refillTold_startDeferred (refillTold_settleRefill s.step.num _) (by exact hidle)
  rw [htold]
  exact ⟨rfl, rfl, rfl, rfl, rfl, rfl, rfl, rfl, rfl, rfl, rfl, rfl⟩

/-! ### The start of a step (R80, R81) -/

/-- The lease and the share claim are the power link's matter. -/
theorem dropLease_power (s : State) : ∃ w, dropLease s = { s with power := w } := by
  unfold dropLease
  dsimp only
  split <;> exact ⟨_, rfl⟩

/-- Only the plan slots may differ. -/
def PlansOnly (s t : State) : Prop := ∃ ps, t = { s with plans := ps }

theorem plansOnly_plans {s t : State} (h : PlansOnly s t) (ps : Plans) : PlansOnly s { t with plans := ps } := by
  obtain ⟨_, rfl⟩ := h
  exact ⟨ps, rfl⟩

theorem plansOnly_switchPlans (n : Nat) (s : State) : PlansOnly s (switchPlans n s) := by
  unfold switchPlans
  extract_lets gone plans kept arms
  have hkept : PlansOnly s kept := by
    unfold kept
    split <;> exact ⟨_, rfl⟩
  clear_value arms kept
  split
  · exact plansOnly_plans hkept _
  · split
    · exact plansOnly_plans hkept _
    · exact hkept

theorem applyPending_none {s : State} (h : s.pendingCommit = false) : applyPending s = s := by simp [applyPending, h]

/-- What step n begins with at its instant: its number, its start and its polarity, nothing of the step before it in the reduction, the update
and the agreement, and the last commit, HBM and what was sent as they were. -/
def FreshStep (n at_ : Nat) (s t : State) : Prop :=
  t.step.num = n ∧ t.step.nextAt = at_ ∧ t.step.startAt = (if planActive t then some at_ else none) ∧ t.step.polarity = decide (n % 2 = 1) ∧
    t.step.committed = s.step.committed ∧ t.step.check = 0 ∧ t.red = {} ∧ t.upd = {} ∧ t.agree.open_ = false ∧ t.hbm = s.hbm ∧
    t.sent = s.sent

/-- With no commit pending, a step begins afresh. -/
theorem freshStep_beginStep {n at_ first : Nat} {s : State} (hpend : s.pendingCommit = false) : FreshStep n at_ s (beginStep n at_ first s) := by
  obtain ⟨ps, hps⟩ := plansOnly_switchPlans n s
  unfold beginStep
  rw [hps]
  extract_lets before switched st begun scanned
  have hbegun : FreshStep n at_ s begun ∧ begun.pendingCommit = false :=
    ⟨⟨rfl, rfl, rfl, rfl, rfl, rfl, rfl, rfl, rfl, rfl, rfl⟩, hpend⟩
  have hscanned : FreshStep n at_ s scanned ∧ scanned.pendingCommit = false := by
    unfold scanned
    split <;> exact hbegun
  split
  · exact hscanned.1
  · rw [applyPending_none hscanned.2]
    exact hscanned.1

theorem freshStep_dropLease {n at_ : Nat} {s t : State} (h : FreshStep n at_ s t) : FreshStep n at_ s (dropLease t) := by
  obtain ⟨w, hw⟩ := dropLease_power t
  rw [hw]
  exact h

theorem exec_stepStart_due {e : Env} {s₀ s : State} {n at_ : Nat} (hs : applyEnv e s₀ = s) (hf : flumeRuns s = true)
    (hfrozen : s.refill.frozen = false) (hdue : dueStart s = some (n, at_)) :
    exec (.stepStart e) s₀ = .next (dropLease (beginStep n at_ 0 s)) := by
  change execStepStart e s₀ = _
  simp [execStepStart, hs, hf, hfrozen, hdue]

/-- Settles O43: the step begins afresh, and what then looks at the lease leaves it so. -/
theorem stepBegins : Obligations.StepBegins := by
  unfold Obligations.StepBegins
  exact fun e s₀ s n at_ hs hf hfrozen hpend hdue =>
    ⟨_, exec_stepStart_due hs hf hfrozen hdue, freshStep_dropLease (freshStep_beginStep hpend)⟩

end Sys2Proof.Machine
end
section
/-! PROOF. Region declarations and the windows of the memory partition (R16, R47, R372): what a REGION_SET leaves, and its report. -/

namespace Sys2Proof.Machine

open Sys2Proof

/-! ### What a REGION_SET leaves alone -/

/-- The channels' caps are counted in registers and in the power link's record. -/
theorem countCapped_power (s : State) : ∃ w rs, countCapped s = { s with power := w, regs := rs } := by
  unfold countCapped
  generalize List.range 24 = l
  refine List.foldlRecOn (motive := fun t : State => ∃ w rs, t = { s with power := w, regs := rs }) l _ ⟨_, _, rfl⟩ fun t ht n _ => ?_
  obtain ⟨w, rs, rfl⟩ := ht
  split <;> exact ⟨_, _, rfl⟩

theorem charge_power (before : List Nat) (s : State) : ∃ w rs, charge before s = { s with power := w, regs := rs } := by
  unfold charge
  split
  · exact ⟨_, _, rfl⟩
  · exact countCapped_power _

/-- Only the declarations, and what hangs on a region's place, may differ: registers, the basin, the pond and the restore's offers. -/
def DeclaredOnly (s t : State) : Prop :=
  ∃ v rs b p o, t = { s with regions := v, regs := rs, basin := b, pond := p, restore := o }

theorem declaredOnly_setRegion {s t : State} (h : DeclaredOnly s t) (r base size : Nat) : DeclaredOnly s (setRegion r base size t) := by
  obtain ⟨_, _, _, _, _, rfl⟩ := h
  unfold setRegion
  split <;> exact ⟨_, _, _, _, _, rfl⟩

theorem declaredOnly_regionChanged {s t : State} (h : DeclaredOnly s t) (r : Nat) : DeclaredOnly s (regionChanged r t) := by
  obtain ⟨_, _, _, _, _, rfl⟩ := h
  unfold regionChanged
  split
  · exact ⟨_, _, _, _, _, rfl⟩
  · split
    · exact ⟨_, _, _, _, _, rfl⟩
    · split <;> exact ⟨_, _, _, _, _, rfl⟩

/-- What a changed region loses is no declaration. -/
theorem regions_regionChanged (r : Nat) (s : State) : (regionChanged r s).regions = s.regions := by
  unfold regionChanged
  split
  · rfl
  · split
    · rfl
    · split <;> rfl

/-! ### The declarations set -/

theorem length_indexed {α : Type} : ∀ (a : Nat) (l : List α), (indexed a l).length = l.length
  | _, [] => rfl
  | a, _ :: l => congrArg (· + 1) (length_indexed (a + 1) l)

theorem length_regionsAfter (s : State) (d : Desc) : (regionsAfter s d).length = 5 := by
  simp [regionsAfter, length_indexed]

theorem regions_setRegion {r : Nat} (h : r < 5) (base size : Nat) (s : State) :
    (setRegion r base size s).regions.toList = s.regions.toList.set r (base, size) := by
  rw [setRegion, dif_pos h]
  exact Vector.toList_set h

/-- Declarations set from a region up to the last replace the old ones from there on. -/
theorem regions_setFrom : ∀ (l : List (Nat × Nat)) (r : Nat) (s : State), r + l.length = 5 →
    ((indexed r l).foldl (fun s x => setRegion x.1 x.2.1 x.2.2 s) s).regions.toList = s.regions.toList.take r ++ l
  | [], r, s, h => by
    simp only [List.length_nil, Nat.add_zero] at h
    simp [indexed, h, List.take_of_length_le]
  | x :: l, r, s, h => by
    simp only [List.length_cons] at h
    have hlen : r < s.regions.toList.length := by simp; omega
    rw [indexed, List.foldl_cons, regions_setFrom l (r + 1) _ (by omega), regions_setRegion (by omega),
      List.take_succ_eq_append_getElem (by simpa using hlen), List.take_set_of_le (Nat.le_refl r)]
    simp

/-- The regions of a REGION_SET are in force at once, and nothing changes that does not hang on them. -/
theorem regions_applyRegions (d : Desc) (s : State) :
    (applyRegions d s).regions.toList = regionsAfter s d ∧ DeclaredOnly s (applyRegions d s) := by
  unfold applyRegions
  extract_lets new changed declared
  have hset : declared.regions.toList = new := by
    simpa using regions_setFrom new 0 s (by simpa using length_regionsAfter s d)
  have honly : DeclaredOnly s declared :=
    List.foldlRecOn (indexed 0 new) _ ⟨_, _, _, _, _, rfl⟩ fun t ht _ _ => declaredOnly_setRegion ht _ _ _
  clear_value declared changed
  refine List.foldlRecOn (motive := fun t : State => t.regions.toList = new ∧ DeclaredOnly s t) changed _ ⟨hset, honly⟩ fun t ht r _ => ?_
  obtain ⟨hregions, hdeclared⟩ := ht
  exact ⟨by rw [regions_regionChanged, hregions], declaredOnly_regionChanged hdeclared r⟩

/-! ### REGION_SET and the partition's report -/

section
variable {e : Env} {s₀ s : State} {q : Fin 16} {j : Nat} {d : Desc} (hs : applyEnv e s₀ = s) (hd : descAt s q j Op.regionSet d = true)
  (hwait : (s.regionWait.any fun w => w.1 = q ∧ w.2.1 = j) = false)
include hs hd hwait

/-- A REGION_SET that does not yet wait, as its function answers. -/
theorem exec_regionSet_new : exec (.regionSet e q j) s₀ = .next (charge (traffic s)
    (if planActive s || s.refill.frozen || s.restore.running || restoreRuns s then complete q d (refusedWith 0xE4) s
      else if !regionsOk s d then complete q d (refusedWith 0xE3) s
      else { applyRegions d s with regionWait := (applyRegions d s).regionWait ++ [(q, j, d.f 8 1 % 32, false)] })) := by
  change execRegionSet e q j s₀ = _
  rw [execRegionSet, hs, withDesc_descAt hd, hwait]
  rfl

theorem exec_regionSet_held (h : (planActive s || s.refill.frozen || s.restore.running || restoreRuns s) = true) :
    exec (.regionSet e q j) s₀ = .next (charge (traffic s) (complete q d (refusedWith 0xE4) s)) := by
  rw [exec_regionSet_new hs hd hwait, if_pos h]

theorem exec_regionSet_bad (h : (planActive s || s.refill.frozen || s.restore.running || restoreRuns s) = false) (hbad : regionsOk s d = false) :
    exec (.regionSet e q j) s₀ = .next (charge (traffic s) (complete q d (refusedWith 0xE3) s)) := by
  rw [exec_regionSet_new hs hd hwait, h, hbad]
  rfl

theorem exec_regionSet_applied (h : (planActive s || s.refill.frozen || s.restore.running || restoreRuns s) = false)
    (hok : regionsOk s d = true) : NextWith (exec (.regionSet e q j) s₀) fun t =>
      t.regions.toList = regionsAfter s d ∧ t.windows = s.windows ∧ t.regionWait = s.regionWait ++ [(q, j, d.f 8 1 % 32, false)] ∧
        t.rings = s.rings ∧ t.hbm = s.hbm ∧ t.hostMem = s.hostMem := by
  refine ⟨_, exec_regionSet_new hs hd hwait, ?_⟩
  rw [h, hok]
  obtain ⟨hregions, v, rs, b, p, o, happlied⟩ := regions_applyRegions d s
  obtain ⟨w, rs', hcharged⟩ := charge_power (traffic s)
    { applyRegions d s with regionWait := (applyRegions d s).regionWait ++ [(q, j, d.f 8 1 % 32, false)] }
  rw [happlied] at hregions hcharged
  simp only [happlied, Bool.false_eq_true, if_false, Bool.not_true]
  rw [hcharged]
  exact ⟨hregions, rfl, rfl, rfl, rfl, rfl⟩

end

/-- The partition's windows as reported, and every descriptor that waits for them told so. -/
def windowsTold (s : State) : State :=
  { s with windows := s.regions, regionWait := s.regionWait.map fun w => (w.1, w.2.1, w.2.2.1, true) }

theorem exec_partitionWindowsReport_up {e : Env} {s₀ s : State} (hs : applyEnv e s₀ = s) (hf : flumeRuns s = true) :
    exec (.partitionWindowsReport e) s₀ = .next (if controllersRun s then finishRegions (windowsTold s) else windowsTold s) := by
  change execPartitionWindowsReport e s₀ = _
  simp only [execPartitionWindowsReport, hs, hf]
  rfl

/-- With its report the one descriptor that waits completes with its mask and the sum of the sizes. -/
theorem finishRegions_windowsTold {s : State} {q : Fin 16} {j mask : Nat} {r : Bool} {d : Desc} (hw : s.regionWait = [(q, j, mask, r)])
    (hd : runningAt s q j = some d) : finishRegions (windowsTold s) =
      complete q d { word := mask, quad := sumOf (s.regions.toList.map fun x => x.2) } { windowsTold s with regionWait := [] } := by
  have hd' : runningAt { windowsTold s with regionWait := [] } q j = some d := hd
  have hw' : (windowsTold s).regionWait = [(q, j, mask, true)] := by simp [windowsTold, hw]
  simp [finishRegions, hw', hd']
  rfl

/-- Settles O18: the branches of the REGION_SET's function, and the report of the partition. -/
theorem regionSetAndReport : Obligations.RegionSetAndReport := by
  unfold Obligations.RegionSetAndReport
  refine ⟨fun e s₀ s q j d hs hd hwait => ⟨fun hplan hfrozen hrestore hruns => ?_, fun hheld => ?_⟩, fun e s₀ s hs hf => ⟨?_, ?_⟩⟩
  · have hfree : (planActive s || s.refill.frozen || s.restore.running || restoreRuns s) = false := by simp [hplan, hfrozen, hrestore, hruns]
    exact ⟨exec_regionSet_applied hs hd hwait hfree, exec_regionSet_bad hs hd hwait hfree⟩
  · exact exec_regionSet_held hs hd hwait (by simpa [or_assoc] using hheld)
  · intro q j mask r d hc hw hd
    rw [exec_partitionWindowsReport_up hs hf, if_pos hc]
    exact congrArg Host.Outcome.next (finishRegions_windowsTold hw hd)
  · intro hc
    rw [exec_partitionWindowsReport_up hs hf, hc]
    rfl

end Sys2Proof.Machine
end
section
/-! PROOF. The packets and the ends of the completeness agreement (R204 to R207). -/

namespace Sys2Proof.Machine

open Sys2Proof

/-! ### Payload lengths (R203) -/

theorem length_leBytes : ∀ (n v : Nat), (le n v).length = n
  | 0, _ => rfl
  | n + 1, v => congrArg (· + 1) (length_leBytes n (v / 256))

theorem length_contributionBytes (k : Contribution) : (contributionBytes k).length = 32 := by
  simp [contributionBytes, length_leBytes, zeros]

theorem length_verdictBytes (v : Verdict) : (verdictBytes v).length = 32 := by
  simp [verdictBytes, length_leBytes, zeros]

/-! ### Contributions -/

theorem exec_agreementContribution_delivered {e : Env} {s₀ s : State} {h : PktHead} (hs : applyEnv e s₀ = s)
    (hd : delivered s h 1 60 32 = true) (k : Contribution) :
    exec (.agreementContribution e h k) s₀ = .next (takeContribution h.sender k s) := by
  change execAgreementContribution e h k s₀ = _
  rw [execAgreementContribution, hs, length_contributionBytes, receive_delivered hd]

/-- A child's contribution, before this chip's own has gone, in no step run again. -/
theorem takeContribution_child {s : State} {c : Coord} (hkid : (agreeKids s).contains c = true) (hsent : s.agree.ownSent = false)
    (hrel : s.step.released = false) (k : Contribution) :
    takeContribution c k s = pumpAgree false { s with agree.kids := putKey c k s.agree.kids } := by
  unfold takeContribution
  rw [if_neg (by rw [hkid, hsent]; decide), hrel, Bool.and_false]
  rfl

theorem takeContribution_other {s : State} {c : Coord} (h : (agreeKids s).contains c = false ∨ s.agree.ownSent = true) (k : Contribution) :
    takeContribution c k s = s := by
  unfold takeContribution
  exact if_pos (by rcases h with h | h <;> simp only [h, Bool.not_false, Bool.true_or, Bool.or_true])

/-! ### Verdicts -/

theorem exec_agreeVerdict_delivered {e : Env} {s₀ s : State} {h : PktHead} (hs : applyEnv e s₀ = s) (hd : delivered s h 7 60 32 = true)
    (v : Verdict) : exec (.agreeVerdict e h v) s₀ = .next (dropLease (takeVerdict v s)) := by
  change execAgreeVerdict e h v s₀ = _
  rw [execAgreeVerdict, hs, length_verdictBytes, receive_delivered hd]

section
variable {v : Verdict} {s : State}

theorem takeVerdict_otherStep (h : v.step ≠ stepNum s) : takeVerdict v s = s := by simp [takeVerdict, h]

theorem takeVerdict_committed (h : v.step = stepNum s) (hv : v.verdict = 0) :
    takeVerdict v s = commitStep v.commitAt true { s with agree.verdict := some v } := by simp [takeVerdict, h, hv]

theorem takeVerdict_incomplete (h : v.step = stepNum s) (hv : v.verdict = 1) (hnone : s.agree.verdict = none) :
    takeVerdict v s = reportIncomplete v.firstInc { s with agree.verdict := some v } := by simp [takeVerdict, h, hv, hnone]

/-- A catch-up for the step in flight, one above the last that committed. -/
theorem takeVerdict_catchUp (hv : v.verdict = 2) (h : v.step = stepNum s) (hbehind : committedWord s + 1 = v.step) :
    takeVerdict v s = commitStep v.commitAt false s := by
  rw [takeVerdict, if_pos hv, if_pos ⟨h, .inr hbehind⟩]

end

/-! ### The ends -/

theorem exec_commitCutoff_up {e : Env} {s₀ s : State} (hs : applyEnv e s₀ = s) (hf : flumeRuns s = true) :
    exec (.commitCutoff e) s₀ = .next (if agreeCutoff s ≤ s.ht then pumpAgree true s else s) := by
  change execCommitCutoff e s₀ = _
  simp [execCommitCutoff, hs, hf]

theorem exec_commitRootTimeout_due {e : Env} {s₀ s : State} (hs : applyEnv e s₀ = s) (hf : flumeRuns s = true) (hopen : s.agree.open_ = true)
    (hroot : agreeParent s = none) (hsent : s.agree.verdictSent = false) (hfrozen : s.refill.frozen = false)
    (hdue : s.agree.endAt - (hopOf s - 4000) ≤ s.ht) : exec (.commitRootTimeout e) s₀ = .next (sendIncomplete s) := by
  change execCommitRootTimeout e s₀ = _
  simp only [execCommitRootTimeout, hs, hf, hopen, hroot, hsent, hfrozen, hdue]
  rfl

/-- Settles O37: a delivered packet is its function, whose branches are the cases of the statement. -/
theorem agreementPackets : Obligations.AgreementPackets := by
  unfold Obligations.AgreementPackets
  refine ⟨fun e s₀ s h k hs hd => ?_, fun e s₀ s h v hs hd => ?_, fun e s₀ s hs hf => ?_,
    fun e s₀ s hs hf hopen hroot hsent hfrozen hdue => exec_commitRootTimeout_due hs hf hopen hroot hsent hfrozen hdue⟩
  · rw [exec_agreementContribution_delivered hs hd]
    exact ⟨fun hkid hsent hrel => by rw [takeContribution_child hkid hsent hrel], fun hother => by rw [takeContribution_other hother]⟩
  · rw [exec_agreeVerdict_delivered hs hd]
    exact ⟨fun h hv => by rw [takeVerdict_committed h hv], fun h hv hnone => by rw [takeVerdict_incomplete h hv hnone],
      fun hv h hbehind => by rw [takeVerdict_catchUp hv h hbehind], fun h => by rw [takeVerdict_otherStep h]⟩
  · rw [exec_commitCutoff_up hs hf]
    exact ⟨fun hdue => by rw [if_pos hdue], fun hearly => by rw [if_neg (Nat.not_le.2 hearly)]⟩

end Sys2Proof.Machine
end

section
/-! PROOF. Stores into the windows of the mirrored inputs and of a refill (R26, R217, R223, R232, R240). -/

namespace Sys2Proof.Machine

open Sys2Proof

/-! ### Mirrored inputs -/

/-- A delivered mirrored input under an active plan is stored; where it ends its half, that half's step counts as mirrored. -/
theorem exec_mirroredInputStore_delivered {e : Env} {s₀ s : State} {h : PktHead} {bs : Bytes} {p : Plan} (hs : applyEnv e s₀ = s)
    (hd : delivered s h 1 47 bs.length = true) (hp : s.plans.active = some p) :
    exec (.mirroredInputStore e h bs) s₀ = .next (takeMirror p h.offset bs s) := by
  change execMirroredInputStore e h bs s₀ = _
  rw [execMirroredInputStore, hs, receive_delivered hd, hp]

/-! ### Windows of a refill -/

/-- A packet of a refill's window counted (R243). -/
def withBytes (n : Nat) (s : State) : State := { s with refill.bytes := s.refill.bytes + n }

theorem refillPacket_delivered {h : PktHead} {w len : Nat} {s : State} (hd : delivered s h 1 w len = true) (go : State → State) :
    refillPacket h w len go s = go (withBytes len s) := by
  rw [refillPacket, receive_delivered hd]
  rfl

theorem exec_refillPlotStore_delivered {e : Env} {s₀ s : State} {h : PktHead} {bs : Bytes} (hs : applyEnv e s₀ = s)
    (hd : delivered s h 1 52 bs.length = true) :
    exec (.refillPlotStore e h bs) s₀ = .next (takePlot h.offset bs (withBytes bs.length s)) := by
  change execRefillPlotStore e h bs s₀ = _
  rw [execRefillPlotStore, hs, refillPacket_delivered hd]

/-- The pages of a chunk that a spare has got, with one more. -/
def gotPage (c n : Nat) (s : State) : State :=
  { s with refill.gotPages := putKey c (getKey c 0 s.refill.gotPages ||| BitVec.ofNat 16 (2 ^ n)) s.refill.gotPages }

section
variable {s : State} {off : Nat} {bs : Bytes}

theorem takePlot_noSpare (h : s.refill.isSpare = false) : takePlot off bs s = s := by simp [takePlot, h]

/-- A whole page at a frozen spare is placed and noted; in replicated mode a chunk got whole is classed at once. -/
theorem takePlot_frozen (hspare : s.refill.isSpare = true) (hfrozen : s.refill.frozen = true) (hoff : off % 4096 = 0)
    (hlen : bs.length = 4096) : takePlot off bs s =
      let got := gotPage (off / 65536) (off % 65536 / 4096) (storeBytes 0 (plotBase s + off) bs s)
      if !codedMode got && chunkGot got (off / 65536) then judgeSpare (noteClass (off / 65536) 1 0 true got) else got := by
  simp only [takePlot, hspare, hfrozen, hoff, hlen]
  rfl

/-- In a recovery run a whole page at a spare is a peer's copy. -/
theorem takePlot_recovery (hspare : s.refill.isSpare = true) (hfrozen : s.refill.frozen = false) (hrec : s.step.recoveryAt.isSome = true)
    (hoff : off % 4096 = 0) (hlen : bs.length = 4096) : takePlot off bs s =
      poke { s with refill.copies := (s.refill.copies.filter fun x => !(x.1 = off / 65536 ∧ x.2.1 = off % 65536 / 4096)) ++
        [(off / 65536, off % 65536 / 4096, bs)] } := by
  simp [takePlot, hspare, hfrozen, hrec, hoff, hlen]

end

theorem exec_refillCisternStore_delivered {e : Env} {s₀ s : State} {h : PktHead} {bs : Bytes} (hs : applyEnv e s₀ = s)
    (hd : delivered s h 1 53 bs.length = true) :
    exec (.refillCisternStore e h bs) s₀ = .next (takeCistern h.sender h.offset bs (withBytes bs.length s)) := by
  change execRefillCisternStore e h bs s₀ = _
  rw [execRefillCisternStore, hs, refillPacket_delivered hd]

section
variable {e : Env} {s₀ s : State} {h : PktHead} {bs : Bytes} (hs : applyEnv e s₀ = s) (hd : delivered s h 1 54 bs.length = true)
include hs hd

/-- A whole page of a chain joins the pages that wait for their record. -/
theorem exec_chainPages_whole (hoff : h.offset % 4096 = 0) (hlen : bs.length = 4096) : exec (.chainPages e h bs) s₀ = .next { s with
      refill.bytes := s.refill.bytes + 4096,
      refill.chainBuf := (s.refill.chainBuf.filter fun b => !(b.1 = (h.sender, h.offset / 65536) ∧ b.2.1 = h.offset % 65536 / 4096)) ++
        [((h.sender, h.offset / 65536), h.offset % 65536 / 4096, bs)] } := by
  change execChainPages e h bs s₀ = _
  rw [execChainPages, hs, refillPacket_delivered hd, if_neg (by rw [hoff, hlen]; decide), hlen]
  rfl

theorem exec_chainPages_part (h' : h.offset % 4096 ≠ 0 ∨ bs.length ≠ 4096) :
    exec (.chainPages e h bs) s₀ = .next (withBytes bs.length s) := by
  change execChainPages e h bs s₀ = _
  rw [execChainPages, hs, refillPacket_delivered hd, if_pos h']

end

section
variable {e : Env} {s₀ s : State} {h : PktHead} {bs : Bytes} (hs : applyEnv e s₀ = s) (hd : delivered s h 1 56 bs.length = true)
include hs hd

theorem exec_bankShareStore_other (h' : h.offset % 4096 ≠ 0 ∨ bs.length ≠ 4096 ∨ isAbsent s (h.offset / 65536) = false) :
    exec (.bankShareStore e h bs) s₀ = .next (withBytes bs.length s) := by
  change execBankShareStore e h bs s₀ = _
  rw [execBankShareStore, hs, refillPacket_delivered hd]
  have hother : (!isAbsent (withBytes bs.length s) (h.offset / 65536)) = true ∨ h.offset % 4096 ≠ 0 ∨ bs.length ≠ 4096 := by
    rcases h' with h' | h' | h'
    · exact .inr (.inl h')
    · exact .inr (.inr h')
    · exact .inl (by rw [Bool.not_eq_true']; exact h')
  exact congrArg Host.Outcome.next (if_pos hother)

/-- A whole page of an absent slot is written; with the last of its sixteen the slot is placed. -/
theorem exec_bankShareStore_absent (hoff : h.offset % 4096 = 0) (hlen : bs.length = 4096) (habsent : isAbsent s (h.offset / 65536) = true) :
    exec (.bankShareStore e h bs) s₀ =
      let b := withBytes bs.length s
      let u := storePages 1 1 (bankAddr b (h.offset / 65536) (h.offset % 65536 / 4096)) bs b
      let got := getKey (h.offset / 65536) 0 u.refill.bankGot ||| BitVec.ofNat 16 (2 ^ (h.offset % 65536 / 4096))
      .next (if got = 0xFFFF#16 then
          placeSlot (h.offset / 65536) { u with refill.bankGot := u.refill.bankGot.filter fun x => x.1 ≠ h.offset / 65536 }
        else { u with refill.bankGot := putKey (h.offset / 65536) got u.refill.bankGot }) := by
  change execBankShareStore e h bs s₀ = _
  rw [execBankShareStore, hs, refillPacket_delivered hd]
  have habsent' : isAbsent (withBytes bs.length s) (h.offset / 65536) = true := habsent
  have hwhole : ¬ ((!isAbsent (withBytes bs.length s) (h.offset / 65536)) = true ∨ h.offset % 4096 ≠ 0 ∨ bs.length ≠ 4096) := by
    rw [habsent', hoff, hlen]
    decide
  exact congrArg Host.Outcome.next (if_neg hwhole)

end

/-- Settles O51: window by window, a delivered packet is its function on the state with its bytes counted. -/
theorem windowStores : Obligations.WindowStores := by
  unfold Obligations.WindowStores
  refine ⟨fun e s₀ s h bs p hs hd hp => ?_, fun e s₀ s h bs hs hd => ?_, fun e s₀ s h bs hs hd => exec_refillCisternStore_delivered hs hd,
    fun e s₀ s h bs hs hd => ⟨exec_chainPages_whole hs hd, exec_chainPages_part hs hd⟩, fun e s₀ s h bs hs hd => ?_⟩
  · rw [exec_mirroredInputStore_delivered hs hd hp]
    exact ⟨fun hmid => congrArg Host.Outcome.next (if_neg hmid), fun hend => congrArg Host.Outcome.next (if_pos hend)⟩
  · rw [exec_refillPlotStore_delivered hs hd]
    refine ⟨fun hspare => ?_, fun hspare hfrozen hoff hlen => ?_, fun hspare hfrozen hrec hoff hlen => ?_⟩
    · exact congrArg Host.Outcome.next (takePlot_noSpare hspare)
    · exact congrArg Host.Outcome.next (takePlot_frozen hspare hfrozen hoff hlen)
    · exact congrArg Host.Outcome.next (takePlot_recovery hspare hfrozen hrec hoff hlen)
  · refine ⟨fun hoff hlen habsent => ?_, exec_bankShareStore_other hs hd⟩
    rw [exec_bankShareStore_absent hs hd hoff hlen habsent]
    exact ⟨fun hmore => congrArg Host.Outcome.next (if_neg hmore), fun hlast => congrArg Host.Outcome.next (if_pos hlast)⟩

end Sys2Proof.Machine
end
section
/-! PROOF. Ends of turns (R26, R29, R88, R91, R94, R99, R199): work complete, planned end, and the wait that ends with COMMIT. -/

namespace Sys2Proof.Machine

open Sys2Proof

/-! ### What a report leaves alone (R364 to R366) -/

/-- Only what a report, an event or a count writes may differ: host memory, the rings, registers, messages and the culvert's queue. -/
def Reported (s t : State) : Prop :=
  ∃ m r rs x c, t = { s with hostMem := m, rings := r, regs := rs, msix := x, culvert := c }

theorem reported_refl (s : State) : Reported s s := ⟨_, _, _, _, _, rfl⟩

theorem Reported.step {s t : State} (h : Reported s t) : t.step = s.step := by
  obtain ⟨_, _, _, _, _, rfl⟩ := h
  rfl

theorem Reported.red {s t : State} (h : Reported s t) : t.red = s.red := by
  obtain ⟨_, _, _, _, _, rfl⟩ := h
  rfl

section
variable {s t : State} (h : Reported s t)
include h

theorem reported_hostWrite (a : Nat) (bs : Bytes) : Reported s (hostWrite a bs t) := by
  obtain ⟨_, _, _, _, _, rfl⟩ := h
  exact ⟨_, _, _, _, _, rfl⟩

theorem reported_setRing (q : Fin 16) (r : Ring) : Reported s (setRing q r t) := by
  obtain ⟨_, _, _, _, _, rfl⟩ := h
  exact ⟨_, _, _, _, _, rfl⟩

theorem reported_count (off n : Nat) : Reported s (count off n t) := by
  obtain ⟨_, _, _, _, _, rfl⟩ := h
  exact ⟨_, _, _, _, _, rfl⟩

theorem reported_msix (x : List (Fin 16 × Nat × Nat)) : Reported s { t with msix := x } := by
  obtain ⟨_, _, _, _, _, rfl⟩ := h
  exact ⟨_, _, _, _, _, rfl⟩

theorem reported_event (code status cause : Nat) (detail : Bytes) : Reported s (event code status cause detail t) := by
  obtain ⟨_, _, _, _, _, rfl⟩ := h
  unfold event
  split <;> exact ⟨_, _, _, _, _, rfl⟩

theorem reported_dueMsix (q : Fin 16) : Reported s (dueMsix q t) := by
  unfold dueMsix
  extract_lets r irq quiet
  split
  · exact reported_msix (reported_setRing h q _) _
  · exact reported_setRing h q _

theorem reported_putSlots (q : Fin 16) : ∀ (l : List Bytes) (j : Nat) (cont : Bool), Reported s (putSlots q j cont l t)
  | [], _, _ => h
  | _ :: l, j, _ => reported_hostWrite (reported_putSlots q l (idxAdd j 1) true) _ _

theorem reported_putRecord (q : Fin 16) (slots : List Bytes) : Reported s (putRecord q slots t) :=
  reported_hostWrite (reported_setRing (reported_putSlots h q slots _ false) q _) _ _

theorem reported_flushLost (q : Fin 16) : Reported s (flushLost q t) := by
  unfold flushLost
  dsimp only
  split
  · exact reported_dueMsix (reported_setRing (reported_putRecord h q _) q _) q
  · exact h

theorem reported_report (q : Fin 16) (slots : List Bytes) (isEvent : Bool) : Reported s (report q slots isEvent t) := by
  have hflushed := reported_flushLost h q
  unfold report
  dsimp only
  split
  · split
    · exact reported_dueMsix (reported_putRecord hflushed q slots) q
    · exact reported_putRecord hflushed q slots
  · exact reported_count (reported_setRing hflushed q _) _ 1

theorem reported_reportColl (p : Plan) (c : Nat × CollEntry) (f : CollFinding) : Reported s (reportColl p c f t) := by
  unfold reportColl
  dsimp only
  split
  · exact h
  · split
    · exact reported_count (reported_report h _ _ _) _ 1
    · exact reported_event (reported_report h _ _ _) _ _ _ _

end

/-! ### A CHECK that fails (R29, R91, R94) -/

/-- The collective records are reports: from a CHECK that has started they leave the step and the reduction's start as they are. -/
theorem reportColls_kept (p : Plan) {s : State} (h : s.red.checkStarted = true) :
    (reportColls p s).step = s.step ∧ (reportColls p s).red.checkStarted = true := by
  unfold reportColls
  split
  · exact ⟨rfl, h⟩
  · extract_lets red found
    have hreported : ∀ {t}, Reported t (found.foldl (fun s cf => reportColl p cf.1 cf.2 s) t) := fun {t} =>
      List.foldlRecOn found _ (reported_refl t) fun u hu cf _ => reported_reportColl hu p cf.1 cf.2
    exact ⟨hreported.step, by rw [hreported.red]⟩

theorem failCheck_fails (s : State) : (failCheck s).step.check = 2 ∧ (failCheck s).red.checkStarted = true := by
  unfold failCheck
  extract_lets step red failed
  split
  · split
    · obtain ⟨hstep, hred⟩ := reportColls_kept _ (s := failed) rfl
      exact ⟨by rw [hstep], hred⟩
    · exact ⟨rfl, rfl⟩
  · exact ⟨rfl, rfl⟩

/-! ### Work complete (R99) -/

theorem exec_turnWorkComplete_running {e : Env} {s₀ s : State} (hs : applyEnv e s₀ = s) {i : Nat} {r : TurnRun}
    (hr : ((runningTurns s).find? fun r => r.idx = i) = some r) (energy : Nat) :
    exec (.turnWorkComplete e i energy) s₀ =
      .next (if controllersRun s && workDone s r then actOnRequest (finishRun r energy s) else s) := by
  change execTurnWorkComplete e i energy s₀ = _
  simp only [execTurnWorkComplete, hs, hr]

/-! ### Planned end (R26, R88, R94) -/

/-- A run that still waits at its planned end, evaluated a last time. -/
def lastLook (q : Planned) (s : State) : State :=
  match runOf s q.idx q.step with
  | some r => if r.phase = 0 then passTurn q (evalTurn r s) else s
  | none => s

/-- A mirror that has not come stands in the list of missing ones. -/
def markMissing (q : Planned) (s : State) : State :=
  if s.step.mirrorGot.contains q.step then s else { s with step.mirrorMissing := unionIdx s.step.mirrorMissing [q.step] }

/-- A CHECK not settled fails. -/
def failUnsettled (s : State) : State := if s.step.check = 0 then failCheck s else s

section
variable {e : Env} {s₀ s : State} (hs : applyEnv e s₀ = s) {i : Nat} {q : Planned}
  (hf : flumeRuns s = true) (hfrozen : s.refill.frozen = false)
  (hq : ((plannedTurns s).find? fun q => q.idx = i ∧ q.startAt + q.entry.duration ≤ s.ht) = some q)
include hs hf hfrozen hq

theorem exec_turnPlannedEnd_due : exec (.turnPlannedEnd e i) s₀ =
    .next (dropLease (
      let marked := if q.entry.kind = Kind.mirror ∧ !(lastLook q s).step.mirrorGot.contains q.step then
        { lastLook q s with step.mirrorMissing := unionIdx (lastLook q s).step.mirrorMissing [q.step] } else lastLook q s
      if q.entry.kind = Kind.check ∧ marked.step.check = 0 then failCheck marked else marked)) := by
  change execTurnPlannedEnd e i s₀ = _
  unfold execTurnPlannedEnd
  rw [hs]
  dsimp only
  rw [if_neg (by rw [hf, hfrozen]; decide), hq]
  rfl

theorem exec_turnPlannedEnd_mirror (hk : q.entry.kind = Kind.mirror) :
    exec (.turnPlannedEnd e i) s₀ = .next (dropLease (markMissing q (lastLook q s))) := by
  rw [exec_turnPlannedEnd_due hs hf hfrozen hq, hk]
  unfold markMissing
  cases hgot : (lastLook q s).step.mirrorGot.contains q.step <;> simp [Kind.mirror, Kind.check]

theorem exec_turnPlannedEnd_check (hk : q.entry.kind = Kind.check) :
    exec (.turnPlannedEnd e i) s₀ = .next (dropLease (failUnsettled (lastLook q s))) := by
  rw [exec_turnPlannedEnd_due hs hf hfrozen hq, hk]
  simp [failUnsettled, Kind.mirror, Kind.check]

theorem exec_turnPlannedEnd_other (hm : q.entry.kind ≠ Kind.mirror) (hc : q.entry.kind ≠ Kind.check) :
    exec (.turnPlannedEnd e i) s₀ = .next (dropLease (lastLook q s)) := by
  rw [exec_turnPlannedEnd_due hs hf hfrozen hq]
  simp [hm, hc]

end

/-! ### The wait that ends with COMMIT (R199) -/

/-- A wait of the update unit on undo room, or of a queue on a relay limit. -/
def waitsAtCommit (s : State) : Bool := (s.upd.started && !s.step.updDone && s.upd.waiting) || !s.basin.queue.isEmpty

theorem waitsAtCommit_iff (s : State) : waitsAtCommit s = true ↔
    (s.upd.started = true ∧ s.step.updDone = false ∧ s.upd.waiting = true) ∨ s.basin.queue ≠ [] := by
  simp [waitsAtCommit, and_assoc]

/-- The update unit and the queues stopped with what they hold. -/
def stopUpdate (s : State) : State := { s with upd.started := s.upd.started && s.step.updDone, basin.stopped := true }

/-- The UPDATE turn of the step in flight that was accepted, its work running or over. -/
def updateRun (s : State) : Option TurnRun :=
  s.step.turns.find? fun r => r.kind = Kind.update ∧ r.step = stepNum s ∧ (r.phase = 1 ∨ r.phase = 2)

theorem exec_updateWaitTimeout_noWait {e : Env} {s₀ s : State} (hs : applyEnv e s₀ = s) (energy : Nat) (hw : waitsAtCommit s = false) :
    exec (.updateWaitTimeout e energy) s₀ = .next s := by
  change execUpdateWaitTimeout e energy s₀ = _
  unfold execUpdateWaitTimeout
  rw [hs]
  dsimp only
  rw [if_pos]
  change (!(_ && waitsAtCommit s) || _) = true
  rw [hw, Bool.and_false]
  rfl

theorem exec_updateWaitTimeout_waits {e : Env} {s₀ s : State} (hs : applyEnv e s₀ = s) (hf : flumeRuns s = true)
    (hfrozen : s.refill.frozen = false)
    (hended : ((plannedTurns s).any fun q => q.entry.kind = Kind.commit && decide (q.startAt + q.entry.duration ≤ s.ht)) = true)
    (hstopped : s.basin.stopped = false) (energy : Nat) (hw : waitsAtCommit s = true) : exec (.updateWaitTimeout e energy) s₀ =
    match updateRun s with
    | some r => .next (if r.phase = 1 then finishRun r energy (stopUpdate s) else lateRun r (stopUpdate s))
    | none => .next (stopUpdate s) := by
  change execUpdateWaitTimeout e energy s₀ = _
  unfold execUpdateWaitTimeout
  rw [hs]
  dsimp only
  rw [if_neg]
  · rfl
  · change ¬ (!(flumeRuns s && !s.refill.frozen && _ && waitsAtCommit s) || s.basin.stopped) = true
    rw [hf, hfrozen, hended, hw, hstopped]
    decide

/-- Settles O45: each command by its branches, a failed CHECK by what its reports leave. -/
theorem endsOfTurns : Obligations.EndsOfTurns := by
  unfold Obligations.EndsOfTurns
  refine ⟨fun e s₀ s i energy r hs hr => ?_, fun e s₀ s i q hs hf hfrozen hq => ?_, failCheck_fails,
    fun e s₀ s energy hs hf hfrozen hended hstopped => ⟨fun hw => ?_, fun hw => ?_⟩⟩
  · rw [exec_turnWorkComplete_running hs hr]
    exact ⟨fun hc hdone => by rw [hc, hdone]; rfl, fun hnot => by rcases hnot with h | h <;> simp [h]⟩
  · exact ⟨exec_turnPlannedEnd_mirror hs hf hfrozen hq, exec_turnPlannedEnd_check hs hf hfrozen hq,
      exec_turnPlannedEnd_other hs hf hfrozen hq⟩
  · rw [exec_updateWaitTimeout_waits hs hf hfrozen hended hstopped energy ((waitsAtCommit_iff s).2 hw)]
    refine ⟨fun r hr hphase => ?_, fun r hr hphase => ?_, fun hr => ?_⟩
    · rw [updateRun, hr]
      exact congrArg Host.Outcome.next (if_pos hphase)
    · rw [updateRun, hr]
      exact congrArg Host.Outcome.next (if_neg hphase)
    · rw [updateRun, hr]
      rfl
  · exact exec_updateWaitTimeout_noWait hs energy (Bool.eq_false_iff.2 fun h => hw ((waitsAtCommit_iff s).1 h))

end Sys2Proof.Machine
end
section
/-! PROOF. The deferred message and the host access error (R59, R366, R369): what a report stores in the registers, and a ring's halt. -/

namespace Sys2Proof.Machine

open Sys2Proof

/-! ### The registers that a report stores (R365, R366) -/

theorem dueMsix_regs (q : Fin 16) (s : State) : (dueMsix q s).regs = s.regs := by
  unfold dueMsix
  extract_lets r irq quiet
  split <;> rfl

theorem putSlots_regs (q : Fin 16) : ∀ (l : List Bytes) (j : Nat) (cont : Bool) (s : State), (putSlots q j cont l s).regs = s.regs
  | [], _, _, _ => rfl
  | _ :: l, j, _, s => putSlots_regs q l (idxAdd j 1) true s

theorem putRecord_regs (q : Fin 16) (slots : List Bytes) (s : State) : (putRecord q slots s).regs = s.regs :=
  putSlots_regs q slots _ false s

theorem flushLost_regs (q : Fin 16) (s : State) : (flushLost q s).regs = s.regs := by
  unfold flushLost
  dsimp only
  split
  · rw [dueMsix_regs, setRing_regs, putRecord_regs]
  · rfl

theorem regGet_of_regs {s t : State} (h : t.regs = s.regs) (o : Nat) : regGet t o = regGet s o := by rw [regGet, h, regGet]

/-- Of the registers a report stores the count of reports lost at most. -/
theorem regsKept_report (q : Fin 16) (slots : List Bytes) (isEvent : Bool) (s : State) :
    RegsKept [ringReg q Reg.ringLost] s (report q slots isEvent s) := by
  intro o ho
  have hflushed := regGet_of_regs (flushLost_regs q s) o
  unfold report
  dsimp only
  split
  · refine (regGet_of_regs ?_ o).trans hflushed
    split
    · rw [dueMsix_regs, putRecord_regs]
    · exact putRecord_regs ..
  · exact (regGet_regSet_other (by simpa using ho) _ _).trans hflushed

/-! ### A halt (R369) -/

theorem haltRing_of_halted {q : Fin 16} {s : State} (h : (ringOf s q).halted = true) (cause addr : Nat) : haltRing q cause addr s = s := by
  rw [haltRing, if_pos h]

/-- What a halt leaves of the ring, once its event is reported. -/
def haltAfter (q : Fin 16) (cause : Nat) (s : State) : State :=
  flagEvent 4 (count (ringReg q Reg.ringHalts) 1 (setRing q { (ringOf s q).stopped with halted := true, cause := cause } s))

/-- A ring that is not halted is halted after its event, where the cause has one. -/
theorem haltRing_of_running {q : Fin 16} {s : State} (h : (ringOf s q).halted = false) (cause addr : Nat) :
    ∃ u, Reported s u ∧ RegsKept [ringReg q Reg.ringLost] s u ∧ haltRing q cause addr s = haltAfter q cause u := by
  unfold haltRing
  rw [h]
  by_cases hc : cause = 4
  · exact ⟨s, reported_refl s, fun _ _ => rfl, by rw [if_pos hc]; rfl⟩
  · exact ⟨_, reported_report (reported_refl s) q _ true, regsKept_report q _ true s, by rw [if_neg hc]; rfl⟩

theorem ringOf_haltAfter (q : Fin 16) (cause : Nat) (s : State) :
    ringOf (haltAfter q cause s) q = { (ringOf s q).stopped with halted := true, cause := cause } :=
  ringOf_setRing_same q _ s

theorem ringHalts_ne_events (q : Fin 16) : ringReg q Reg.ringHalts ≠ Reg.events :=
  Nat.ne_of_gt (Nat.lt_of_lt_of_le (by decide) (ringCtrl_le_ringReg (by decide) q))

theorem ringHalts_ne_ringLost (q : Fin 16) : ringReg q Reg.ringHalts ≠ ringReg q Reg.ringLost :=
  fun h => absurd (Nat.add_right_cancel h) (by decide)

/-- A counter counts one up, to its end. -/
theorem regNat_count_one (off : Nat) (s : State) : regNat (count off 1 s) off = min (regNat s off + 1) 0xFFFFFFFF := regNat_count_same off 1 s

/-- A counter that is not OSE_EVENTS, counted and flagged there. -/
theorem regNat_flagEvent_count {off : Nat} (h : off ≠ Reg.events) (n : Nat) (s : State) :
    regNat (flagEvent n (count off 1 s)) off = min (regNat s off + 1) 0xFFFFFFFF := by
  rw [flagEvent, regOr, regNat_regPut_other h, regNat_count_one]

theorem ringHalts_haltAfter (q : Fin 16) (cause : Nat) (s : State) : regNat (haltAfter q cause s) (ringReg q Reg.ringHalts) =
    min (regNat s (ringReg q Reg.ringHalts) + 1) 0xFFFFFFFF :=
  regNat_flagEvent_count (ringHalts_ne_events q) 4 _

theorem Reported.memories {s t : State} (h : Reported s t) : t.hbm = s.hbm ∧ t.flash = s.flash := by
  obtain ⟨_, _, _, _, _, rfl⟩ := h
  exact ⟨rfl, rfl⟩

/-! ### The slots' registers brought up to date (R285) -/

theorem regNat_refreshSlots {o : Nat} (h : o ≠ Reg.snapSeq) (h' : o ≠ Reg.snapSlotState) (s : State) :
    regNat (refreshSlots s) o = regNat s o :=
  (regNat_regPut_other h _ _).trans (regNat_regPut_other h' _ _)

theorem ringOf_refreshSlots (s : State) (q : Fin 16) : ringOf (refreshSlots s) q = ringOf s q := rfl

theorem ringHalts_refreshSlots (s : State) (q : Fin 16) :
    regNat (refreshSlots s) (ringReg q Reg.ringHalts) = regNat s (ringReg q Reg.ringHalts) :=
  have habove : Reg.ringCtrl ≤ ringReg q Reg.ringHalts := ringCtrl_le_ringReg (by decide) q
  regNat_refreshSlots (Nat.ne_of_gt (Nat.lt_of_lt_of_le (by decide) habove)) (Nat.ne_of_gt (Nat.lt_of_lt_of_le (by decide) habove)) s

/-! ### The two commands -/

theorem exec_hostAccessError_up {e : Env} {s₀ s : State} (hs : applyEnv e s₀ = s) (hp : s.power.state < 2) (hstart : s.ready = true ∨ s.dry = true)
    (q : Fin 16) (addr : Nat) (own : Bool) :
    exec (.hostAccessError e q addr own) s₀ = .next (refreshSlots (haltRing q (if own then 4 else 1) addr s)) := by
  change execHostAccessError e q addr own s₀ = _
  simp [execHostAccessError, hs, hp, hstart]

/-- After a quiet interval a message that is due goes at once. -/
theorem dueMsix_quiet {q : Fin 16} {s : State}
    (h : ((ringOf s q).lastMsg.all fun t => decide (t + bits 31 16 (regNat s (ringReg q Reg.ringIrq)) * 1000 ≤ s.ht)) = true) :
    dueMsix q s = { setRing q { ringOf s q with lastMsg := some s.ht, msgDue := false } s with
      msix := s.msix ++ [(q, bits 10 0 (regNat s (ringReg q Reg.ringIrq)), s.ht)] } := by
  unfold dueMsix
  extract_lets r irq quiet
  have hquiet : quiet = true := by
    unfold quiet r
    cases hlast : (ringOf s q).lastMsg with
    | none => rfl
    | some t => simpa only [hlast, Option.all_some] using h
  rw [if_pos hquiet]

theorem exec_msixHoldoffExpiry_due {e : Env} {s₀ s : State} (hs : applyEnv e s₀ = s) {q : Fin 16} (h : (ringOf s q).msgDue = true) :
    exec (.msixHoldoffExpiry e q) s₀ = .next (dueMsix q s) := by
  change execMsixHoldoffExpiry e q s₀ = _
  simp only [execMsixHoldoffExpiry, hs, if_pos h]

/-- Settles O15: the message after a quiet interval, and the error by whether its ring is halted. -/
theorem messagesAndHostErrors : Obligations.MessagesAndHostErrors := by
  unfold Obligations.MessagesAndHostErrors
  refine ⟨fun e s₀ s q hs hdue hquiet => ?_, fun e s₀ s q addr own hs hp hstart => ⟨fun hopen => ?_, fun hhalted => ?_⟩⟩
  · rw [exec_msixHoldoffExpiry_due hs hdue, dueMsix_quiet hquiet]
  · obtain ⟨u, hreported, hregs, hhalt⟩ := haltRing_of_running hopen (if own then 4 else 1) addr
    refine ⟨_, exec_hostAccessError_up hs hp hstart q addr own, ?_⟩
    have hring := ringOf_haltAfter q (if own then 4 else 1) u
    obtain ⟨hhbm, hflash⟩ := hreported.memories
    have hhalts : regNat u (ringReg q Reg.ringHalts) = regNat s (ringReg q Reg.ringHalts) :=
      congrArg BitVec.toNat (hregs _ (by simpa using ringHalts_ne_ringLost q))
    rw [hhalt]
    beta_reduce
    rw [ringOf_refreshSlots, hring, ringHalts_refreshSlots, ringHalts_haltAfter, hhalts, regNat_refreshSlots (by decide) (by decide)]
    exact ⟨rfl, rfl, rfl, rfl, rfl, testBit_flagEvent (by decide) _, hhbm, hflash⟩
  · rw [exec_hostAccessError_up hs hp hstart, haltRing_of_halted hhalted]

end Sys2Proof.Machine
end
section
/-! PROOF. Packets dropped on intake (R50, R331, R332): a drop is one count and one capture, whatever event goes with it. -/

namespace Sys2Proof.Machine

open Sys2Proof

/-- A pair of registers reads back the value stored in it, to 64 bits. -/
theorem wideGet_widePut (lo n : Nat) (s : State) : wideGet (widePut lo n s) lo = n % 2 ^ 64 := by
  rw [wideGet, widePut, regNat_regPut_same, regNat_regPut_other (by omega), regNat_regPut_same]
  omega

theorem regGet_widePut_other {lo o : Nat} (h : o ≠ lo) (h' : o ≠ lo + 4) (n : Nat) (s : State) : regGet (widePut lo n s) o = regGet s o :=
  (regGet_regSet_other h' _ _).trans (regGet_regSet_other h _ _)

/-! ### One drop -/

/-- A drop counts in one register and captures a header; no other register, no byte of HBM and of the check space, nothing sent, nothing
of the basin and of the step changes. -/
def Dropped (reg quad : Nat) (s t : State) : Prop :=
  regNat t reg = min (regNat s reg + 1) 0xFFFFFFFF ∧ RegsKept [reg, Reg.dropLastCause, Reg.dropLastLo, Reg.dropLastLo + 4] s t ∧
    wideGet t Reg.dropLastLo = quad % 2 ^ 64 ∧ t.hbm = s.hbm ∧ t.check = s.check ∧ t.sent = s.sent ∧ t.basin = s.basin ∧ t.step = s.step

/-- The captured registers are no counter of a drop. -/
theorem dropped_dropPacket {reg : Nat} (hreg : reg < Reg.dropLastLo) (cause quad : Nat) (s : State) :
    Dropped reg quad s (dropPacket reg cause quad s) := by
  have hcause : reg ≠ Reg.dropLastCause := Nat.ne_of_lt (Nat.lt_trans hreg (by decide))
  have hhigh : reg ≠ Reg.dropLastLo + 4 := Nat.ne_of_lt (Nat.lt_trans hreg (by decide))
  have hlow : reg ≠ Reg.dropLastLo := Nat.ne_of_lt hreg
  refine ⟨?_, fun o ho => ?_, ?_, rfl, rfl, rfl, rfl, rfl⟩
  · rw [dropPacket, regNat_regPut_other hcause, regNat, regGet_widePut_other hlow hhigh, ← regNat, regNat_count_one]
  · simp only [List.mem_cons, List.not_mem_nil, or_false, not_or] at ho
    obtain ⟨hcount, hcause, hlow, hhigh⟩ := ho
    exact (regGet_regSet_other hcause _ _).trans ((regGet_widePut_other hlow hhigh _ _).trans (regGet_regSet_other hcount _ _))
  · rw [dropPacket, wideGet, regNat_regPut_other (by decide), regNat_regPut_other (by decide), ← wideGet, wideGet_widePut]

/-- The event of a class of drop, sent or held back, is the job's and the culvert's matter. -/
theorem dropEvent_eq (get : Job → DropClass) (put : DropClass → Job → Job) (status quad : Nat) (s : State) :
    ∃ j c, dropEvent get put status quad s = { s with job := j, culvert := c } := by
  unfold dropEvent event
  dsimp only
  split
  · split <;> exact ⟨_, _, rfl⟩
  · exact ⟨_, _, rfl⟩

theorem dropped_dropEvent {reg quad : Nat} {s t : State} (h : Dropped reg quad s t) (get : Job → DropClass) (put : DropClass → Job → Job)
    (status header : Nat) : Dropped reg quad s (dropEvent get put status header t) := by
  obtain ⟨_, _, heq⟩ := dropEvent_eq get put status header t
  rw [heq]
  exact h

/-! ### The checks of the intake, in their order (R331) -/

section
variable {s : State} (hf : flumeRuns s = true) {h : PktHead} {cls len : Nat}
include hf

theorem dropped_intake_malformed (hm : malformed cls len h.offset = true) (w : Nat) :
    Dropped Reg.dropMalformed (headerQuad h cls len) s (intake h cls w len s).2 := by
  rw [intake, hf, hm]
  exact dropped_dropPacket (by decide) _ _ s

section
variable (hm : malformed cls len h.offset = false)
include hm

theorem intake_foreign (hforeign : tagOf s = 0 ∨ h.jobId ≠ jobIdOf s) (w : Nat) :
    (intake h cls w len s).1 = false ∧ Dropped Reg.dropForeign (headerQuad h cls len) s (intake h cls w len s).2 := by
  rw [intake, hf, hm, if_pos hforeign]
  exact ⟨rfl, dropped_dropEvent (dropped_dropPacket (by decide) _ _ s) _ _ _ _⟩

section
variable (htag : tagOf s ≠ 0) (hjob : h.jobId = jobIdOf s)
include htag hjob

theorem intake_staleGen (hgen : h.gen ≠ genOf s) (w : Nat) :
    (intake h cls w len s).1 = false ∧ Dropped Reg.dropStaleGen (headerQuad h cls len) s (intake h cls w len s).2 := by
  rw [intake, hf, hm, if_neg (not_or.2 ⟨htag, not_not.2 hjob⟩), if_pos hgen]
  exact ⟨rfl, dropped_dropEvent (dropped_dropPacket (by decide) _ _ s) _ _ _ _⟩

theorem intake_noEntry (hgen : h.gen = genOf s) {w : Nat} (hentry : intakeEntry s w = none) (hw : ¬ (48 ≤ w ∧ w ≤ 56)) :
    (intake h cls w len s).1 = false ∧ Dropped Reg.dropUnmapped (headerQuad h cls len) s (intake h cls w len s).2 := by
  rw [intake, hf, hm, if_neg (not_or.2 ⟨htag, not_not.2 hjob⟩), if_neg (not_not.2 hgen), hentry]
  dsimp only
  rw [if_neg hw]
  exact ⟨rfl, dropped_dropPacket (by decide) _ _ s⟩

end
end
end

/-- Without a plan the windows from 57 up are invalid; the ones below 46 do not exist. -/
theorem intakeEntry_noPlan {s : State} (hplan : planActive s = false) {w : Nat} (hw : 57 ≤ w ∨ w < 46) : intakeEntry s w = none := by
  have habsent : w ≠ 46 ∧ w ≠ 47 ∧ w ≠ 48 ∧ w ≠ 49 ∧ w ≠ 50 ∧ w ≠ 51 ∧ ¬ (52 ≤ w ∧ w ≤ 56) := by omega
  simp [intakeEntry, habsent, hplan]

/-! ### The two commands -/

theorem exec_malformedPacket_malformed {e : Env} {s₀ s : State} (hs : applyEnv e s₀ = s) {p : RawPkt}
    (hm : malformed p.cls p.len p.head.offset = true) :
    exec (.malformedPacket e p) s₀ = .next (intake p.head p.cls p.window p.len s).2 := by
  change execMalformedPacket e p s₀ = _
  simp only [execMalformedPacket, hs, if_pos hm]

/-- A packet that the intake drops leaves what the drop leaves. -/
theorem nextWith_unmappedWindowPacket {e : Env} {s₀ s : State} (hs : applyEnv e s₀ = s) {p : RawPkt} {P : State → Prop}
    (h : (intake p.head p.cls p.window p.len s).1 = false ∧ P (intake p.head p.cls p.window p.len s).2) :
    NextWith (exec (.unmappedWindowPacket e p) s₀) P := by
  obtain ⟨hdropped, hP⟩ := h
  refine ⟨_, ?_, hP⟩
  change execUnmappedWindowPacket e p s₀ = _
  simp [execUnmappedWindowPacket, hs, hdropped]

/-- Settles O33: the checks of the intake in their order, each a drop. -/
theorem intakeDrops : Obligations.IntakeDrops := by
  unfold Obligations.IntakeDrops
  intro e s₀ s p hs hf quiet
  refine ⟨fun hm => ⟨_, exec_malformedPacket_malformed hs hm, dropped_intake_malformed hf hm _⟩, fun hm => ⟨fun hforeign => ?_,
    fun htag hjob hgen => ?_, fun htag hjob hgen hplan hw => ?_⟩⟩
  · exact nextWith_unmappedWindowPacket hs (intake_foreign hf hm hforeign _)
  · exact nextWith_unmappedWindowPacket hs (intake_staleGen hf hm htag hjob hgen _)
  · exact nextWith_unmappedWindowPacket hs (intake_noEntry hf hm htag hjob hgen (intakeEntry_noPlan hplan hw) (by omega))

end Sys2Proof.Machine
end
section
/-! PROOF. Lease, breach, lock and replica samples (R65 to R67, R86, R93, R94, R99). -/

namespace Sys2Proof.Machine

open Sys2Proof

/-! ### Lease and breach (R66, R67, R93) -/

/-- Before a turn that the sluice has not met, from the lead on to its planned end, lease hold rises. -/
theorem exec_leaseRaise_due {e : Env} {s₀ s : State} (hs : applyEnv e s₀ = s) (hf : flumeRuns s = true) (hp : s.power.state = 0)
    (hfrozen : s.refill.frozen = false) {q : Planned} (hq : q ∈ plannedTurns s ++ nextTurns s) (hlead : q.startAt ≤ s.ht + regNat s Reg.leaseLead)
    (hend : s.ht ≤ q.startAt + q.entry.duration) (hrun : runOf s q.idx q.step = none) :
    exec (.leaseRaise e q.idx) s₀ = .next { s with power.leaseHold := true } := by
  have hdue : ((plannedTurns s ++ nextTurns s).any fun x => x.idx = q.idx && decide (x.startAt ≤ s.ht + regNat s Reg.leaseLead) &&
      decide (s.ht ≤ x.startAt + x.entry.duration) && (runOf s x.idx x.step).isNone) = true :=
    List.any_eq_true.2 ⟨q, hq, by simp [hlead, hend, hrun]⟩
  change execLeaseRaise e q.idx s₀ = _
  simp only [execLeaseRaise, hs, hf, hp, hfrozen, hdue]
  rfl

theorem exec_leaseGrant_held {e : Env} {s₀ s : State} (hs : applyEnv e s₀ = s) (hhold : s.power.leaseHold = true) :
    exec (.leaseGrant e) s₀ = .next (dropLease (evalAll { s with power.leaseGrant := true, power.breach := false })) := by
  change execLeaseGrant e s₀ = _
  simp only [execLeaseGrant, hs, hhold]
  rfl

theorem exec_breach_held {e : Env} {s₀ s : State} (hs : applyEnv e s₀ = s) (hhold : s.power.leaseHold = true) :
    exec (.breach e) s₀ = .next (flagEvent 10 (count Reg.breaches 1 { s with power.breach := true })) := by
  change execBreach e s₀ = _
  simp only [execBreach, hs, hhold]
  rfl

/-! ### Lock (R65) -/

theorem flumeRuns_up {s : State} (h : flumeRuns s = true) : s.power.state < 2 := by
  simp only [flumeRuns, Bool.and_eq_true, decide_eq_true_eq] at h
  exact h.1.1

theorem exec_lockDrop_locked {e : Env} {s₀ s : State} (hs : applyEnv e s₀ = s) (hf : flumeRuns s = true) (hlock : s.power.lock = true) :
    exec (.lockDrop e) s₀ = .next (event 0x14 0 0 (le 1 0) (flagEvent 9 (count Reg.htLockDrops 1 { s with power.lock := false }))) := by
  have hpower : s.power.state ≠ 3 := by have := flumeRuns_up hf; omega
  have hf' : flumeRuns (flagEvent 9 (count Reg.htLockDrops 1 { s with power.lock := false })) = true := hf
  change execLockDrop e s₀ = _
  simp only [execLockDrop, hs, hlock, if_neg hpower, if_pos hf']
  rfl

theorem exec_lockRegain_unlocked {e : Env} {s₀ s : State} (hs : applyEnv e s₀ = s) (hf : flumeRuns s = true) (hlock : s.power.lock = false) :
    exec (.lockRegain e) s₀ = .next (event 0x14 0 0 (le 1 1) { s with power.lock := true, power.lockBack := some s.ht }) := by
  have hf' : flumeRuns { s with power.lock := true, power.lockBack := some s.ht } = true := hf
  change execLockRegain e s₀ = _
  simp only [execLockRegain, hs, hlock, if_pos hf']
  rfl

/-- With room in the queue an event joins it. -/
theorem queue_event {s : State} (h : s.culvert.queue.length < 64) (code status cause : Nat) (detail : Bytes) :
    (event code status cause detail s).culvert.queue = s.culvert.queue ++ [⟨code, status, cause, s.ht, detail, tagOf s⟩] := by
  rw [event, if_pos h]

theorem regNat_event (code status cause : Nat) (detail : Bytes) (s : State) (o : Nat) :
    regNat (event code status cause detail s) o = regNat s o := congrArg BitVec.toNat (regGet_event code status cause detail s o)

/-! ### Replica samples (R86, R99) -/

/-- A chain's reading, lowered by its trim. -/
def trimmed (s : State) (c : Fin 24) (reading : Nat) : Nat := reading % 65536 * s.fw.trims.getD c.val 0x1000 / 4096

/-- The recent readings with a new one. -/
def noteReading (c : Fin 24) (reading : Nat) (s : State) : State :=
  { s with power.replicas := (recentReplicas s).filter (fun r => r.1 ≠ c.val) ++ (recentReplicas s).filter (fun r => r.1 = c.val) ++
      [(c.val, trimmed s c reading, s.ht)] }

/-- A run's lowest reading, lowered to one while it runs. -/
def lowerLowest (low : Nat) (r : TurnRun) : TurnRun := if r.phase = 1 then { r with lowest := min r.lowest low } else r

theorem lowest_lowerLowest (low : Nat) (r : TurnRun) : (lowerLowest low r).lowest ≤ r.lowest := by
  unfold lowerLowest
  split
  · exact Nat.min_le_left ..
  · exact Nat.le_refl _

/-- A reading noted, and every running turn's lowest lowered to what the recent ones now show. -/
def sampled (c : Fin 24) (reading : Nat) (s : State) : State :=
  { noteReading c reading s with step.turns := s.step.turns.map (lowerLowest (lowestReplica (noteReading c reading s))) }

theorem exec_replicaSample_up {e : Env} {s₀ s : State} (hs : applyEnv e s₀ = s) (hp : s.power.state < 2) (c : Fin 24) (reading : Nat) :
    exec (.replicaSample e c reading) s₀ = .next (sampled c reading s) := by
  change execReplicaSample e c reading s₀ = _
  simp only [execReplicaSample, hs, if_neg (Nat.not_le.2 hp)]
  rfl

theorem sample_mem_sampled (c : Fin 24) (reading : Nat) (s : State) :
    (c.val, trimmed s c reading, s.ht) ∈ (sampled c reading s).power.replicas :=
  List.mem_append_right _ List.mem_cons_self

/-- A reading of the state after a sample is a recent one or the sample. -/
theorem mem_sampled {c : Fin 24} {reading : Nat} {s : State} {x : Nat × Nat × Nat} (hx : x ∈ (sampled c reading s).power.replicas) :
    x ∈ s.power.replicas ∨ x = (c.val, trimmed s c reading, s.ht) := by
  rcases List.mem_append.1 hx with hold | hnew
  · have hrecent : x ∈ recentReplicas s := by rcases List.mem_append.1 hold with h | h <;> exact List.mem_of_mem_filter h
    exact .inl (List.mem_of_mem_filter hrecent)
  · exact .inr (List.mem_singleton.1 hnew)

/-- No run's lowest reading rises. -/
theorem lowest_sampled (c : Fin 24) (reading : Nat) (s : State) (k : Nat) :
    ((sampled c reading s).step.turns.map TurnRun.lowest).getD k 0 ≤ (s.step.turns.map TurnRun.lowest).getD k 0 := by
  simp only [sampled, List.getD_eq_getElem?_getD, List.getElem?_map, Option.map_map]
  cases s.step.turns[k]? with
  | none => exact Nat.le_refl _
  | some r => exact lowest_lowerLowest _ r

/-! ### The obligation -/

/-- Settles O46: each command on the state that meets its condition. -/
theorem leaseLockAndMargin : Obligations.LeaseLockAndMargin := by
  unfold Obligations.LeaseLockAndMargin
  refine ⟨fun e s₀ s i q hs hf hp hfrozen hq hi hlead hend hrun => hi ▸ exec_leaseRaise_due hs hf hp hfrozen hq hlead hend hrun,
    fun e s₀ s hs hhold => ⟨exec_leaseGrant_held hs hhold, _, exec_breach_held hs hhold, ?_⟩,
    fun e s₀ s hs hf => ⟨fun hlock => ⟨_, exec_lockDrop_locked hs hf hlock, ?_⟩, fun hlock => ⟨_, exec_lockRegain_unlocked hs hf hlock, ?_⟩⟩,
    fun e s₀ s c reading hs hp => ⟨_, exec_replicaSample_up hs hp c reading, sample_mem_sampled c reading s, fun _ => mem_sampled,
      lowest_sampled c reading s, rfl⟩⟩
  · exact ⟨rfl, testBit_flagEvent (by decide) _, regNat_flagEvent_count (by decide) 10 _, rfl, rfl⟩
  · refine ⟨congrArg Power.lock (event_power ..), ?_, ?_, event_step .., event_hbm .., fun hroom => ?_⟩
    · rw [regNat_event]
      exact testBit_flagEvent (by decide) _
    · rw [regNat_event]
      exact regNat_flagEvent_count (by decide) 9 _
    · rw [queue_event (by exact hroom), List.length_append]
      rfl
  · exact ⟨congrArg Power.lock (event_power ..), congrArg Power.lockBack (event_power ..), event_step ..⟩

end Sys2Proof.Machine
end
section
/-! PROOF. Turns at their planned start (R65, R86 to R89, R91, R95, R109, R129): what the sluice makes of one that it meets, and the nine
commands that bring a turn to it. -/

namespace Sys2Proof.Machine

open Sys2Proof

/-! ### A turn judged (R86, R88) -/

/-- The admission margin (R86). -/
def admission (s : State) : Nat := min 0x1000 (lowestReplica s - regNat s Reg.marginGuard)

/-- The state with the margin that the judgement shows. -/
def judgedState (s : State) : State := { s with power.admMargin := admission s }

/-- The run with the margin and the lowest reading at its judgement. -/
def judgedRun (r : TurnRun) (s : State) : TurnRun := { r with margin := admission s, lowest := lowestReplica s }

/-- No margin, one below its floor, or a grant that does not cover the turn: refused with REFUSED_FLOOR. -/
theorem judgeRun_floor {r : TurnRun} {s : State}
    (h : admission s = 0 ∨ admission s < regNat s Reg.marginFloor ∨ grantCovers (judgedState s) r.entry = false) :
    judgeRun r s = refuseRun (judgedRun r s) Code.refusedFloor (judgedState s) := by
  unfold judgeRun
  by_cases hm : admission s = 0 ∨ admission s < regNat s Reg.marginFloor
  · exact if_pos hm
  · have hcover : (!grantCovers (judgedState s) r.entry) = true := by rw [((or_assoc.2 h).resolve_left hm)]; rfl
    exact (if_neg hm).trans (if_pos hcover)

section
variable {r : TurnRun} {s : State} {p : Plan} (hm : admission s ≠ 0) (hfloor : regNat s Reg.marginFloor ≤ admission s)
  (hcover : grantCovers (judgedState s) r.entry = true) (hp : (judgedState s).plans.active = some p)
include hm hfloor hcover hp

/-- With margin and grant it is the turn's time need that decides. -/
theorem judgeRun_need : judgeRun r s =
    let need := needOf p (lowestCap (judgedState s)) r.entry (admission s)
    let run := { judgedRun r s with need := need.getD 0xFFFFFFFF }
    if need.any (· ≤ r.endAt - s.ht) then acceptRun run (judgedState s) else refuseRun run Code.refusedFloor (judgedState s) := by
  have hmargin : ¬ (admission s = 0 ∨ admission s < regNat s Reg.marginFloor) := not_or.2 ⟨hm, Nat.not_lt.2 hfloor⟩
  have hgrant : ¬ (!grantCovers (judgedState s) r.entry) = true := by rw [hcover]; decide
  have hplan : ((judgedState s).plans.active.bind fun p => needOf p (lowestCap (judgedState s)) r.entry (admission s)) =
      needOf p (lowestCap (judgedState s)) r.entry (admission s) := by rw [hp]; rfl
  unfold judgeRun
  refine (if_neg hmargin).trans ((if_neg hgrant).trans ?_)
  dsimp only
  rw [← hplan]
  rfl

section
variable {n : Nat} (hn : needOf p (lowestCap (judgedState s)) r.entry (admission s) = some n)
include hn

theorem judgeRun_inTime (hend : n ≤ r.endAt - s.ht) : judgeRun r s = acceptRun { judgedRun r s with need := n } (judgedState s) := by
  rw [judgeRun_need hm hfloor hcover hp, hn]
  exact if_pos (by simpa using hend)

theorem judgeRun_late (hend : r.endAt - s.ht < n) :
    judgeRun r s = refuseRun { judgedRun r s with need := n } Code.refusedFloor (judgedState s) := by
  rw [judgeRun_need hm hfloor hcover hp, hn]
  exact if_neg (by simpa using hend)

end

theorem judgeRun_noNeed (hn : needOf p (lowestCap (judgedState s)) r.entry (admission s) = none) :
    judgeRun r s = refuseRun { judgedRun r s with need := 0xFFFFFFFF } Code.refusedFloor (judgedState s) := by
  rw [judgeRun_need hm hfloor hcover hp, hn]
  rfl

end

/-! ### A turn met (R29, R88, R109) -/

/-- The state that a turn finds once the sluice has met it: its run on record, and what its start settles. -/
def metState (q : Planned) (inputs : Bytes) (s : State) : State := turnCome q { s with step.turns := s.step.turns ++ [newRun s q inputs] }

theorem meetTurn_notMet {s : State} {q : Planned} (h : meetsTurn s q = false) (inputs : Bytes) : meetTurn q inputs s = s := by
  simp [meetTurn, h]

/-- A turn that has its run is not met again. -/
theorem meetTurn_again {s : State} {q : Planned} (h : (runOf s q.idx q.step).isSome = true) (inputs : Bytes) : meetTurn q inputs s = s := by
  simp [meetTurn, h]

section
variable {s : State} {q : Planned} (hmeets : meetsTurn s q = true) (hnew : runOf s q.idx q.step = none) (inputs : Bytes)
include hmeets hnew

theorem meetTurn_met : meetTurn q inputs s =
    if refusedTurn (metState q inputs s) q then refuseRun (newRun s q inputs) Code.refusedTurn (metState q inputs s)
    else if (metState q inputs s).power.leaseGrant then judgeRun (newRun s q inputs) (metState q inputs s) else metState q inputs s := by
  rw [meetTurn, hmeets, hnew]
  rfl

theorem meetTurn_refused (h : refusedTurn (metState q inputs s) q = true) :
    meetTurn q inputs s = refuseRun (newRun s q inputs) Code.refusedTurn (metState q inputs s) := by
  rw [meetTurn_met hmeets hnew, if_pos h]

section
variable (h : refusedTurn (metState q inputs s) q = false)
include h

theorem meetTurn_waits (hlease : (metState q inputs s).power.leaseGrant = false) : meetTurn q inputs s = metState q inputs s := by
  rw [meetTurn_met hmeets hnew, h, hlease]
  rfl

theorem meetTurn_judged (hlease : (metState q inputs s).power.leaseGrant = true) :
    meetTurn q inputs s = judgeRun (newRun s q inputs) (metState q inputs s) := by
  rw [meetTurn_met hmeets hnew, h, hlease]
  rfl

end
end

/-! ### An UPDATE after its DELTA (R89) -/

/-- Whether the plan's DELTA, where its start has come, has been met. -/
def DeltaMet (s : State) : Prop := ∀ d, (deltaIdx s).bind (plannedAt s) = some d → (runOf s d.idx d.step).isSome = true

/-- The run of the DELTA of a step. -/
def deltaRunOf (s : State) (n : Nat) : Option TurnRun := s.step.turns.find? fun r => r.kind = Kind.delta ∧ r.step = n

/-- The plan's DELTA met, where its start has come. -/
def meetDelta (s : State) : State :=
  match (deltaIdx s).bind (plannedAt s) with
  | some d => meetTurn d [] s
  | none => s

/-- An UPDATE met once its DELTA is behind it. -/
def meetAfterDelta (q : Planned) (s : State) : State :=
  match deltaRunOf s q.step with
  | none => meetTurn q [] s
  | some d =>
    if d.phase = 3 then
      if !meetsTurn s q || (runOf s q.idx q.step).isSome then s
      else refuseRun (newRun s q []) d.status { s with step.turns := s.step.turns ++ [newRun s q []] }
    else meetTurn q [] s

theorem meetUpdate_eq (q : Planned) (s : State) : meetUpdate q s = meetAfterDelta q (meetDelta s) := rfl

section
variable {s : State} (hmet : DeltaMet s) {q : Planned}
include hmet

/-- A DELTA that has been met is not met again. -/
theorem meetDelta_met : meetDelta s = s := by
  unfold meetDelta
  cases hd : (deltaIdx s).bind (plannedAt s) with
  | none => rfl
  | some d => exact meetTurn_again (hmet d hd) []

theorem meetUpdate_deltaNotRefused (h : ∀ d, deltaRunOf s q.step = some d → d.phase ≠ 3) : meetUpdate q s = meetTurn q [] s := by
  rw [meetUpdate_eq, meetDelta_met hmet, meetAfterDelta]
  cases hd : deltaRunOf s q.step with
  | none => rfl
  | some d => exact if_neg (h d hd)

theorem meetUpdate_deltaRefused (hmeets : meetsTurn s q = true) (hnew : runOf s q.idx q.step = none) {d : TurnRun}
    (hd : deltaRunOf s q.step = some d) (hphase : d.phase = 3) :
    meetUpdate q s = refuseRun (newRun s q []) d.status { s with step.turns := s.step.turns ++ [newRun s q []] } := by
  rw [meetUpdate_eq, meetDelta_met hmet, meetAfterDelta, hd]
  dsimp only
  rw [if_pos hphase, hmeets, hnew]
  rfl

end

/-! ### A turn whose planned start has come (R88, R129) -/

/-- From CHECK's start on the reduction takes no packet. -/
def checkBegun (q : Planned) (s : State) : State := if q.entry.kind = Kind.check then { s with red.checkStarted := true } else s

theorem checkBegun_other {q : Planned} (h : q.entry.kind ≠ Kind.check) (s : State) : checkBegun q s = s := if_neg h

theorem meetsTurn_checkBegun (q : Planned) (s : State) : meetsTurn (checkBegun q s) q = meetsTurn s q := by
  unfold checkBegun
  split <;> rfl

theorem runOf_checkBegun (q : Planned) (s : State) (i n : Nat) : runOf (checkBegun q s) i n = runOf s i n := by
  unfold checkBegun
  split <;> rfl

/-- A turn of the active plan whose planned start has come, not met yet, with no commit pending, outside a freeze. -/
structure Comes (s : State) (i : Nat) (q : Planned) : Prop where
  runs : flumeRuns s = true
  thawed : s.refill.frozen = false
  settled : s.pendingCommit = false
  planned : plannedAt s i = some q
  unmet : runOf s q.idx q.step = none

section
variable {s : State} {i : Nat} {q : Planned} (hq : Comes s i q)
include hq

theorem startTurn_comes (inputs : Bytes) : startTurn q.entry.kind i inputs s =
    dropLease (if q.entry.kind = Kind.update then meetUpdate q (checkBegun q s) else meetTurn q inputs (checkBegun q s)) := by
  have hdue : ((plannedAt s i).bind fun x => if x.entry.kind = q.entry.kind && (runOf s x.idx x.step).isNone then some x else none) = some q := by
    rw [hq.planned, Option.bind_some, hq.unmet]
    simp
  unfold startTurn
  extract_lets due settled begun
  have hsettled : settled = s := applyPending_none hq.settled
  clear_value settled
  subst hsettled
  have hnow : due settled = some q := hdue
  rw [hnow, hq.runs, hq.thawed]
  rfl

theorem startTurn_other (hk : q.entry.kind ≠ Kind.update) (inputs : Bytes) :
    startTurn q.entry.kind i inputs s = dropLease (meetTurn q inputs (checkBegun q s)) := by
  rw [startTurn_comes hq, if_neg hk]

theorem startTurn_update (hk : q.entry.kind = Kind.update) (inputs : Bytes) :
    startTurn q.entry.kind i inputs s = dropLease (meetUpdate q s) := by
  rw [startTurn_comes hq, if_pos hk, checkBegun_other (by rw [hk]; decide)]

end

/-! ### The nine commands -/

/-- The inputs that come with a turn: those of a MIRROR. -/
def turnInputs (q : Planned) (inputs : Bytes) : Bytes := if q.entry.kind = Kind.mirror then inputs else []

/-- The command of the turn's kind answers t with the lease looked at; of an UPDATE it is said where its DELTA is met and not refused. -/
def TurnAnswers (e : Env) (s₀ s : State) (i : Nat) (inputs : Bytes) (q : Planned) (t : State) : Prop :=
  (q.entry.kind = Kind.mirror → exec (.mirrorTurn e i inputs) s₀ = .next (dropLease t)) ∧
  (q.entry.kind = Kind.scale → exec (.scaleTurn e i) s₀ = .next (dropLease t)) ∧
  (q.entry.kind = Kind.reduce → exec (.reduceTurn e i) s₀ = .next (dropLease t)) ∧
  (q.entry.kind = Kind.gap → exec (.gapTurn e i) s₀ = .next (dropLease t)) ∧
  (q.entry.kind = Kind.check → exec (.checkTurn e i) s₀ = .next (dropLease t)) ∧
  (q.entry.kind = Kind.update → DeltaMet s → (∀ d, deltaRunOf s q.step = some d → d.phase ≠ 3) →
    exec (.updateTurn e i) s₀ = .next (dropLease t)) ∧
  (q.entry.kind = Kind.delta → exec (.deltaTurn e i) s₀ = .next (dropLease t)) ∧
  (q.entry.kind = Kind.commit → exec (.commitTurn e i) s₀ = .next (dropLease t)) ∧
  (q.entry.kind = Kind.pond → exec (.pondTurn e i) s₀ = .next (dropLease t))

section
variable {e : Env} {s₀ s : State} (hs : applyEnv e s₀ = s) {i : Nat} {q : Planned} (hq : Comes s i q)
include hs hq

theorem exec_updateTurn_comes (hk : q.entry.kind = Kind.update) : exec (.updateTurn e i) s₀ = .next (dropLease (meetUpdate q s)) := by
  change execUpdateTurn e i s₀ = _
  rw [execUpdateTurn, hs, ← hk, startTurn_update hq hk]

/-- A kind that brings no inputs and is no UPDATE. -/
theorem startTurn_plain {k : Nat} (hk : q.entry.kind = k) (hm : k ≠ Kind.mirror) (hu : k ≠ Kind.update) (inputs : Bytes) :
    (.next (startTurn k i [] (applyEnv e s₀)) : Answer) = .next (dropLease (meetTurn q (turnInputs q inputs) (checkBegun q s))) := by
  subst hk
  rw [hs, startTurn_other hq hu, turnInputs, if_neg hm]

/-- Whatever its kind, what the sluice makes of the turn is what its command answers. -/
theorem turnAnswers_meetTurn {inputs : Bytes} {t : State} (h : meetTurn q (turnInputs q inputs) (checkBegun q s) = t) :
    TurnAnswers e s₀ s i inputs q t := by
  subst h
  have hplain := fun {k : Nat} (hk : q.entry.kind = k) (hm : k ≠ Kind.mirror) (hu : k ≠ Kind.update) =>
    startTurn_plain hs hq hk hm hu inputs
  refine ⟨fun hk => ?_, fun hk => hplain hk (by decide) (by decide), fun hk => hplain hk (by decide) (by decide),
    fun hk => hplain hk (by decide) (by decide), fun hk => hplain hk (by decide) (by decide), fun hk hmet hdelta => ?_,
    fun hk => hplain hk (by decide) (by decide), fun hk => hplain hk (by decide) (by decide), fun hk => hplain hk (by decide) (by decide)⟩
  · change execMirrorTurn e i inputs s₀ = _
    rw [execMirrorTurn, hs, ← hk, startTurn_other hq (by rw [hk]; decide), turnInputs, if_pos hk]
  · rw [exec_updateTurn_comes hs hq hk, meetUpdate_deltaNotRefused hmet hdelta, turnInputs, if_neg (by rw [hk]; decide),
      checkBegun_other (by rw [hk]; decide)]

end

/-! ### The obligation -/

/-- Settles O44: the command of each kind answers what the sluice makes of the turn, and that goes by meeting, refusal, lease and judgement. -/
theorem turnsAdmitted : Obligations.TurnsAdmitted := by
  unfold Obligations.TurnsAdmitted
  intro e s₀ s i inputs q hs hf hfrozen hpend hplanned hnew k come run met low m judged seen deltaMet delta ends
  have hq : Comes s i q := ⟨hf, hfrozen, hpend, hplanned, hnew⟩
  have hends : ∀ {t}, meetTurn q (turnInputs q inputs) come = t → ends t := turnAnswers_meetTurn hs hq
  have hunmet : runOf come q.idx q.step = none := (runOf_checkBegun q s _ _).trans hnew
  refine ⟨fun hmeets => ?_, fun hnot => ?_, fun d hk hmet hmeets hd hphase => ?_, exec_updateTurn_comes hs hq⟩
  · have hcome : meetsTurn come q = true := (meetsTurn_checkBegun q s).trans hmeets
    refine ⟨fun href => hends (meetTurn_refused hcome hunmet _ href), fun href hlease => hends (meetTurn_waits hcome hunmet _ href hlease),
      fun href hlease => ?_⟩
    have hjudge : ∀ {t}, judgeRun run met = t → ends t := fun ht => hends ((meetTurn_judged hcome hunmet _ href hlease).trans ht)
    refine ⟨fun hlow => hjudge (judgeRun_floor hlow), fun p hm hfloor hcover hp => ⟨fun n hn => ⟨fun hend => ?_, fun hend => ?_⟩, fun hn => ?_⟩⟩
    · exact hjudge (judgeRun_inTime (r := run) (s := met) hm hfloor hcover hp hn hend)
    · exact hjudge (judgeRun_late (r := run) (s := met) hm hfloor hcover hp hn hend)
    · exact hjudge (judgeRun_noNeed (r := run) (s := met) hm hfloor hcover hp hn)
  · exact hends (meetTurn_notMet ((meetsTurn_checkBegun q s).trans hnot) _)
  · have hkind : q.entry.kind = Kind.update := hk
    have hbegun : come = s := checkBegun_other (by rw [hkind]; decide) s
    have hinputs : (if k = Kind.mirror then inputs else []) = [] := if_neg (by rw [hk]; decide)
    have hrun : run = newRun s q [] := congrArg₂ (fun t bs => newRun t q bs) hbegun hinputs
    rw [exec_updateTurn_comes hs hq hk, meetUpdate_deltaRefused hmet hmeets hnew hd hphase, hrun]

end Sys2Proof.Machine
end
section
/-! PROOF. The allotment window and the flash controller's reports (R62, R95 to R97, R287, R288, R397). -/

namespace Sys2Proof.Machine

open Sys2Proof

/-- A window as the tick takes it: the grant, the pins and the caps as written, the ditch rider's cycle up to date. -/
def tickTaken (grant : Nat) (s : State) : State := tickCycle (capTick { s with power.grant := grant, pond.pins := regNat s Reg.snapPin })

/-- The background classes served with a budget, where the window permits them. -/
def tickServed (budget : Nat) (s : State) : State := if windowPermits s then shareBudget (List.range 7) budget s else s

theorem tickServed_permitted {s : State} (h : windowPermits s = true) (budget : Nat) :
    tickServed budget s = shareBudget (List.range 7) budget s := if_pos h

theorem tickServed_barred {s : State} (h : windowPermits s = false) (budget : Nat) : tickServed budget s = s :=
  if_neg (Bool.eq_false_iff.1 h)

section
variable {e : Env} {s₀ s : State} (hs : applyEnv e s₀ = s) (hf : flumeRuns s = true) {grant : Nat} (use : Nat)
include hs hf

/-- What waits goes on with the tick while the controllers run. -/
theorem exec_allotmentWindowTick_controlled (hc : controllersRun (tickTaken grant s) = true) : exec (.allotmentWindowTick e grant use) s₀ =
    .next (poke (drainFlash (tickServed (grant - use) (startDeferred (tickTaken grant s))))) := by
  change execAllotmentWindowTick e grant use s₀ = _
  rw [execAllotmentWindowTick, hs]
  dsimp only
  rw [hf]
  exact congrArg Host.Outcome.next (if_neg (by rw [Bool.not_eq_true', Bool.not_eq_false]; exact hc))

theorem exec_allotmentWindowTick_permitted (hc : controllersRun (tickTaken grant s) = true)
    (hw : windowPermits (startDeferred (tickTaken grant s)) = true) : exec (.allotmentWindowTick e grant use) s₀ =
      .next (poke (drainFlash (shareBudget (List.range 7) (grant - use) (startDeferred (tickTaken grant s))))) := by
  rw [exec_allotmentWindowTick_controlled hs hf use hc, tickServed_permitted hw]

theorem exec_allotmentWindowTick_barred (hc : controllersRun (tickTaken grant s) = true)
    (hw : windowPermits (startDeferred (tickTaken grant s)) = false) : exec (.allotmentWindowTick e grant use) s₀ =
      .next (poke (drainFlash (startDeferred (tickTaken grant s)))) := by
  rw [exec_allotmentWindowTick_controlled hs hf use hc, tickServed_barred hw]

theorem exec_allotmentWindowTick_uncontrolled (hc : controllersRun (tickTaken grant s) = false) :
    exec (.allotmentWindowTick e grant use) s₀ = .next (tickTaken grant s) := by
  change execAllotmentWindowTick e grant use s₀ = _
  rw [execAllotmentWindowTick, hs]
  dsimp only
  rw [hf]
  exact congrArg Host.Outcome.next (if_pos (by rw [Bool.not_eq_true']; exact hc))

end

/-- The oldest barrier's end. -/
theorem exec_flashBarrierDone_next {e : Env} {s₀ s : State} (hs : applyEnv e s₀ = s) {b : Barrier} {rest : List Barrier}
    (hb : s.pond.barriers = b :: rest) : exec (.flashBarrierDone e) s₀ =
      .next (if b = .drain then drainBarrier { s with pond.barriers := rest } else { s with pond.barriers := rest }) := by
  change execFlashBarrierDone e s₀ = _
  simp only [execFlashBarrierDone, hs, hb]
  cases b <;> rfl

theorem exec_flashBarrierDone_none {e : Env} {s₀ s : State} (hs : applyEnv e s₀ = s) (hb : s.pond.barriers = []) :
    exec (.flashBarrierDone e) s₀ = .next s := by
  change execFlashBarrierDone e s₀ = _
  simp only [execFlashBarrierDone, hs, hb]

theorem exec_flashWriteFailure {e : Env} {s₀ s : State} (hs : applyEnv e s₀ = s) : exec (.flashWriteFailure e) s₀ = .next (drainFailed s) := by
  change execFlashWriteFailure e s₀ = _
  rw [execFlashWriteFailure, hs]

/-- Settles O47: the tick by what its controllers and its window permit, the barrier by what it closes. -/
theorem windowTickAndBarriers : Obligations.WindowTickAndBarriers := by
  unfold Obligations.WindowTickAndBarriers
  exact ⟨fun e s₀ s grant use hs hf => ⟨fun hc => ⟨exec_allotmentWindowTick_permitted hs hf use hc, exec_allotmentWindowTick_barred hs hf use hc⟩,
      exec_allotmentWindowTick_uncontrolled hs hf use⟩,
    fun e s₀ s rest hs => ⟨exec_flashBarrierDone_next hs, exec_flashBarrierDone_next hs, exec_flashBarrierDone_none hs⟩,
    fun e s₀ s hs => exec_flashWriteFailure hs⟩

end Sys2Proof.Machine
end
section
/-! PROOF. The host's plan descriptors: PLAN_LOAD, PLAN_ARM and PLAN_RETIRE, and when an arm is allowed (R74, R81, R83, R84, R371, R374). -/

namespace Sys2Proof.Machine

open Sys2Proof

/-! ### PLAN_LOAD -/

/-- An image aligned to 64 bytes, no shorter than a plan's header and no longer than 2 MiB (R74); that another is refused with 0xE3, before
the check of an armed plan, is the model's choice (assumption 30). -/
def imageFits (d : Desc) : Prop := d.f 8 8 % 64 = 0 ∧ 128 ≤ d.f 16 4 ∧ d.f 16 4 ≤ 2097152

theorem imageFits_iff_not_refused (d : Desc) : imageFits d ↔ ¬ (d.f 8 8 % 64 ≠ 0 ∨ d.f 16 4 < 128 ∨ 2097152 < d.f 16 4) := by
  unfold imageFits
  omega

/-- The image's reserved fields counted, as its audit found them (R9). -/
def imageAudited (s : State) (d : Desc) : State :=
  let img := hostRead s (d.f 8 8) (d.f 16 4)
  count Reg.rsvdFields (planReserved img (audit s img (d.f 16 4))) s

section
variable {e : Env} {s₀ s : State} {q : Fin 16} {j : Nat} {d : Desc} (hs : applyEnv e s₀ = s) (hd : descAt s q j Op.planLoad d = true)
include hs hd

theorem exec_planLoad_misfit (hfits : ¬ imageFits d) :
    exec (.planLoad e q j) s₀ = .next (charge (traffic s) (complete q d (refusedWith 0xE3) s)) := by
  change execPlanLoad e q j s₀ = _
  rw [execPlanLoad, hs, withDesc_descAt hd]
  exact congrArg (fun t => Host.Outcome.next (charge (traffic s) t)) (if_pos (not_not.1 (mt (imageFits_iff_not_refused d).2 hfits)))

/-- An image that fits, as the descriptor's function answers. -/
theorem exec_planLoad_fits (hfits : imageFits d) :
    let img := hostRead s (d.f 8 8) (d.f 16 4)
    exec (.planLoad e q j) s₀ = .next (charge (traffic s)
      (if s.plans.armed.isSome && s.plans.standby.isSome then complete q d (refusedWith 0x13) s
        else if audit s img (d.f 16 4) ≠ 0 then complete q d (refusedWith (audit s img (d.f 16 4)))
          { imageAudited s d with plans.standby := none, plans.dropStandbyAt := none }
        else complete q d { word := (planOf img).id, quad := d.f 16 4 } (takePlan (planOf img) (imageAudited s d)))) := by
  change execPlanLoad e q j s₀ = _
  rw [execPlanLoad, hs, withDesc_descAt hd]
  exact congrArg (fun t => Host.Outcome.next (charge (traffic s) t)) (if_neg ((imageFits_iff_not_refused d).1 hfits))

theorem exec_planLoad_armed (hfits : imageFits d) (harmed : (s.plans.armed.isSome && s.plans.standby.isSome) = true) :
    exec (.planLoad e q j) s₀ = .next (charge (traffic s) (complete q d (refusedWith 0x13) s)) := by
  rw [exec_planLoad_fits hs hd hfits, if_pos harmed]

theorem exec_planLoad_failed (hfits : imageFits d) (harmed : (s.plans.armed.isSome && s.plans.standby.isSome) = false)
    (haudit : audit s (hostRead s (d.f 8 8) (d.f 16 4)) (d.f 16 4) ≠ 0) :
    exec (.planLoad e q j) s₀ = .next (charge (traffic s) (complete q d
      (refusedWith (audit s (hostRead s (d.f 8 8) (d.f 16 4)) (d.f 16 4)))
      { imageAudited s d with plans.standby := none, plans.dropStandbyAt := none })) := by
  rw [exec_planLoad_fits hs hd hfits, if_neg (Bool.eq_false_iff.1 harmed), if_pos haudit]

theorem exec_planLoad_taken (hfits : imageFits d) (harmed : (s.plans.armed.isSome && s.plans.standby.isSome) = false)
    (haudit : audit s (hostRead s (d.f 8 8) (d.f 16 4)) (d.f 16 4) = 0) :
    exec (.planLoad e q j) s₀ = .next (charge (traffic s) (complete q d
      { word := (planOf (hostRead s (d.f 8 8) (d.f 16 4))).id, quad := d.f 16 4 }
      (takePlan (planOf (hostRead s (d.f 8 8) (d.f 16 4))) (imageAudited s d)))) := by
  rw [exec_planLoad_fits hs hd hfits, if_neg (Bool.eq_false_iff.1 harmed), if_neg (not_not.2 haudit)]

end

/-! ### PLAN_ARM -/

section
variable {e : Env} {s₀ s : State} {q : Fin 16} {j : Nat} {d : Desc} (hs : applyEnv e s₀ = s) (hd : descAt s q j Op.planArm d = true)
include hs hd

/-- A PLAN_ARM that runs, as its function answers. -/
theorem exec_planArm_descAt : exec (.planArm e q j) s₀ = .next (charge (traffic s)
    (if 1 < d.f 8 1 then complete q d (refusedWith 0xE3) s
      else if !armOk s d then complete q d (refusedWith 0x14) s
      else if d.f 8 1 = 0 then complete q d { word := d.f 16 4 } { s with plans.armed := some (.atStep (d.f 16 4)) }
      else complete q d { word := d.f 16 4, quad := d.f 24 8 }
        { s with plans.armed := some (.atInstant (d.f 16 4) (d.f 24 8)), step.nextAt := d.f 24 8, restore.armStep := none })) := by
  change execPlanArm e q j s₀ = _
  rw [execPlanArm, hs, withDesc_descAt hd]

theorem exec_planArm_unknownKind (hkind : 1 < d.f 8 1) :
    exec (.planArm e q j) s₀ = .next (charge (traffic s) (complete q d (refusedWith 0xE3) s)) := by
  rw [exec_planArm_descAt hs hd, if_pos hkind]

theorem exec_planArm_notAllowed (hkind : d.f 8 1 ≤ 1) (hok : armOk s d = false) :
    exec (.planArm e q j) s₀ = .next (charge (traffic s) (complete q d (refusedWith 0x14) s)) := by
  rw [exec_planArm_descAt hs hd, if_neg (Nat.not_lt.2 hkind), if_pos (by rw [hok]; rfl)]

theorem exec_planArm_atStep (hkind : d.f 8 1 = 0) (hok : armOk s d = true) : exec (.planArm e q j) s₀ =
    .next (charge (traffic s) (complete q d { word := d.f 16 4 } { s with plans.armed := some (.atStep (d.f 16 4)) })) := by
  rw [exec_planArm_descAt hs hd, if_neg (by omega), if_neg (by simp [hok]), if_pos hkind]

theorem exec_planArm_atInstant (hkind : d.f 8 1 = 1) (hok : armOk s d = true) : exec (.planArm e q j) s₀ =
    .next (charge (traffic s) (complete q d { word := d.f 16 4, quad := d.f 24 8 }
      { s with plans.armed := some (.atInstant (d.f 16 4) (d.f 24 8)), step.nextAt := d.f 24 8, restore.armStep := none })) := by
  rw [exec_planArm_descAt hs hd, if_neg (by omega), if_neg (by simp [hok]), if_neg (by omega)]

end

section
variable {s : State} {d : Desc} {p : Plan} (hp : s.plans.standby = some p)
include hp

/-- An arm at a step: a plan runs, the step is yet to come, and no restore has fixed the step (R81, R319). -/
theorem armOk_atStep_iff (hkind : d.f 8 1 = 0) :
    armOk s d = true ↔ p.id = d.f 12 4 ∧ planActive s = true ∧ stepNum s < d.f 16 4 ∧ s.restore.armStep = none := by
  rw [armOk, hp, if_pos hkind]
  simp [and_assoc]

/-- An arm at an instant: no plan runs, the instant leaves the margin of R81 and is none before the live job's start (R343), and the step
is the one a restore fixed, if any (R319). -/
theorem armOk_atInstant_iff (hkind : d.f 8 1 = 1) :
    armOk s d = true ↔ p.id = d.f 12 4 ∧ planActive s = false ∧ d.fetchedAt + 1000000 ≤ d.f 24 8 ∧ s.job.live = true ∧
      s.job.liveAt ≤ d.f 24 8 ∧ ∀ n, s.restore.armStep = some n → n = d.f 16 4 := by
  rw [armOk, hp, if_neg (by omega)]
  simp [and_assoc, Option.all_eq_true]

end

/-! ### PLAN_RETIRE -/

section
variable {e : Env} {s₀ s : State} {q : Fin 16} {j : Nat} {d : Desc} (hs : applyEnv e s₀ = s) (hd : descAt s q j Op.planRetire d = true)
include hs hd

/-- A PLAN_RETIRE that runs, as its function answers. -/
theorem exec_planRetire_descAt : exec (.planRetire e q j) s₀ = .next (charge (traffic s)
    (if s.plans.active.all fun p => p.id ≠ d.f 8 4 then complete q d (refusedWith 0xE4) s
      else complete q d { word := u32 (stepNum s + 1) } { s with plans.retireAt := some (stepNum s + 1) })) := by
  change execPlanRetire e q j s₀ = _
  rw [execPlanRetire, hs, withDesc_descAt hd]

theorem exec_planRetire_active {p : Plan} (hp : s.plans.active = some p) (hid : p.id = d.f 8 4) : exec (.planRetire e q j) s₀ =
    .next (charge (traffic s) (complete q d { word := u32 (stepNum s + 1) } { s with plans.retireAt := some (stepNum s + 1) })) := by
  rw [exec_planRetire_descAt hs hd, if_neg (by simp [hp, hid])]

theorem exec_planRetire_other (h : ∀ p, s.plans.active = some p → p.id ≠ d.f 8 4) :
    exec (.planRetire e q j) s₀ = .next (charge (traffic s) (complete q d (refusedWith 0xE4) s)) := by
  rw [exec_planRetire_descAt hs hd, if_pos (by simpa [Option.all_eq_true] using h)]

end

/-- Settles O20: each descriptor by the branches of its function, the arm's condition by its kind. -/
theorem planDescriptors : Obligations.PlanDescriptors := by
  unfold Obligations.PlanDescriptors
  exact ⟨fun e s₀ s q j d hs hd => ⟨fun hfits harmed => ⟨exec_planLoad_taken hs hd hfits harmed, exec_planLoad_failed hs hd hfits harmed⟩,
      exec_planLoad_armed hs hd, exec_planLoad_misfit hs hd⟩,
    fun e s₀ s q j d hs hd => ⟨exec_planArm_atStep hs hd, exec_planArm_atInstant hs hd, exec_planArm_notAllowed hs hd,
      exec_planArm_unknownKind hs hd⟩,
    fun s d p hp => ⟨armOk_atStep_iff hp, armOk_atInstant_iff hp⟩,
    fun e s₀ s q j d hs hd => ⟨fun _ => exec_planRetire_active hs hd, exec_planRetire_other hs hd⟩⟩

end Sys2Proof.Machine
end
section
/-! PROOF. The block of a job through the reduction (R102, R118, R124, R253, R257): opening a reach may close an older one, and with it write
results, repair pages and report them, but never moves the register that places the members of a group. -/

namespace Sys2Proof.Machine

open Sys2Proof

/-! ### The extents in force -/

/-- The extents of the job's block as a register store holds them (R102, R389). -/
def extentIn (regs : List (Nat × Word)) : Word := getKey Reg.jobExtentF (resetAt Reg.jobExtentF) regs

/-- A member's index in a group hangs on the state by the extents of the job's block alone. -/
theorem memberIn_of_extentIn {s t : State} (h : extentIn t.regs = extentIn s.regs) (g : Box) (c : Coord) : memberIn t g c = memberIn s g c := by
  have hreg : regNat t Reg.jobExtentF = regNat s Reg.jobExtentF := congrArg BitVec.toNat h
  simp only [memberIn, offsetsIn, extA, extB, extC, hreg]

/-- A choice between two states that have the extents of a third. -/
theorem extentIn_ite {b : Prop} [Decidable b] {s t u : State} (ht : extentIn t.regs = extentIn s.regs) (hu : extentIn u.regs = extentIn s.regs) :
    extentIn (if b then t else u).regs = extentIn s.regs := by
  split
  · exact ht
  · exact hu

theorem foldl_unchanged {α β : Type} {g : State → β} {f : State → α → State} (hf : ∀ u x, g (f u x) = g u) :
    ∀ (l : List α) (s : State), g (l.foldl f s) = g s
  | [], _ => rfl
  | x :: l, s => (foldl_unchanged hf l (f s x)).trans (hf s x)

/-! ### Stores of other registers -/

@[simp] theorem extentIn_regSet {off : Nat} (h : off ≠ Reg.jobExtentF) (v : Word) (s : State) :
    extentIn (regSet off v s).regs = extentIn s.regs := regGet_regSet_other h.symm v s

@[simp] theorem extentIn_regPut {off : Nat} (h : off ≠ Reg.jobExtentF) (n : Nat) (s : State) :
    extentIn (regPut off n s).regs = extentIn s.regs := extentIn_regSet h _ s

@[simp] theorem extentIn_count {off : Nat} (h : off ≠ Reg.jobExtentF) (n : Nat) (s : State) :
    extentIn (count off n s).regs = extentIn s.regs := extentIn_regPut h _ s

@[simp] theorem extentIn_flagEvent (n : Nat) (s : State) : extentIn (flagEvent n s).regs = extentIn s.regs := extentIn_regPut (by decide) _ s

/-- The registers of the channels lie above the job's (R402). -/
theorem chanReg_ne_jobExtentF {base : Nat} (h : Reg.jobExtentF < base) (a : Nat) : chanReg base a ≠ Reg.jobExtentF :=
  Nat.ne_of_gt (Nat.lt_of_lt_of_le h (Nat.le_add_right ..))

@[simp] theorem extentIn_count_chanReg {base : Nat} (h : Reg.jobExtentF < base) (a n : Nat) (s : State) :
    extentIn (count (chanReg base a) n s).regs = extentIn s.regs := extentIn_count (chanReg_ne_jobExtentF h a) n s

@[simp] theorem extentIn_wideAdd_chanReg {base : Nat} (h : Reg.jobExtentF < base) (a n : Nat) (s : State) :
    extentIn (wideAdd (chanReg base a) n s).regs = extentIn s.regs := by
  have hhi : chanReg base a + 4 ≠ Reg.jobExtentF :=
    Nat.ne_of_gt (Nat.lt_of_lt_of_le h (Nat.le_trans (Nat.le_add_right ..) (Nat.le_add_right _ 4)))
  rw [wideAdd, widePut, extentIn_regPut hhi, extentIn_regPut (chanReg_ne_jobExtentF h a)]

@[simp] theorem extentIn_report (q : Fin 16) (slots : List Bytes) (isEvent : Bool) (s : State) :
    extentIn (report q slots isEvent s).regs = extentIn s.regs := by
  refine regsKept_report q slots isEvent s Reg.jobExtentF fun h => ?_
  have hring : Reg.jobExtentF = Reg.ringLost + q.val * 0x100 := List.mem_singleton.1 h
  have hbelow : Reg.jobExtentF < Reg.ringLost := by decide
  omega

/-! ### What stores no register -/

@[simp] theorem updReach_regs (k : RKey) (f : Reach → Reach) (s : State) : (updReach k f s).regs = s.regs := rfl

@[simp] theorem updResult_regs (k : RKey) (f : ReachResult → ReachResult) (s : State) : (updResult k f s).regs = s.regs := by
  unfold updResult
  dsimp only
  split <;> rfl

@[simp] theorem noteResidue_regs (c : Nat) (s : State) : (noteResidue c s).regs = s.regs := rfl

@[simp] theorem putGrad_regs (g : GradFrame) (s : State) : (putGrad g s).regs = s.regs := rfl

@[simp] theorem newReach_regs (k : RKey) (i : RInfo) (s : State) : (newReach k i s).regs = s.regs := by
  unfold newReach
  split <;> rfl

@[simp] theorem sendPartial_regs (dst : Coord) (w off : Nat) (body : Payload) (s : State) : (sendPartial dst w off body s).regs = s.regs :=
  send_regs ..

@[simp] theorem sendTree_regs (t w off : Nat) (body : Payload) (s : State) : (sendTree t w off body s).regs = s.regs := send_regs ..

@[simp] theorem sendFrame_regs (dst : Coord) (k : RKey) (i : RInfo) (q : Nat) (fault : Bool) (a : FrameAcc) (s : State) :
    (sendFrame dst k i q fault a s).regs = s.regs := by
  unfold sendFrame
  dsimp only
  split <;> exact sendPartial_regs ..

@[simp] theorem sendReady_regs (force : Bool) (dst : Coord) (k : RKey) (i : RInfo) (kids : List Nat) : ∀ (l : List FrameAcc) (s : State),
    (sendReady force dst k i kids l s).regs = s.regs
  | [], _ => rfl
  | a :: l, s => by
    rw [sendReady]
    split
    · rfl
    · split
      · exact sendReady_regs force dst k i kids l s
      · split
        · simp [sendReady_regs force dst k i kids l]
        · rfl

@[simp] theorem path1Close_regs (k : RKey) (i : RInfo) (r : Reach) (s : State) : (path1Close k i r s).regs = s.regs :=
  foldl_unchanged (g := State.regs) (fun _ _ => sendPartial_regs ..) _ s

@[simp] theorem sendRepair_regs (dst : Coord) (r : RepairRec) (s : State) : (sendRepair dst r s).regs = s.regs := send_regs ..

@[simp] theorem sendPages_regs (dst : Coord) (w base : Nat) (ps : List (Nat × Bytes)) (s : State) : (sendPages dst w base ps s).regs = s.regs :=
  foldl_unchanged (g := State.regs) (fun _ _ => send_regs ..) ps s

@[simp] theorem launchPackets_regs (a : Attempt) (s : State) : (launchPackets a s).regs = s.regs := by
  unfold launchPackets
  dsimp only
  split
  · exact sendRepair_regs ..
  · split
    · exact sendRepair_regs ..
    · split
      · rw [sendRepair_regs, sendPages_regs]
      · split
        · rfl
        · exact sendRepair_regs ..

@[simp] theorem noteRange_regs (w : RepairFor) (f : RangeWait → RangeWait) (s : State) : (noteRange w f s).regs = s.regs := by
  cases w <;> rfl

@[simp] theorem markFailed_regs (w : RepairFor) (s : State) : (markFailed w s).regs = s.regs := by
  unfold markFailed
  split
  · rfl
  · split <;> rfl

@[simp] theorem makeAbsent_regs (slot : Nat) (s : State) : (makeAbsent slot s).regs = s.regs := by
  unfold makeAbsent
  split <;> rfl

@[simp] theorem takeInjection_regs (a : Nat) (s : State) : (takeInjection a s).2.regs = s.regs := by
  unfold takeInjection
  split <;> rfl

@[simp] theorem keepMerge_regs (a : Nat) (bs : Bytes) (page : Nat) (s : State) : (keepMerge a bs page s).regs = s.regs := rfl

/-! ### Pages read, written and escalated (R253 to R257) -/

@[simp] theorem extentIn_landFix (a : Nat) (pattern chk : Bytes) (s : State) : extentIn (landFix a pattern chk s).regs = extentIn s.regs := by
  simp (disch := decide) [landFix, clearBeats]

@[simp] theorem extentIn_reportCorrected (r a n : Nat) (f : Finder) (s : State) :
    extentIn (reportCorrected r a n f s).regs = extentIn s.regs := by
  unfold reportCorrected
  dsimp only
  split <;> simp (disch := decide)

@[simp] theorem extentIn_correctPage (r a n : Nat) (page chk : Bytes) (f : Finder) (s : State) :
    extentIn (correctPage r a n page chk f s).regs = extentIn s.regs := by
  unfold correctPage
  dsimp only
  split
  · rfl
  · split <;> simp

@[simp] theorem extentIn_readPage (r a : Nat) (f : Finder) (s : State) : extentIn (readPage r a f s).2.regs = extentIn s.regs := by
  unfold readPage
  dsimp only
  split
  · rfl
  · split <;> simp (disch := decide)

@[simp] theorem extentIn_readPages (r : Nat) (f : Finder) : ∀ (n a : Nat) (s : State), extentIn (readPages r f n a s).2.2.regs = extentIn s.regs
  | 0, _, _ => rfl
  | n + 1, a, s => (extentIn_readPages r f n (a + 4096) (readPage r a f s).2).trans (extentIn_readPage r a f s)

@[simp] theorem extentIn_overtakePage (a : Nat) (s : State) : extentIn (overtakePage a s).regs = extentIn s.regs := by
  unfold overtakePage
  exact extentIn_ite (extentIn_count (by decide) 1 s) rfl

@[simp] theorem extentIn_storePage (r a : Nat) (page : Bytes) (s : State) : extentIn (storePage r a page s).regs = extentIn s.regs := by
  simp (disch := decide) [storePage, clearBeats]

@[simp] theorem extentIn_writePart (r a : Nat) (bs : Bytes) (f : Finder) (s : State) :
    extentIn (writePart r a bs f s).2.regs = extentIn s.regs := by
  unfold writePart
  dsimp only
  rw [foldl_unchanged (g := fun s => extentIn s.regs) (fun _ _ => extentIn_storePage ..)]
  exact (foldl_unchanged (g := fun s => extentIn s.regs) (fun _ _ => congrArg extentIn (keepMerge_regs ..)) _ _).trans (extentIn_readPages ..)

@[simp] theorem extentIn_rebuildOrder (a : Nat) (w : RepairFor) (s : State) : extentIn (rebuildOrder a w s).regs = extentIn s.regs := by
  unfold rebuildOrder
  split
  · rfl
  · simp (disch := decide) [storeRepaired]

@[simp] theorem extentIn_cisternLost (a : Nat) (s : State) : extentIn (cisternLost a s).regs = extentIn s.regs := by
  unfold cisternLost
  exact extentIn_ite (extentIn_storePage ..) (extentIn_ite rfl (extentIn_ite rfl rfl))

@[simp] theorem extentIn_bankLost (slot : Nat) (s : State) : extentIn (bankLost slot s).regs = extentIn s.regs := by
  simp [bankLost, basinEvent]

@[simp] theorem extentIn_lostEffect (r a stripe : Nat) (s : State) : extentIn (lostEffect r a stripe s).regs = extentIn s.regs := by
  simp only [lostEffect, dropMerges]
  exact extentIn_ite (extentIn_bankLost ..) (extentIn_ite rfl (extentIn_ite (extentIn_cisternLost ..) rfl))

@[simp] theorem extentIn_reportUnrecoverable (r a : Nat) (f : Finder) (s : State) :
    extentIn (reportUnrecoverable r a f s).regs = extentIn s.regs := by
  unfold reportUnrecoverable pageEvent
  dsimp only
  split <;> simp (disch := decide)

@[simp] theorem extentIn_escalationFailed (r a stripe : Nat) (w : RepairFor) (s : State) :
    extentIn (escalationFailed r a stripe w s).regs = extentIn s.regs := by
  unfold escalationFailed pageLost
  extract_lets noted asked
  split
  · exact congrArg extentIn (noteRange_regs ..)
  · split <;> simp [noted]

@[simp] theorem extentIn_listedFails (r a stripe : Nat) (w : RepairFor) (s : State) :
    extentIn (listedFails r a stripe w s).regs = extentIn s.regs := by
  simp [listedFails]

@[simp] theorem extentIn_tryAttempts (r a target stripe : Nat) (w : RepairFor) : ∀ (l : List (Nat × Nat)) (s : State),
    extentIn (tryAttempts r a target stripe w l s).regs = extentIn s.regs
  | [], s => extentIn_escalationFailed r a stripe w s
  | (_, _) :: l, s => by
    rw [tryAttempts]
    refine extentIn_ite (extentIn_tryAttempts r a target stripe w l s) (extentIn_ite rfl ?_)
    rw [launchPackets_regs, takeTag]

@[simp] theorem extentIn_escalate (r a : Nat) (w : RepairFor) (s : State) : extentIn (escalate r a w s).regs = extentIn s.regs := by
  unfold escalate
  exact extentIn_ite (extentIn_rebuildOrder ..) (extentIn_ite rfl
    (extentIn_ite (extentIn_ite (extentIn_escalationFailed ..) (extentIn_listedFails ..)) (extentIn_tryAttempts ..)))

@[simp] theorem extentIn_mergeWrite (r a : Nat) (bs : Bytes) (w : RepairFor) (s : State) :
    extentIn (mergeWrite r a bs w s).regs = extentIn s.regs :=
  (foldl_unchanged (g := fun s => extentIn s.regs) (fun _ _ => extentIn_escalate ..) _ _).trans (extentIn_writePart ..)

/-! ### Results taken and sent (R124, R134) -/

@[simp] theorem extentIn_takeExps (k : RKey) (i : RInfo) (f : Nat) (es : List Int) (s : State) :
    extentIn (takeExps k i f es s).regs = extentIn s.regs := by
  unfold takeExps
  split
  · rfl
  · refine foldl_unchanged (g := fun s => extentIn s.regs) (fun u c => ?_) _ s
    exact extentIn_ite (extentIn_mergeWrite ..) rfl

@[simp] theorem extentIn_refreshTouch (p : Plan) (t : TensorEntry) (s : State) : extentIn (refreshTouch p t s).regs = extentIn s.regs := by
  unfold refreshTouch
  exact extentIn_ite rfl (extentIn_mergeWrite ..)

@[simp] theorem extentIn_convertFrame (k : RKey) (i : RInfo) (f n : Nat) (fault : Bool) (ls : List Lane) (s : State) :
    extentIn (convertFrame k i f n fault ls s).regs = extentIn s.regs := by
  unfold convertFrame
  split
  · rfl
  split
  · rfl
  extract_lets bad counted noted d w ws first written
  have hcounted : extentIn counted.regs = extentIn s.regs := extentIn_ite rfl (extentIn_count (by decide) bad s)
  have hnoted : extentIn noted.regs = extentIn s.regs := extentIn_ite (by rwa [updResult_regs, noteResidue_regs]) hcounted
  have hwritten : extentIn written.regs = extentIn s.regs := (extentIn_mergeWrite ..).trans hnoted
  split
  · rwa [extentIn_refreshTouch, putGrad_regs]
  · exact hwritten

@[simp] theorem extentIn_takeResult (k : RKey) (i : RInfo) (f n : Nat) (fault : Bool) (ls : List Lane) (es : List Int) (s : State) :
    extentIn (takeResult k i f n fault ls es s).regs = extentIn s.regs := by
  unfold takeResult
  dsimp only
  rw [updResult_regs]
  exact extentIn_ite (extentIn_takeExps ..) (extentIn_convertFrame ..)

@[simp] theorem takeRecord_regs (k : RKey) (i : RInfo) (rec : ResultRec) (fault : Bool) (s : State) :
    (takeRecord k i rec fault s).regs = s.regs := by
  unfold takeRecord
  dsimp only
  rw [updResult_regs]
  (repeat' split) <;> rfl

@[simp] theorem sendResult_regs (k : RKey) (i : RInfo) (fault : Bool) (rec : ResultRec) (s : State) :
    (sendResult k i fault rec s).regs = s.regs := by
  simp [sendResult]

@[simp] theorem extentIn_settleReach (force : Bool) (k : RKey) (i : RInfo) (s : State) :
    extentIn (settleReach force k i s).regs = extentIn s.regs := by
  unfold settleReach
  split
  · rfl
  · extract_lets fs
    refine extentIn_ite rfl ?_
    rw [sendResult_regs]
    exact (extentIn_count (by decide) ..).trans ((extentIn_count (by decide) ..).trans (extentIn_count (by decide) ..))

@[simp] theorem extentIn_rootClose (k : RKey) (i : RInfo) (r : Reach) (s : State) : extentIn (rootClose k i r s).regs = extentIn s.regs := by
  unfold rootClose
  dsimp only
  rw [extentIn_settleReach]
  exact foldl_unchanged (g := fun s => extentIn s.regs) (fun u a => by rw [extentIn_takeResult, sendTree_regs]) _ s

/-! ### Reaches taken on and opened (R118, R121) -/

@[simp] theorem extentIn_advanceReach (force : Bool) (k : RKey) (s : State) : extentIn (advanceReach force k s).regs = extentIn s.regs := by
  unfold advanceReach
  split
  case h_2 => rfl
  split
  · rfl
  extract_lets kids late cutOff full
  have hcut : extentIn cutOff.regs = extentIn s.regs := extentIn_count (by decide) ..
  clear_value cutOff
  split
  · split
    · exact hcut
    · dsimp only
      split
      · simpa using hcut
      · split <;> simpa using hcut
  · split
    · exact hcut
    · split
      · exact hcut
      · exact extentIn_ite ((congrArg extentIn (path1Close_regs ..)).trans hcut) ((extentIn_rootClose ..).trans hcut)

@[simp] theorem extentIn_openFor (k : RKey) (i : RInfo) (s : State) : extentIn (openFor k i s).regs = extentIn s.regs := by
  unfold openFor
  split
  · rfl
  · dsimp only
    rw [newReach_regs]
    split
    · exact extentIn_advanceReach ..
    · split
      · split
        · exact extentIn_advanceReach ..
        · rfl
      · rfl

/-- Opening a reach moves no chip of the group (R102). -/
theorem memberIn_openFor (k : RKey) (i : RInfo) (s : State) (g : Box) (c : Coord) : memberIn (openFor k i s) g c = memberIn s g c :=
  memberIn_of_extentIn (extentIn_openFor k i s) g c

end Sys2Proof.Machine
end
section
/-! PROOF. Packets of the reduction (R115, R117, R121 to R124, R128, R129, R133): each judged once, then what a good one does; the frames and
records of children combined, and the final frames of the second path held. -/

namespace Sys2Proof.Machine

open Sys2Proof

/-! ### A packet judged (R128, R129) -/

section
variable {p : Prefix} {c : Coord} {down : Bool} {off : Nat} {s : State}

theorem judgedAway_withPacket (go : RInfo → State → State) :
    judgedAway p (judgePacket s p c down off) s (.next (withPacket p c down off go s)) :=
  ⟨fun hv => by simp [withPacket, hv], fun hv => by simp [withPacket, hv], fun hv => by simp [withPacket, hv]⟩

theorem withPacket_good {i : RInfo} (hv : judgePacket s p c down off = 3)
    (hi : infoOf s { keyOf p with path1 := false, retry := false } = some i) (ha : s.red.aborted.contains p.coll = false)
    (go : RInfo → State → State) : withPacket p c down off go s = go i s := by
  rw [withPacket, hv, if_neg (by decide), if_neg (by decide), if_neg (by decide)]
  simp only [hi, ha, Bool.false_eq_true, if_false]

end

/-! ### Upward frames and records (R121 to R123) -/

/-- Whether what member m sends of a reach comes too late: the reach is closed to it, or its cut-off has passed (R121, R122). -/
def tooLate (s : State) (k : RKey) (i : RInfo) (m : Nat) : Bool :=
  ((reachAt s k).any fun r => r.closed || r.cut.contains m) || decide (cutoffAt s k i < s.ht)

theorem tooLate_eq_false {s : State} {k : RKey} {i : RInfo} {m : Nat} (hopen : ((reachAt s k).any fun r => r.closed || r.cut.contains m) = false)
    (ht : s.ht ≤ cutoffAt s k i) : tooLate s k i m = false := by
  simp only [tooLate, hopen, Bool.false_or, decide_eq_false_iff_not, Nat.not_lt, ht]

theorem tooLate_eq_true {s : State} {k : RKey} {i : RInfo} {m : Nat}
    (h : ((reachAt s k).any fun r => r.closed || r.cut.contains m) = true ∨ cutoffAt s k i < s.ht) : tooLate s k i m = true := by
  simpa only [tooLate, Bool.or_eq_true, decide_eq_true_eq] using h

/-- The fault flag of a packet kept with its reach (R130). -/
def keepFault (fault : Bool) (k : RKey) (s : State) : State := if fault then updReach k (fun r => { r with fault := true }) s else s

/-- A frame of member m added into its frame f, its lanes or exponents brought to the frame's length (R115). -/
def addFrame (p : Prefix) (i : RInfo) (f m : Nat) (ls : List Lane) (es : List Int) (s : State) : State :=
  addInto (keyOf p) f p.count (some m) (if (keyOf p).scale then [] else fitTo (i.frameLen f) ⟨0, 0⟩ ls)
    (if (keyOf p).scale then fitTo (i.frameLen f) 0 es else []) (openFor (keyOf p) i s)

/-- A record of member m: its members joined, the child's record marked in (R123). -/
def addRecord (p : Prefix) (i : RInfo) (m : Nat) (bitmap : List Nat) (s : State) : State :=
  updReach (keyOf p) (fun r => { r with
    records := unionIdx r.records [m], bitmap := unionIdx r.bitmap (bitmap.filter (· < i.box.size)), fault := r.fault || p.fault })
    (openFor (keyOf p) i s)

section
variable {p : Prefix} {c : Coord} {s : State} {i : RInfo} (hi : infoOf s { keyOf p with path1 := false, retry := false } = some i)
  (ha : s.red.aborted.contains p.coll = false)
include hi ha

theorem upFrame_good {off f : Nat} (hv : judgePacket s p c false off = 3) (hf : frameNamed s (keyOf p) i off = some f) (ls : List Lane)
    (es : List Int) : upFrame p c off ls es s =
      if tooLate s (keyOf p) i (memberIn s i.box c) then count Reg.redLate 1 s
      else if (reachAt s (keyOf p)).any fun r => r.frames.any fun a => a.f = f && a.kids.contains (memberIn s i.box c) then s
      else pumpReduction (keepFault p.fault (keyOf p) (addFrame p i f (memberIn s i.box c) ls es s)) := by
  rw [upFrame, withPacket_good hv hi ha]
  obtain hnone | ⟨r, hsome⟩ := Option.eq_none_or_eq_some (reachAt s (keyOf p))
  · simp only [hf, hnone, tooLate, memberIn_openFor]
    rfl
  · simp only [hf, hsome, tooLate, memberIn_openFor]
    rfl

theorem upRecord_good (hv : judgePacket s p c false 0 = 3) (bitmap : List Nat) : upRecord p c bitmap s =
    if tooLate s (keyOf p) i (memberIn s i.box c) then count Reg.redLate 1 s
    else pumpReduction (addRecord p i (memberIn s i.box c) bitmap s) := by
  rw [upRecord, withPacket_good hv hi ha, tooLate]
  obtain hnone | ⟨r, hsome⟩ := Option.eq_none_or_eq_some (reachAt s (keyOf p))
  · simp only [hnone]
    rfl
  · simp only [hsome]
    rfl

end

theorem exec_partialFrame_delivered {e : Env} {s₀ s : State} {h : PktHead} {body : Payload} {p : Prefix} {ls : List Lane} {es : List Int}
    (hs : applyEnv e s₀ = s) (hb : frameParts body = some (p, ls, es)) (hdown : p.down = false) (hrec : p.record = false)
    (hab : p.abort = false) (hd : delivered s h 4 (frameWindow p) (wireLen s body) = true) :
    exec (.partialFrame e h body) s₀ = .next (upFrame p h.sender h.offset ls es s) := by
  change execPartialFrame e h body s₀ = _
  simp [execPartialFrame, hs, hb, hdown, hrec, hab, receive_delivered hd]

theorem exec_partialRecord_delivered {e : Env} {s₀ s : State} {h : PktHead} {p : Prefix} {bitmap : List Nat} (hs : applyEnv e s₀ = s)
    (hdown : p.down = false) (hrec : p.record = true) (hab : p.abort = false)
    (hd : delivered s h 4 63 (wireLen s (.upRecord p bitmap)) = true) :
    exec (.partialRecord e h p bitmap) s₀ = .next (upRecord p h.sender bitmap s) := by
  change execPartialRecord e h p bitmap s₀ = _
  simp [execPartialRecord, hs, hdown, hrec, hab, receive_delivered hd]

/-! ### Final frames of the second path (R122, R133) -/

/-- The path-0 reach with which a packet of path 1 is compared. -/
def firstPath (p : Prefix) : RKey := { keyOf p with path1 := false }

/-- Whether the two results of a reach have been compared: a retried reach closed, any other one settled (R134, R135). -/
def comparisonOver (s : State) (k : RKey) : Bool :=
  if k.retry then (reachAt s k).any fun r => r.closed else s.red.settled.contains (k.coll, k.reach)

theorem exec_path1FinalFrame_delivered {e : Env} {s₀ s : State} {h : PktHead} {p : Prefix} {ls : List Lane} (hs : applyEnv e s₀ = s)
    (hpath : p.path = true) (hdown : p.down = false) (hrec : p.record = false) (hab : p.abort = false) (hoff : 1572864 ≤ h.offset)
    (hd : delivered s h 4 62 (wireLen s (.lanes p ls)) = true) :
    exec (.path1FinalFrame e h p ls) s₀ = .next (pumpReduction (takeFinal p h.sender h.offset ls s)) := by
  change execPath1FinalFrame e h p ls s₀ = _
  simp [execPath1FinalFrame, hs, hpath, hdown, hrec, hab, Nat.not_lt.2 hoff, receive_delivered hd]

/-- A final frame whose root, reach, digest and place fit, in the order of its checks. -/
theorem takeFinal_fits {p : Prefix} {c : Coord} {off f : Nat} {s : State} {i : RInfo} (hcheck : s.red.checkStarted = false)
    (hi : infoOf s { firstPath p with retry := false } = some i) (hdual : i.dual = true) (hroot : i.rootChip s false = here s)
    (hc : c = i.rootChip s true) (hdig : p.digest = i.digest) (hf : frameNamed s { firstPath p with path1 := true } i off = some f)
    (ha : s.red.aborted.contains p.coll = false) (ls : List Lane) : takeFinal p c off ls s =
      if comparisonOver s (firstPath p) then count Reg.redLate 1 s
      else if (path1Of s (firstPath p) f).isSome then s
      else keepFinal p (firstPath p) i f ls s := by
  simp only [firstPath] at hi hf
  rw [takeFinal, if_neg (by simp [hcheck])]
  simp only [hi]
  rw [if_neg (by simp [hdual, hroot, hc])]
  simp only [hf]
  rw [if_neg (by simp [hdig]), if_neg (by simp only [ha, Bool.false_eq_true, not_false_eq_true])]
  rfl

/-- Settles O40: a delivered packet is its function, which takes a good one by its lateness and by whether it has come before. -/
theorem contributionsCombined : Obligations.ContributionsCombined := by
  unfold Obligations.ContributionsCombined
  refine ⟨fun e s₀ s h body p ls es hs hb hdown hrec hab hd => ?_, fun e s₀ s h p bitmap hs hdown hrec hab hd => ?_, ?_⟩
  · rw [exec_partialFrame_delivered hs hb hdown hrec hab hd]
    refine ⟨judgedAway_withPacket _, fun i f hv hi ha hf => ?_⟩
    rw [upFrame_good hi ha hv hf]
    refine ⟨fun hopen ht hnew => ?_, fun hopen ht htwice => ?_, fun hlate => ?_⟩
    · rw [tooLate_eq_false hopen ht, if_neg Bool.false_ne_true, if_neg (Bool.eq_false_iff.1 hnew)]
      rfl
    · rw [tooLate_eq_false hopen ht, if_neg Bool.false_ne_true, if_pos htwice]
    · rw [if_pos (tooLate_eq_true hlate)]
  · rw [exec_partialRecord_delivered hs hdown hrec hab hd]
    refine ⟨judgedAway_withPacket _, fun i hv hi ha => ?_⟩
    rw [upRecord_good hi ha hv]
    refine ⟨fun hopen ht => ?_, fun hlate => ?_⟩
    · rw [tooLate_eq_false hopen ht, if_neg Bool.false_ne_true]
      rfl
    · rw [if_pos (tooLate_eq_true hlate)]
  · intro e s₀ s h p ls i f hs hpath hdown hrec hab hoff hd hcheck k hi hdual hroot hc hdig hf ha
    rw [exec_path1FinalFrame_delivered hs hpath hdown hrec hab hoff hd, takeFinal_fits hcheck hi hdual hroot hc hdig hf ha]
    refine ⟨fun hbefore hnone => ?_, fun hbefore hheld => ?_, fun hover => ?_⟩ <;>
      refine congrArg (fun t => Host.Outcome.next (pumpReduction t)) ?_
    · exact (if_neg (Bool.eq_false_iff.1 hbefore)).trans (if_neg (Option.not_isSome_iff_eq_none.2 hnone))
    · exact (if_neg (Bool.eq_false_iff.1 hbefore)).trans (if_pos hheld)
    · exact if_pos hover

end Sys2Proof.Machine
end
section
/-! PROOF. Results, result records, retried frames and aborts of the reduction (R117, R124, R128, R129, R135). -/

namespace Sys2Proof.Machine

open Sys2Proof

/-! ### Results and their records (R117, R124) -/

theorem downFrame_good {p : Prefix} {c : Coord} {off f : Nat} {s : State} {i : RInfo} (hv : judgePacket s p c true off = 3)
    (hi : infoOf s { keyOf p with path1 := false, retry := false } = some i) (ha : s.red.aborted.contains p.coll = false)
    (hf : frameNamed s (keyOf p) i off = some f) (ls : List Lane) (es : List Int) : downFrame p c off ls es s =
      takeResult (keyOf p) i f p.count p.fault (if (keyOf p).scale then [] else fitTo (i.frameLen f) ⟨0, 0⟩ ls)
        (if (keyOf p).scale then fitTo (i.frameLen f) 0 es else []) s := by
  rw [downFrame, withPacket_good hv hi ha]
  simp only [hf]

theorem exec_resultFrame_delivered {e : Env} {s₀ s : State} {h : PktHead} {body : Payload} {p : Prefix} {ls : List Lane} {es : List Int}
    (hs : applyEnv e s₀ = s) (hb : frameParts body = some (p, ls, es)) (hdown : p.down = true) (hrec : p.record = false)
    (hab : p.abort = false) (hd : delivered s h 4 61 (wireLen s body) = true) :
    exec (.resultFrame e h body) s₀ = .next (downFrame p h.sender h.offset ls es s) := by
  change execResultFrame e h body s₀ = _
  simp [execResultFrame, hs, hb, hdown, hrec, hab, receive_delivered hd]

theorem exec_resultRecord_delivered {e : Env} {s₀ s : State} {h : PktHead} {p : Prefix} {r : ResultRec} (hs : applyEnv e s₀ = s)
    (hdown : p.down = true) (hrec : p.record = true) (hab : p.abort = false)
    (hd : delivered s h 4 63 (wireLen s (.resultRecord p r)) = true) : exec (.resultRecord e h p r) s₀ =
      .next (withPacket p h.sender true 0 (fun i s => pumpReduction (takeRecord (keyOf p) i r p.fault s)) s) := by
  change execResultRecord e h p r s₀ = _
  simp [execResultRecord, hs, hdown, hrec, hab, receive_delivered hd]

/-! ### Retried frames (R135) -/

section
variable {e : Env} {s₀ s : State} {h : PktHead} {p : Prefix} {ls : List Lane} (hs : applyEnv e s₀ = s) (hretry : p.retry = true)
  (hrec : p.record = false) (hab : p.abort = false)
include hs hretry hrec hab

theorem exec_retryFrame_down (hdown : p.down = true) (hd : delivered s h 4 61 (wireLen s (.lanes p ls)) = true) :
    exec (.retryFrame e h p ls) s₀ = .next (downFrame p h.sender h.offset ls [] s) := by
  change execRetryFrame e h p ls s₀ = _
  simp [execRetryFrame, hs, hretry, hrec, hab, hdown, receive_delivered hd]

theorem exec_retryFrame_up (hdown : p.down = false) (hd : delivered s h 4 (frameWindow p) (wireLen s (.lanes p ls)) = true) :
    exec (.retryFrame e h p ls) s₀ = .next (upFrame p h.sender h.offset ls [] s) := by
  change execRetryFrame e h p ls s₀ = _
  simp [execRetryFrame, hs, hretry, hrec, hab, hdown, receive_delivered hd]

end

/-! ### Aborts (R128, R129) -/

theorem exec_abortRecord_delivered {e : Env} {s₀ s : State} {h : PktHead} {p : Prefix} (hs : applyEnv e s₀ = s) (hab : p.abort = true)
    (hrec : p.record = true) (hd : delivered s h 4 63 (wireLen s (.abortRecord p)) = true) :
    exec (.abortRecord e h p) s₀ = .next (pumpReduction (takeAbort p h.sender s)) := by
  change execAbortRecord e h p s₀ = _
  simp [execAbortRecord, hs, hab, hrec, receive_delivered hd]

/-- Whether R128 lets a chip send an abort of a reach here: the root downward, a child or the other root upward, on a path that the
collective has. -/
def AbortFits (s : State) (p : Prefix) (i : RInfo) (c : Coord) : Prop :=
  ((keyOf p).path1 && !i.dual) = false ∧ (p.down = true ∧ c = i.rootChip s false ∨ p.down = false ∧ abortSender s p i c = true)

/-- A digest that does not fit counted (R129). -/
def countDigest (p : Prefix) (i : RInfo) (s : State) : State := if p.digest ≠ i.digest then count Reg.redDigest 1 s else s

theorem takeAbort_checkStarted {p : Prefix} {s : State} (hcheck : s.red.checkStarted = true) (c : Coord) : takeAbort p c s = s := by
  rw [takeAbort, if_pos hcheck]

section
variable {p : Prefix} {s : State} (hcheck : s.red.checkStarted = false)
include hcheck

theorem takeAbort_unknown (hi : infoOf s { keyOf p with path1 := false, retry := false } = none) (c : Coord) :
    takeAbort p c s = count Reg.redDigest 1 s := by
  simp [takeAbort, hcheck, hi]

variable {i : RInfo} {c : Coord} (hi : infoOf s { keyOf p with path1 := false, retry := false } = some i)
include hi

theorem takeAbort_fits (hfits : AbortFits s p i c) : takeAbort p c s =
    if p.down then discardColl (keyOf p) (countDigest p i s) else abortUp { keyOf p with retry := false } (countDigest p i s) := by
  obtain ⟨hpath, hsender⟩ := hfits
  rw [takeAbort, if_neg (by simp [hcheck])]
  simp only [hi, hpath]
  rcases hsender with ⟨hdown, hc⟩ | ⟨hdown, hc⟩
  · simp [hdown, hc, countDigest]
  · simp [hdown, hc, countDigest]

theorem takeAbort_misfit (hmis : ¬ AbortFits s p i c) : takeAbort p c s = count Reg.redDigest 1 s := by
  rw [takeAbort, if_neg (by simp [hcheck])]
  simp only [hi]
  refine if_pos ?_
  unfold AbortFits at hmis
  cases hpath : ((keyOf p).path1 && !i.dual)
  · cases hdown : p.down <;> simpa [hpath, hdown] using hmis
  · rfl

end

/-- Settles O41: a delivered packet is its function; a good one by what it carries, an abort by whether its sender may send it. -/
theorem resultsTaken : Obligations.ResultsTaken := by
  unfold Obligations.ResultsTaken
  refine ⟨fun e s₀ s h body p ls es hs hb hdown hrec hab hd => ?_, fun e s₀ s h p r hs hdown hrec hab hd => ?_,
    fun e s₀ s h p ls hs hretry hrec hab => ⟨fun hdown hd => ?_, fun hdown hd => ?_, fun i f hscale hi ha hf => ?_⟩,
    fun e s₀ s h p hs hab hrec hd => ?_⟩
  · rw [exec_resultFrame_delivered hs hb hdown hrec hab hd]
    exact ⟨judgedAway_withPacket _, fun i f hv hi ha hf => by rw [downFrame_good hv hi ha hf]⟩
  · rw [exec_resultRecord_delivered hs hdown hrec hab hd]
    exact ⟨judgedAway_withPacket _, fun i hv hi ha => by rw [withPacket_good hv hi ha]⟩
  · rw [exec_retryFrame_down hs hretry hrec hab hdown hd]
    exact judgedAway_withPacket _
  · rw [exec_retryFrame_up hs hretry hrec hab hdown hd]
    exact judgedAway_withPacket _
  · refine ⟨fun hdown hd hv => ?_, fun hdown hd hv hopen ht hnew => ?_⟩
    · rw [exec_retryFrame_down hs hretry hrec hab hdown hd, downFrame_good hv hi ha hf, hscale]
      rfl
    · rw [exec_retryFrame_up hs hretry hrec hab hdown hd, upFrame_good hi ha hv hf, tooLate_eq_false hopen ht, if_neg Bool.false_ne_true,
        if_neg (Bool.eq_false_iff.1 hnew), addFrame, hscale]
      rfl
  · rw [exec_abortRecord_delivered hs hab hrec hd]
    refine ⟨fun hcheck => by rw [takeAbort_checkStarted hcheck], fun hcheck hi => by rw [takeAbort_unknown hcheck hi],
      fun i hcheck hi => ⟨fun hfits hdown => ?_, fun hfits hdown => ?_, fun hmis => by rw [takeAbort_misfit hcheck hi hmis]⟩⟩
    · rw [takeAbort_fits hcheck hi hfits, if_pos hdown]
      rfl
    · rw [takeAbort_fits hcheck hi hfits, if_neg (by simp [hdown])]
      rfl

end Sys2Proof.Machine
end
section
/-! PROOF. Cut-offs and deadlines of the reduction (R121, R124, R134, R135). -/

namespace Sys2Proof.Machine

open Sys2Proof

/-- What a command of the reduction's clock does while the reduction runs, and that it does nothing when it no longer does. -/
def whileReducing (go : State → State) (s : State) : State := if reduceRuns s then go s else s

theorem whileReducing_runs {s : State} (h : reduceRuns s = true) (go : State → State) : whileReducing go s = go s := if_pos h

theorem whileReducing_over {s : State} (h : reduceRuns s = false) (go : State → State) : whileReducing go s = s := if_neg (by simp [h])

/-- The open retries that this chip roots, each closed once its deadline has come (R135). -/
def closeRetries (s : State) : State :=
  (rootRetries s).foldl (fun s ki => if s.ht < deadlineAt s ki.1 ki.2 then s else retryClose ki.1 ki.2 (openFor ki.1 ki.2 s)) s

section
variable {e : Env} {s₀ s : State} (hs : applyEnv e s₀ = s)
include hs

theorem exec_reduceCutoff (i root : Nat) (path1 : Bool) : exec (.reduceCutoff e i path1 root) s₀ =
    .next (whileReducing (fun s => pumpReduction (cutTurn i path1 (fun inf => inf.root = root) s)) s) := by
  subst hs
  rfl

theorem exec_reduceDeadline (i : Nat) : exec (.reduceDeadline e i) s₀ =
    .next (whileReducing (fun s => pumpReduction (cutTurn i false (fun inf => inf.rootChip s false = here s) s)) s) := by
  subst hs
  rfl

theorem exec_retryDeadline : exec (.retryDeadline e) s₀ = .next (whileReducing closeRetries s) := by
  subst hs
  rfl

theorem exec_dualPathSettle_over (hr : reduceRuns s = false) (coll reach : Nat) : exec (.dualPathSettle e coll reach) s₀ = .next s := by
  change execDualPathSettle e coll reach s₀ = _
  rw [execDualPathSettle, hs]
  cases hi : infoOf s { scale := false, coll := coll, reach := reach } <;> simp [hr]

theorem exec_dualPathSettle_root {coll reach : Nat} {i : RInfo} (hr : reduceRuns s = true)
    (hi : infoOf s { scale := false, coll := coll, reach := reach } = some i) (hroot : i.rootChip s false = here s)
    (ha : s.red.aborted.contains coll = false) : exec (.dualPathSettle e coll reach) s₀ = .next (pumpReduction (settleReach
      (decide (deadlineAt s { scale := false, coll := coll, reach := reach } i + 2 * (s.plans.active.map Plan.routeBound).getD 0 ≤ s.ht))
      { scale := false, coll := coll, reach := reach } i s)) := by
  change execDualPathSettle e coll reach s₀ = _
  rw [execDualPathSettle, hs]
  simp only [hi, hr, hroot, ha, decide_true, Bool.not_false, Bool.and_self, if_true]

end

/-- A reach whose cut-off has not passed, or whose collective is aborted, is not cut (R121, R128). -/
theorem cutReach_kept {k : RKey} {i : RInfo} {s : State} (h : s.ht < cutoffAt s k i ∨ s.red.aborted.contains k.coll = true) :
    cutReach k i s = s := if_pos h

/-- Settles O42: each command by whether the reduction runs. -/
theorem cutoffsAndDeadlines : Obligations.CutoffsAndDeadlines := by
  unfold Obligations.CutoffsAndDeadlines
  refine ⟨fun e s₀ s i root coll reach path1 hs => ?_, fun _ _ _ => cutReach_kept, fun e s₀ s coll reach i hs => exec_dualPathSettle_root hs⟩
  rw [exec_reduceCutoff hs, exec_reduceDeadline hs, exec_retryDeadline hs]
  refine ⟨fun hr => ?_, fun hr => ?_⟩
  · rw [whileReducing_runs hr, whileReducing_runs hr, whileReducing_runs hr]
    exact ⟨rfl, rfl, rfl⟩
  · rw [whileReducing_over hr, whileReducing_over hr, whileReducing_over hr]
    exact ⟨rfl, rfl, rfl, exec_dualPathSettle_over hs hr coll reach⟩

end Sys2Proof.Machine
end
section
/-! PROOF. Delta pages (R185, R188, R192, R221, R254): the accumulate of a page byte by byte, and what a delivered page comes to. -/

namespace Sys2Proof.Machine

open Sys2Proof

/-! ### Bytes XORed into memory -/

theorem length_readFrom : ∀ (n a : Nat) (m : Mem), (readFrom n a m).length = n
  | 0, _, _ => rfl
  | n + 1, a, [] => congrArg (· + 1) (length_readFrom n (a + 1) [])
  | n + 1, a, c :: cs => by
    rw [readFrom]
    split
    · exact congrArg (· + 1) (length_readFrom n (a + 1) cs)
    · exact congrArg (· + 1) (length_readFrom n (a + 1) (c :: cs))

theorem length_xorBytes : ∀ as bs : Bytes, (xorBytes as bs).length = as.length
  | [], _ => rfl
  | _ :: _, [] => rfl
  | _ :: as, _ :: bs => congrArg (· + 1) (length_xorBytes as bs)

/-- A byte of an XOR, within the bytes of its first operand. -/
theorem getD_xorBytes : ∀ {as bs : Bytes} {i : Nat}, i < as.length → (xorBytes as bs).getD i 0#8 = as.getD i 0#8 ^^^ bs.getD i 0#8
  | [], _, _, h => absurd h (Nat.not_lt_zero _)
  | _ :: _, [], _, _ => by simp [xorBytes]
  | _ :: _, _ :: _, 0, _ => by simp [xorBytes]
  | a :: as, b :: bs, i + 1, h => by
    have ih := getD_xorBytes (bs := bs) (Nat.lt_of_succ_lt_succ h)
    simpa [xorBytes] using ih

/-- Bytes XORed into memory change each byte of their range by their own, and no other. -/
theorem readByte_xorInto (a : Nat) (bs : Bytes) (m : Mem) (x : Nat) :
    readByte (xorInto a bs m) x = if a ≤ x ∧ x < a + bs.length then
      bs.getD (x - a) 0#8 ^^^ (readBytes m a bs.length).getD (x - a) 0#8 else readByte m x := by
  unfold xorInto
  split
  next hin =>
    rw [readByte_writeBytes_in _ _ hin.1 (by rw [length_xorBytes]; exact hin.2), getD_xorBytes (by omega)]
  next hout => exact readByte_writeBytes_out _ _ (by rw [length_xorBytes]; omega)

theorem slice_whole {n : Nat} {bs : Bytes} (h : bs.length = n) : slice 0 n bs = bs := by simp [slice, ← h]

/-! ### The accumulate of a page (R254) -/

theorem wideAdd_regs (lo n : Nat) (s : State) : ∃ rs, wideAdd lo n s = { s with regs := rs } := ⟨_, rfl⟩

/-- An accumulate changes the page in HBM, its check data and the registers, and nothing else. -/
theorem accumPage_eq (r a : Nat) (bs : Bytes) (s : State) :
    ∃ ck rs, accumPage r a bs s = { s with hbm := xorInto a (slice 0 4096 bs) s.hbm, check := ck, regs := rs } := by
  unfold accumPage
  extract_lets t p added
  obtain ⟨rs, hrd⟩ := wideAdd_regs (chanReg Reg.chRdLo a) (4096 + 4 * t) added
  obtain ⟨rs', hwr⟩ := wideAdd_regs (chanReg Reg.chWrLo a) (4096 + 4 * t) { added with regs := rs }
  rw [hrd, hwr]
  exact ⟨_, rs', rfl⟩

/-- An accumulate counts in its channel's read and write pairs: a register below those keeps its value. -/
theorem regGet_accumPage {o : Nat} (h : o < Reg.chRdLo) (r a : Nat) (bs : Bytes) (s : State) :
    regGet (accumPage r a bs s) o = regGet s o := by
  have hrd : Reg.chRdLo ≤ chanReg Reg.chRdLo a := chanReg_le
  have hwr : Reg.chWrLo ≤ chanReg Reg.chWrLo a := chanReg_le
  have hbelow : Reg.chRdLo < Reg.chWrLo := by decide
  rw [accumPage, regGet_wideAdd_other _ _ (by omega) (by omega), regGet_wideAdd_other _ _ (by omega) (by omega)]
  rfl

/-! ### A page of a contribution taken (R192, R221) -/

/-- Which parities are local, and whether the chip keeps a basin code, hangs on the geometry in force alone. -/
theorem isLocal_of_geom {s t : State} (h : regGet t Reg.basinGeomF = regGet s Reg.basinGeomF) (j : Nat) : isLocal t j = isLocal s j := by
  rw [isLocal, isLocal, groupsOf, groupsOf, geoK, geoK, regNat, regNat, h]

theorem basinMode_of_geom {s t : State} (h : regGet t Reg.basinGeomF = regGet s Reg.basinGeomF) : basinMode t = basinMode s := by
  rw [basinMode, basinMode, geoSet, geoSet, geoMode, geoMode, regNat, regNat, h]

theorem getKey_putKey_same {κ α : Type} [DecidableEq κ] (k : κ) (v d : α) : ∀ l : List (κ × α), getKey k d (putKey k v l) = v
  | [] => by simp [putKey, getKey]
  | (k', v') :: l => by
    by_cases h : k' = k
    · simp [putKey, getKey, h]
    · simp [putKey, getKey, h, getKey_putKey_same k v d l]

/-- A page noted shows in the pending mask. -/
theorem testBit_pendingOf_notePending {page : Nat} (h : page < 16) (slot c : Nat) (s : State) :
    (pendingOf (notePending slot c page s) slot c).toNat.testBit page = true := by
  rw [pendingOf, notePending, getKey_putKey_same, BitVec.toNat_or, Nat.testBit_or, BitVec.toNat_ofNat, Nat.testBit_mod_two_pow,
    Nat.testBit_two_pow_self]
  simp [h]

/-- A page of a contribution accumulated into a slot that is present, and noted. -/
def pageTaken (slot c page : Nat) (bs : Bytes) (s : State) : State :=
  notePending slot c page (addOverlay slot page bs (count Reg.bcAccumPages 1 (accumPage 1 (bankAddr s slot page) bs s)))

theorem regs_pageTaken (slot c page : Nat) (bs : Bytes) (s : State) :
    (pageTaken slot c page bs s).regs = (count Reg.bcAccumPages 1 (accumPage 1 (bankAddr s slot page) bs s)).regs := rfl

theorem regGet_basinGeomF_pageTaken (slot c page : Nat) (bs : Bytes) (s : State) :
    regGet (pageTaken slot c page bs s) Reg.basinGeomF = regGet s Reg.basinGeomF :=
  calc regGet (pageTaken slot c page bs s) Reg.basinGeomF
      = regGet (count Reg.bcAccumPages 1 (accumPage 1 (bankAddr s slot page) bs s)) Reg.basinGeomF :=
        regGet_of_regs (regs_pageTaken ..) _
    _ = regGet (accumPage 1 (bankAddr s slot page) bs s) Reg.basinGeomF := regGet_regSet_other (by decide) _ _
    _ = regGet s Reg.basinGeomF := regGet_accumPage (by decide) ..

/-- The page of a present slot that the relay does not combine. -/
theorem applyDelta_present {slot c page : Nat} {bs : Bytes} {s : State} (hpresent : isAbsent s slot = false)
    (hrelay : (basinMode s && isLocal s (unplace s slot).2) = false) (sender : Coord) :
    applyDelta slot c page sender bs s = pageTaken slot c page bs s := by
  have hgeom := regGet_basinGeomF_pageTaken slot c page bs s
  have hrelay' : (basinMode (pageTaken slot c page bs s) && isLocal (pageTaken slot c page bs s) (unplace s slot).2) = false := by
    rw [basinMode_of_geom hgeom, isLocal_of_geom hgeom, hrelay]
  simp only [applyDelta, hpresent]
  exact if_neg (ne_true_of_eq_false hrelay')

/-! ### A delivered page (R185, R188) -/

/-- A page of the step in flight, whole, at the place of a page of a slot that this chip holds (R185, R188). -/
def DeltaFits (s : State) (h : PktHead) (bs : Bytes) : Prop :=
  h.stepLow = stepNum s % 256 ∧ bs.length = 4096 ∧ h.offset % 4096 = 0 ∧ (unplace s (h.offset / 65536)).1 < plotChunks s

/-- The contribution that a page belongs to, where the page fits. -/
theorem deltaContrib_of_fits {s : State} {h : PktHead} {bs : Bytes} (hfit : DeltaFits s h bs) (o : Option Nat) :
    (if h.stepLow ≠ stepNum s % 256 ∨ bs.length ≠ 4096 ∨ h.offset % 4096 ≠ 0 ∨ plotChunks s ≤ (unplace s (h.offset / 65536)).1
      then none else o) = o := by
  obtain ⟨hstep, hlen, hpage, hslot⟩ := hfit
  refine if_neg ?_
  omega

theorem deltaContrib_of_not_fits {s : State} {h : PktHead} {bs : Bytes} (hfit : ¬ DeltaFits s h bs) (o : Option Nat) :
    (if h.stepLow ≠ stepNum s % 256 ∨ bs.length ≠ 4096 ∨ h.offset % 4096 ≠ 0 ∨ plotChunks s ≤ (unplace s (h.offset / 65536)).1
      then none else o) = none := by
  refine if_pos ?_
  unfold DeltaFits at hfit
  omega

section
variable {e : Env} {s₀ s : State} {h : PktHead} {bs : Bytes} (hs : applyEnv e s₀ = s) (hd : delivered s h 2 57 bs.length = true)
include hs hd

theorem exec_accumXor_misplaced (hbad : ¬ DeltaFits s h bs ∨ contribOf s (h.offset / 65536) h.sender = none) :
    exec (.accumXor e h bs) s₀ = .next (count Reg.bcMisplaced 1 s) := by
  change execAccumXor e h bs s₀ = _
  rw [execAccumXor, hs, receive_delivered hd]
  dsimp only
  by_cases hfit : DeltaFits s h bs
  · rw [hbad.resolve_left (not_not_intro hfit), deltaContrib_of_fits hfit]
    rfl
  · rw [deltaContrib_of_not_fits hfit]
    rfl

theorem exec_accumXor_repeated {c : Nat} (hfit : DeltaFits s h bs) (hc : contribOf s (h.offset / 65536) h.sender = some c)
    (hrep : arrived s (h.offset / 65536) c = true ∨ (pendingOf s (h.offset / 65536) c).toNat.testBit (h.offset / 4096 % 16) = true) :
    exec (.accumXor e h bs) s₀ = .next (count Reg.bcDuplicate 1 s) := by
  change execAccumXor e h bs s₀ = _
  rw [execAccumXor, hs, receive_delivered hd]
  dsimp only
  rw [deltaContrib_of_fits hfit, hc]
  exact congrArg Host.Outcome.next (if_pos hrep)

theorem exec_accumXor_new {c : Nat} (hfit : DeltaFits s h bs) (hc : contribOf s (h.offset / 65536) h.sender = some c)
    (hbit : arrived s (h.offset / 65536) c = false) (hnew : (pendingOf s (h.offset / 65536) c).toNat.testBit (h.offset / 4096 % 16) = false) :
    exec (.accumXor e h bs) s₀ = .next (applyDelta (h.offset / 65536) c (h.offset / 4096 % 16) h.sender bs s) := by
  change execAccumXor e h bs s₀ = _
  rw [execAccumXor, hs, receive_delivered hd]
  dsimp only
  rw [deltaContrib_of_fits hfit, hc]
  exact congrArg Host.Outcome.next (if_neg (by simp [hbit, hnew]))

end

/-- Settles O34: a page of a present slot is one accumulate and a note, and each page that does not count as one is a count. -/
theorem deltaPageAccumulates : Obligations.DeltaPageAccumulates := by
  unfold Obligations.DeltaPageAccumulates
  intro e s₀ s h bs hs hd slot page fits
  refine ⟨fun c hfit hc hbit hnew hpresent hrelay => ?_, fun c hfit hc hrep => exec_accumXor_repeated hs hd hfit hc hrep,
    fun hbad => exec_accumXor_misplaced hs hd hbad⟩
  refine ⟨pageTaken slot c page bs s, ?_, ?_⟩
  · rw [exec_accumXor_new hs hd hfit hc hbit hnew, applyDelta_present hpresent hrelay]
  · obtain ⟨_, _, hacc⟩ := accumPage_eq 1 (bankAddr s slot page) bs s
    have hlen : bs.length = 4096 := hfit.2.1
    rw [slice_whole hlen] at hacc
    refine ⟨fun x => ?_, testBit_pendingOf_notePending (Nat.mod_lt _ (by decide)) .., ?_⟩
    · rw [pageTaken, hacc, ← hlen]
      exact readByte_xorInto ..
    · rw [pageTaken, hacc]
      exact ⟨rfl, rfl, rfl⟩

end Sys2Proof.Machine
end
section
/-! PROOF. Markers (R183, R186, R188, R193, R194, R196, R238): what each marker does to the arrival bits, and the ones that only count. -/

namespace Sys2Proof.Machine

open Sys2Proof

theorem length_markerBytes (m : Marker) : (markerBytes m).length = 16 := by simp [markerBytes, length_leBytes]

/-! ### Progress of a member (R193, R196) -/

theorem takeProgress_advance {c : Coord} {hi : Nat} {s : State} (h : progressOf s (memberOf s c) < min hi (plotChunks s)) :
    takeProgress c hi s = { sweepMember c (min hi (plotChunks s)) s with
      basin.progress := putKey (memberOf s c) (min hi (plotChunks s)) (sweepMember c (min hi (plotChunks s)) s).basin.progress } :=
  if_neg (Nat.not_le.2 h)

theorem takeProgress_behind {c : Coord} {hi : Nat} {s : State} (h : min hi (plotChunks s) ≤ progressOf s (memberOf s c)) :
    takeProgress c hi s = s := if_pos h

/-- A chunk invalidated at its holder: the bit set, the slot absent, and by a local holder the global ones told (R238). -/
def chunkInvalidated (slot c j chunk : Nat) (s : State) : State :=
  let u := makeAbsent slot (setArrived slot c s)
  let u := { u with basin.invalid := unionIdx u.basin.invalid [chunk], refill.rebuildDue := true }
  if basinMode u && isLocal u j then
    (List.range (geoG u)).foldl (fun u g => sendMarker (rowHolder u chunk (groupsOf u + g)) 0 2 0 chunk (posOf u chunk) u) u
  else u

section
variable {e : Env} {s₀ s : State} {h : PktHead} (hs : applyEnv e s₀ = s) (hd : delivered s h 6 59 16 = true)
include hs hd

/-! ### CHUNK markers (R183, R188) -/

theorem exec_chunkMarker_settles {role chunk position slot c : Nat} {mask : BitVec 16} (hrole : role ≤ 1)
    (hslot : markerSlot s (role = 1) chunk h.sender = some (slot, c)) (hbit : arrived s slot c = false) (hmask : mask = pendingOf s slot c) :
    exec (.chunkMarker e h (stepNum s) role mask chunk position) s₀ =
      .next (poke (checkComplete chunk (setArrived slot c { s with basin.owed := s.basin.owed ++ [((slot, c), h.sender, chunk)] }))) := by
  change execChunkMarker e h (stepNum s) role mask chunk position s₀ = _
  rw [execChunkMarker, hs, length_markerBytes, receive_delivered hd, if_neg (by omega), hslot]
  exact congrArg Host.Outcome.next (if_neg (by simp [hbit, hmask]))

theorem exec_chunkMarker_repeated {role chunk position slot c : Nat} {mask : BitVec 16} (hrole : role ≤ 1)
    (hslot : markerSlot s (role = 1) chunk h.sender = some (slot, c)) (hrep : arrived s slot c = true ∨ mask ≠ pendingOf s slot c) :
    exec (.chunkMarker e h (stepNum s) role mask chunk position) s₀ = .next (count Reg.bcDuplicate 1 s) := by
  change execChunkMarker e h (stepNum s) role mask chunk position s₀ = _
  rw [execChunkMarker, hs, length_markerBytes, receive_delivered hd, if_neg (by omega), hslot]
  exact congrArg Host.Outcome.next (if_pos hrep)

theorem exec_chunkMarker_misplaced {step role : Nat} {mask : BitVec 16} {chunk position : Nat}
    (hbad : step ≠ stepNum s ∨ 1 < role ∨ markerSlot s (role = 1) chunk h.sender = none) :
    exec (.chunkMarker e h step role mask chunk position) s₀ = .next (count Reg.bcMisplaced 1 s) := by
  change execChunkMarker e h step role mask chunk position s₀ = _
  rw [execChunkMarker, hs, length_markerBytes, receive_delivered hd]
  have hnone : (if step ≠ stepNum s ∨ 1 < role then none else markerSlot s (role = 1) chunk h.sender) = none := by
    split
    next => rfl
    next hfit => exact (or_assoc.2 hbad).resolve_left hfit
  rw [hnone]
  rfl

/-! ### PROGRESS and FINAL markers (R193, R194, R196) -/

theorem exec_progressMarker_member (hm : memberSender s h.sender = true) (position : Nat) :
    exec (.progressMarker e h (stepNum s) 0 position) s₀ = .next (poke (takeProgress h.sender position s)) := by
  change execProgressMarker e h (stepNum s) 0 position s₀ = _
  rw [execProgressMarker, hs, length_markerBytes, receive_delivered hd, if_neg (by simp [hm])]

theorem exec_progressMarker_misplaced {step role : Nat} (hbad : step ≠ stepNum s ∨ role ≠ 0 ∨ memberSender s h.sender = false)
    (position : Nat) : exec (.progressMarker e h step role position) s₀ = .next (count Reg.bcMisplaced 1 s) := by
  change execProgressMarker e h step role position s₀ = _
  rw [execProgressMarker, hs, length_markerBytes, receive_delivered hd, if_pos (by simpa using hbad), misplaced]

theorem exec_finalMarker_member (hm : memberSender s h.sender = true) :
    exec (.finalMarker e h (stepNum s) 0) s₀ = .next (poke { takeProgress h.sender (plotChunks s) s with
      basin.finals := unionIdx (takeProgress h.sender (plotChunks s) s).basin.finals
        [memberOf (takeProgress h.sender (plotChunks s) s) h.sender] }) := by
  change execFinalMarker e h (stepNum s) 0 s₀ = _
  rw [execFinalMarker, hs, length_markerBytes, receive_delivered hd, if_neg (not_not_intro rfl), if_pos ⟨rfl, hm⟩]

theorem exec_finalMarker_relay (hmode : basinMode s = true) (hm : isRowMate s h.sender = true) :
    exec (.finalMarker e h (stepNum s) 1) s₀ = .next (poke { sweepRelay h.sender s with
      basin.relayFinals := unionIdx (sweepRelay h.sender s).basin.relayFinals [memberOf (sweepRelay h.sender s) h.sender] }) := by
  change execFinalMarker e h (stepNum s) 1 s₀ = _
  rw [execFinalMarker, hs, length_markerBytes, receive_delivered hd, if_neg (not_not_intro rfl), if_neg (by simp), if_pos ⟨rfl, hmode, hm⟩]

theorem exec_finalMarker_misplaced {step role : Nat} (hbad : step ≠ stepNum s ∨ (role = 0 ∧ memberSender s h.sender = false) ∨ 1 < role ∨
      (role = 1 ∧ (basinMode s = false ∨ isRowMate s h.sender = false))) :
    exec (.finalMarker e h step role) s₀ = .next (count Reg.bcMisplaced 1 s) := by
  change execFinalMarker e h step role s₀ = _
  rw [execFinalMarker, hs, length_markerBytes, receive_delivered hd]
  by_cases hstep : step ≠ stepNum s
  · rw [if_pos hstep, misplaced]
  · have hsender := hbad.resolve_left hstep
    have hmember : ¬ (role = 0 ∧ memberSender s h.sender = true) := by
      rintro ⟨rfl, hm⟩
      simp [hm] at hsender
    have hrelay : ¬ (role = 1 ∧ basinMode s = true ∧ isRowMate s h.sender = true) := by
      rintro ⟨rfl, hmode, hm⟩
      simp [hmode, hm] at hsender
    rw [if_neg hstep, if_neg hmember, if_neg hrelay, misplaced]

/-! ### Invalidate markers (R238) -/

section
variable {chunk position j slot c : Nat} {mask : BitVec 16} (hchunk : chunk < plotChunks s) (hheld : heldParity s chunk = some (j, slot))
  (hc : contribOf s slot h.sender = some c)
include hchunk hheld hc

theorem exec_invalidateMarker_settles (hbit : arrived s slot c = false) :
    exec (.invalidateMarker e h (stepNum s) chunk mask position) s₀ =
      .next (poke (checkComplete chunk (chunkInvalidated slot c j chunk s))) := by
  change execInvalidateMarker e h (stepNum s) chunk mask position s₀ = _
  rw [execInvalidateMarker, hs, length_markerBytes, receive_delivered hd, if_neg (by simpa using hchunk), hheld]
  dsimp only
  rw [hc]
  exact congrArg Host.Outcome.next (if_neg (ne_true_of_eq_false hbit))

theorem exec_invalidateMarker_repeated (hbit : arrived s slot c = true) :
    exec (.invalidateMarker e h (stepNum s) chunk mask position) s₀ = .next (count Reg.bcDuplicate 1 s) := by
  change execInvalidateMarker e h (stepNum s) chunk mask position s₀ = _
  rw [execInvalidateMarker, hs, length_markerBytes, receive_delivered hd, if_neg (by simpa using hchunk), hheld]
  dsimp only
  rw [hc]
  exact congrArg Host.Outcome.next (if_pos hbit)

end

theorem exec_invalidateMarker_misplaced {step chunk position : Nat} {mask : BitVec 16} (hbad : step ≠ stepNum s ∨ plotChunks s ≤ chunk ∨
      ∀ j slot, heldParity s chunk = some (j, slot) → contribOf s slot h.sender = none) :
    exec (.invalidateMarker e h step chunk mask position) s₀ = .next (count Reg.bcMisplaced 1 s) := by
  change execInvalidateMarker e h step chunk mask position s₀ = _
  rw [execInvalidateMarker, hs, length_markerBytes, receive_delivered hd]
  by_cases hfit : step ≠ stepNum s ∨ plotChunks s ≤ chunk
  · rw [if_pos hfit]
    rfl
  · rw [if_neg hfit]
    have hsender := (or_assoc.2 hbad).resolve_left hfit
    cases hheld : heldParity s chunk with
    | none => rfl
    | some js =>
      obtain ⟨j, slot⟩ := js
      dsimp only
      rw [hsender j slot hheld]
      rfl

end

/-- Settles O35: each kind of marker by what it settles, by what it repeats and by whom it may not come from. -/
theorem markersSettleBits : Obligations.MarkersSettleBits := by
  unfold Obligations.MarkersSettleBits
  refine ⟨fun e s₀ s h role mask chunk position slot c hs hd hrole hslot => ?_,
    fun e s₀ s h position hs hd hm => ⟨fun hadv => ?_, fun hbehind => ?_, ?_⟩,
    fun e s₀ s h hs hd hmode hm => exec_finalMarker_relay hs hd hmode hm,
    fun e s₀ s h chunk position j slot c mask hs hd hchunk hheld hc => ?_, fun e s₀ s h step role chunk position mask hs hd => ?_⟩
  · exact ⟨exec_chunkMarker_settles hs hd hrole hslot, exec_chunkMarker_repeated hs hd hrole hslot⟩
  · rw [exec_progressMarker_member hs hd hm, takeProgress_advance hadv]
  · rw [exec_progressMarker_member hs hd hm, takeProgress_behind hbehind]
  · rintro u rfl
    exact exec_finalMarker_member hs hd hm
  · exact ⟨exec_invalidateMarker_settles hs hd hchunk hheld hc, exec_invalidateMarker_repeated hs hd hchunk hheld hc⟩
  · exact ⟨exec_chunkMarker_misplaced hs hd, fun hbad => exec_progressMarker_misplaced hs hd hbad position, exec_finalMarker_misplaced hs hd,
      exec_invalidateMarker_misplaced hs hd⟩

end Sys2Proof.Machine
end
section
/-! PROOF. Acknowledgements, their flush and the progress timer (R187, R188, R190, R193, R195, R197, R260). -/

namespace Sys2Proof.Machine

open Sys2Proof

/-! ### Acknowledgements (R187, R188, R195) -/

section
variable {e : Env} {s₀ s : State} {h : PktHead} {k : AckBody} (hs : applyEnv e s₀ = s)
  (hd : delivered s h 5 58 (ackBodyBytes k).length = true)
include hs hd

theorem exec_ack_holder {b : Nat} (hstep : k.step = stepNum s) (hb : bankPosition s h.sender = some b) :
    exec (.ack e h k) s₀ = .next (poke (memberAck b k s)) := by
  change execAck e h k s₀ = _
  rw [execAck, hs, receive_delivered hd, if_neg (not_not_intro hstep), hb]

theorem exec_ack_rowMate (hstep : k.step = stepNum s) (hb : bankPosition s h.sender = none) (hmate : isRowMate s h.sender = true) :
    exec (.ack e h k) s₀ = .next (poke (relayAck (memberOf s h.sender) k s)) := by
  change execAck e h k s₀ = _
  rw [execAck, hs, receive_delivered hd, if_neg (not_not_intro hstep), hb]
  exact congrArg Host.Outcome.next (if_pos hmate)

theorem exec_ack_misplaced (hbad : k.step ≠ stepNum s ∨ (bankPosition s h.sender = none ∧ isRowMate s h.sender = false)) :
    exec (.ack e h k) s₀ = .next (count Reg.bcMisplaced 1 s) := by
  change execAck e h k s₀ = _
  rw [execAck, hs, receive_delivered hd]
  by_cases hstep : k.step ≠ stepNum s
  · rw [if_pos hstep, misplaced]
  · obtain ⟨hb, hmate⟩ := hbad.resolve_left hstep
    rw [if_neg hstep, hb]
    exact congrArg Host.Outcome.next (if_neg (ne_true_of_eq_false hmate))

end

/-! ### Timers (R187, R190, R260) -/

section
variable {e : Env} {s₀ s : State} {dest : Coord} (hs : applyEnv e s₀ = s) (hf : flumeRuns s = true) (hfrozen : s.refill.frozen = false)
include hs hf hfrozen

theorem exec_ackFlush_up : exec (.ackFlush e dest) s₀ =
    .next (if (s.basin.acks.any fun a => a.dest = dest && ackDue s a) = true then flushAck dest s else s) := by
  change execAckFlush e dest s₀ = _
  simp only [execAckFlush, hs, hf, hfrozen, Bool.not_false, Bool.and_true, Bool.true_and]

theorem exec_progressTimer_updating {b : Nat} (hmode : codedMode s = true) (hbegun : s.step.updBegun = true) (hstop : s.basin.stopped = false)
    (hb : bankPosition s dest = some b) : exec (.progressTimer e dest) s₀ = .next (sendProgress b false s) := by
  change execProgressTimer e dest s₀ = _
  simp only [execProgressTimer, hs, hb, hf, hfrozen, hmode, hbegun, hstop, Bool.not_false, Bool.and_true, if_true]

end

/-- A due entry has waited its 4 µs. -/
theorem waited_of_ackDue {s : State} {a : AckQueue} (h : ackDue s a = true) : ∃ x ∈ a.entries, x.2 + 4000 ≤ s.ht := by
  obtain ⟨x, hx, hdue⟩ := List.any_eq_true.1 h
  exact ⟨x, hx, of_decide_eq_true (Bool.and_eq_true_iff.1 hdue).2⟩

/-- Settles O36: an acknowledgement by its step and its sender, each timer by what it waits for. -/
theorem acknowledgementsAndTimers : Obligations.AcknowledgementsAndTimers := by
  unfold Obligations.AcknowledgementsAndTimers
  refine ⟨fun e s₀ s h k hs hd => ⟨fun b => exec_ack_holder hs hd, exec_ack_rowMate hs hd, exec_ack_misplaced hs hd⟩,
    fun e s₀ s dest hs hf hfrozen => ?_, fun s a => waited_of_ackDue,
    fun e s₀ s dest b hs hf hfrozen hmode hbegun hstop hb => exec_progressTimer_updating hs hf hfrozen hmode hbegun hstop hb⟩
  rw [exec_ackFlush_up hs hf hfrozen]
  exact ⟨fun hdue => by rw [if_pos hdue], fun hearly => by rw [if_neg (ne_true_of_eq_false hearly)]⟩

end Sys2Proof.Machine
end
section
/-! PROOF. The state at power-on (R208, R382, R401): no register is stored, so each reads its table's reset value. -/

namespace Sys2Proof.Machine

open Sys2Proof

/-- At power-on a register holds its table's reset value. -/
theorem regGet_reset (off : Nat) : regGet State.reset off = resetAt off := rfl

theorem regNat_reset {off : Nat} {v : Word} (h : resetAt off = v) : regNat State.reset off = v.toNat := congrArg BitVec.toNat h

theorem memoryOk_reset : MemoryOk State.reset := ⟨rfl, rfl, rfl, rfl⟩

/-- The reset values of a ring's block (R382). -/
theorem resetAt_ring : ∀ q : Fin 16, resetAt (ringReg q Reg.ringSize) = 0x606 ∧ resetAt (ringReg q Reg.ringPoll) = 1000 ∧
    resetAt (ringReg q Reg.ringPollIdle) = 100000 := by decide +kernel

/-- The reset values of a channel's block (R401). -/
theorem resetAt_channel : ∀ n : Fin 24, resetAt (Reg.chBgcap + n.val * 0x1000) = 0x7D ∧
    resetAt (Reg.chId + n.val * 0x1000) = BitVec.ofNat 32 n.val := by decide +kernel

theorem resetAt_pgScrubCycle : resetAt Reg.pgScrubCycle = 600 := by decide +kernel

/-- Registers that show the engine's state, before any step, lock and start (R208). -/
theorem readReg_reset : readReg State.reset Reg.bcCommitted = 0xFFFFFFFF#32 ∧ readReg State.reset Reg.htLock = 0#32 ∧
    readReg State.reset Reg.status = 0#32 := by decide +kernel

/-- Settles O4: memories and queue list nothing, and each register named reads what its table or the state shows. -/
theorem resetState : Obligations.ResetState := by
  unfold Obligations.ResetState
  obtain ⟨hcommitted, hlock, hstatus⟩ := readReg_reset
  refine ⟨regGet_reset, rfl, memoryOk_reset, fun q => ?_, fun n => ?_, regNat_reset resetAt_pgScrubCycle, hcommitted, hlock, hstatus⟩
  · obtain ⟨hsize, hpoll, hidle⟩ := resetAt_ring q
    exact ⟨regNat_reset hsize, regNat_reset hpoll, regNat_reset hidle⟩
  · obtain ⟨hcap, hid⟩ := resetAt_channel n
    exact ⟨regNat_reset hcap, (regNat_reset hid).trans (Nat.mod_eq_of_lt (by omega))⟩

end Sys2Proof.Machine
end
section
/-! PROOF. A member without a verdict (R37, R206): the incomplete end of the agreement, and what it leaves alone. -/

namespace Sys2Proof.Machine

open Sys2Proof

/-- A run with the incomplete end of the agreement, where it is the COMMIT turn of step n. -/
def commitEnded (n : Nat) (r : TurnRun) : TurnRun :=
  if r.kind = Kind.commit && r.step = n then { r with outcome := Code.commitIncomplete } else r

/-- The runs of the COMMIT turn of step n have the incomplete outcome. -/
theorem outcome_of_mem_commitEnded {n : Nat} {rs : List TurnRun} {r : TurnRun} (h : r ∈ rs.map (commitEnded n)) (hk : r.kind = Kind.commit)
    (hn : r.step = n) : r.outcome = Code.commitIncomplete := by
  obtain ⟨r₀, -, rfl⟩ := List.mem_map.1 h
  unfold commitEnded at hk hn ⊢
  split
  next => rfl
  next hother =>
    rw [if_neg hother] at hk hn
    exact absurd (by simp [hk, hn]) hother

/-- A flag of OSE_EVENTS leaves the tag in force. -/
theorem tagOf_flagEvent (n : Nat) (s : State) : tagOf (flagEvent n s) = tagOf s := by
  rw [tagOf, flagEvent, regOr, regNat_regPut_other (by decide), tagOf]

theorem tagOf_count {off : Nat} (h : Reg.jobTagF ≠ off) (n : Nat) (s : State) : tagOf (count off n s) = tagOf s := by
  rw [tagOf, regNat_count_other h, tagOf]

/-- With room in the queue, an incomplete end flags the condition, marks the COMMIT turn's run and queues a STEP event (R37, R206). -/
theorem reportIncomplete_eq {s : State} (hroom : s.culvert.queue.length < 64) (first : Nat) :
    ∃ detail, reportIncomplete first s = { flagEvent 3 s with
      step.turns := s.step.turns.map (commitEnded (stepNum s)),
      culvert.queue := s.culvert.queue ++ [⟨0x09, Code.commitIncomplete, 0, s.ht, detail, tagOf s⟩] } := by
  rw [← tagOf_flagEvent 3 s]
  exact ⟨_, if_pos hroom⟩

/-- A member's end without a verdict: the count, and the agreement closed. -/
theorem exec_noVerdict_due {e : Env} {s₀ s : State} (hs : applyEnv e s₀ = s) (hf : flumeRuns s = true) (hopen : s.agree.open_ = true)
    (hnone : s.agree.verdict = none) (hfrozen : s.refill.frozen = false) (hdue : s.agree.endAt + (hopOf s - 4000) ≤ s.ht) :
    exec (.noVerdict e) s₀ = .next (reportIncomplete noIndex { count Reg.bcNoVerdict 1 s with agree.open_ := false }) := by
  change execNoVerdict e s₀ = _
  simp [execNoVerdict, hs, hf, hopen, hnone, hfrozen, hdue]

/-- Settles O39: the count and the incomplete end, and the fields that neither touches. -/
theorem noVerdict : Obligations.NoVerdict := by
  unfold Obligations.NoVerdict
  intro e s₀ s hs hf hopen hnone hfrozen hdue hroom
  refine ⟨_, exec_noVerdict_due hs hf hopen hnone hfrozen hdue, ?_⟩
  obtain ⟨detail, heq⟩ := reportIncomplete_eq (s := { count Reg.bcNoVerdict 1 s with agree.open_ := false }) hroom noIndex
  rw [heq]
  refine ⟨?_, testBit_flagEvent (by decide) _, ⟨detail, ?_⟩, fun r => outcome_of_mem_commitEnded, rfl, rfl, rfl, rfl, rfl, rfl, rfl⟩
  · exact regNat_flagEvent_count (by decide) 3 s
  · rw [← tagOf_count (by decide : Reg.jobTagF ≠ Reg.bcNoVerdict) 1 s]
    rfl

end Sys2Proof.Machine
end
section
/-! PROOF. The cut-off and the deadlines of a restore (R204, R312, R318). -/

namespace Sys2Proof.Machine

open Sys2Proof

/-- A restore that nothing has ended rebuilds no bank share. -/
theorem rebuildNow_same (s : State) : rebuildNow s s = s := by
  unfold rebuildNow
  cases s.restore.running <;> rfl

/-! ### A deadline judged (R312, R318) -/

section
variable {stage at_ : Nat} {s : State}

/-- Where the restore stands at another stage, or none runs, a deadline changes nothing. -/
theorem restoreTimeout_over (h : s.restore.running = false ∨ s.restore.state ≠ stage) : restoreTimeout stage at_ s = s :=
  if_pos (by rcases h with h | h <;> simp [h])

/-- A deadline that has not passed changes nothing, and below the root it passes a route bound later. -/
theorem restoreTimeout_early (h : s.ht < at_ ∨ (agreeParent s ≠ none ∧ s.ht < at_ + restoreBound s)) : restoreTimeout stage at_ s = s := by
  unfold restoreTimeout
  cases hp : agreeParent s with
  | none =>
    have hearly : s.ht < at_ := by simpa [hp] using h
    simp [Nat.not_le.2 hearly]
  | some c =>
    have hlater : ¬ at_ + restoreBound s ≤ s.ht := by omega
    simp [hlater]

section
variable (hc : controllersRun s = true) (hr : s.restore.running = true) (hstage : s.restore.state = stage)
include hc hr hstage

theorem restoreTimeout_root (hp : agreeParent s = none) (hdue : at_ ≤ s.ht) :
    restoreTimeout stage at_ s = if stage = 2 then pumpChoice true s else pumpDone true s := by
  simp [restoreTimeout, hc, hr, hstage, hp, hdue]

theorem restoreTimeout_below (hp : agreeParent s ≠ none) (hdue : at_ + restoreBound s ≤ s.ht) :
    restoreTimeout stage at_ s = endRestore Code.commitIncomplete (if stage = 2 then 2 else 4) (stage ≠ 2) s := by
  simp [restoreTimeout, hc, hr, hstage, hp, hdue]

end

end

/-! ### The three commands (R204, R312, R318) -/

section
variable {e : Env} {s₀ s : State} (hs : applyEnv e s₀ = s)
include hs

theorem exec_restoreCutoff_running (hc : controllersRun s = true) (hr : s.restore.running = true) : exec (.restoreCutoff e) s₀ =
    .next (if agreeParent s ≠ none ∧ restoreEnd s ≤ s.ht + restoreBound s + agreeHeight s * restoreHop s then pumpDone true (pumpChoice true s)
      else s) := by
  change execRestoreCutoff e s₀ = _
  simp [execRestoreCutoff, hs, hc, hr, Option.isSome_iff_ne_none]

theorem exec_restoreCutoff_over (hr : s.restore.running = false) : exec (.restoreCutoff e) s₀ = .next s := by
  change execRestoreCutoff e s₀ = _
  simp [execRestoreCutoff, hs, hr]

theorem exec_restoreChoiceDeadline :
    exec (.restoreChoiceDeadline e) s₀ = .next (rebuildNow s (restoreTimeout 2 s.restore.choiceAt s)) := by
  subst hs
  rfl

theorem exec_restoreDoneDeadline : exec (.restoreDoneDeadline e) s₀ = .next (rebuildNow s (restoreTimeout 3 s.restore.doneAt s)) := by
  subst hs
  rfl

end

/-- Settles O56: the cut-off by the tree and the clock, each deadline by the stage, the place in the tree and the clock. -/
theorem restoreDeadlines : Obligations.RestoreDeadlines := by
  unfold Obligations.RestoreDeadlines
  refine ⟨fun e s₀ s hs hc hr => ?_, fun e s₀ s hs hc hr hroot => ?_, fun e s₀ s hs hc hr hbelow => ?_, fun e s₀ s hs => ?_⟩
  · rw [exec_restoreCutoff_running hs hc hr]
    refine ⟨fun hp hdue => by rw [if_pos ⟨hp, hdue⟩], fun hidle => ?_⟩
    rw [if_neg]
    rintro ⟨hp, hdue⟩
    exact hidle.elim hp (Nat.not_lt.2 hdue)
  · rw [exec_restoreChoiceDeadline hs, exec_restoreDoneDeadline hs]
    refine ⟨fun hstage hdue => ?_, fun hstage hdue => ?_⟩
    · rw [restoreTimeout_root hc hr hstage hroot hdue, if_pos rfl]
    · rw [restoreTimeout_root hc hr hstage hroot hdue, if_neg (by decide)]
  · rw [exec_restoreChoiceDeadline hs, exec_restoreDoneDeadline hs]
    refine ⟨fun hstage hdue => ?_, fun hearly => ?_, fun hstage hdue => ?_, fun hearly => ?_⟩
    · rw [restoreTimeout_below hc hr hstage hbelow hdue]
      rfl
    · rw [restoreTimeout_early (.inr ⟨hbelow, hearly⟩), rebuildNow_same]
    · rw [restoreTimeout_below hc hr hstage hbelow hdue]
      rfl
    · rw [restoreTimeout_early (.inr ⟨hbelow, hearly⟩), rebuildNow_same]
  · rw [exec_restoreChoiceDeadline hs, exec_restoreDoneDeadline hs]
    refine ⟨fun hidle => ?_, fun hidle => ?_, exec_restoreCutoff_over hs⟩
    · rw [(or_assoc.2 hidle).elim restoreTimeout_over fun hearly => restoreTimeout_early (.inl hearly), rebuildNow_same]
    · rw [(or_assoc.2 hidle).elim restoreTimeout_over fun hearly => restoreTimeout_early (.inl hearly), rebuildNow_same]

end Sys2Proof.Machine
end
section
/-! PROOF. The culvert's messages of a refill (R209 to R218, R234, R448 to R451): what a heard frame's message does, and what BASIN_MAP stages. -/

namespace Sys2Proof.Machine

open Sys2Proof

/-! ### A heard frame and its message (R450) -/

section
variable {e : Env} {s₀ s t : State} {f : FrameHead} {m : CulMsg} (hs : applyEnv e s₀ = s) (hm : heard s f m = true)

include hm in
theorem heard_ready : s.ready = true := by
  simp only [heard, Bool.and_eq_true] at hm
  obtain ⟨⟨⟨⟨⟨⟨-, hready⟩, -⟩, -⟩, -⟩, -⟩, -⟩ := hm
  exact hready

include hs hm

/-- A message acted on leaves its frame as the last of its type. -/
theorem frameRow_acted (hact : actFrame noStart f m (counted m s) = (true, t)) (hready : t.ready = s.ready) :
    frameRow e f m s₀ = .next (noted f m t) := by
  rw [frameRow, hs, acceptFrame_heard hm, hact]
  simp [hready, heard_ready hm]

/-- A message turned away leaves no record of its frame. -/
theorem frameRow_ignored (hact : actFrame noStart f m (counted m s) = (false, t)) : frameRow e f m s₀ = .next t := by
  rw [frameRow, hs, acceptFrame_heard hm, hact]
  rfl

end

/-- An event only joins the culvert's queue, or counts as lost there. -/
theorem event_culvert (code status cause : Nat) (detail : Bytes) (s : State) :
    ∃ c, event code status cause detail s = { s with culvert := c } := by
  unfold event
  split <;> exact ⟨_, rfl⟩

/-! ### The freeze (R214, R215) -/

/-- What a freeze stores before the lease is looked at. -/
def frozenNow (s : State) : State :=
  { s with
    refill.frozen := true, refill.frozenAt := s.ht, refill.phase := phaseOf s, refill.state := 1, refill.release := none,
    step.turns := [], pond.copy := if (s.pond.copy.any fun c => c.turn.isSome) then none else s.pond.copy }

theorem freeze_idle {s : State} (hpend : s.pendingCommit = false) : freeze s = dropLease (frozenNow s) :=
  congrArg dropLease (applyPending_none (s := frozenNow s) hpend)

/-- With no commit pending, a freeze and its report change the power side and the culvert beyond what the freeze stores. -/
theorem reportFrozen_freeze (cause : Nat) {s : State} (hpend : s.pendingCommit = false) :
    ∃ w c, reportFrozen cause (freeze s) = { frozenNow s with power := w, culvert := c } := by
  obtain ⟨w, hw⟩ := dropLease_power (frozenNow s)
  rw [freeze_idle hpend, hw]
  obtain ⟨c, hc⟩ := event_culvert 0x04 0 cause _ { frozenNow s with power := w }
  exact ⟨w, c, hc⟩

section
variable {e : Env} {s₀ s : State} {f : FrameHead} (hs : applyEnv e s₀ = s) (hm : heard s f .freezeJob = true)
include hs hm

theorem exec_freezeJob_frozen (hfrozen : s.refill.frozen = true) :
    exec (.freezeJob e f) s₀ = .next (noted f .freezeJob (reportFrozen f.seq (counted .freezeJob s))) := by
  have hcounted : (counted .freezeJob s).refill.frozen = true := hfrozen
  exact frameRow_acted hs hm (by rw [actFrame, if_pos hcounted]) (event_ready ..)

theorem exec_freezeJob_running (hfrozen : s.refill.frozen = false) (hpend : s.pendingCommit = false) :
    ∃ w c, exec (.freezeJob e f) s₀ = .next (noted f .freezeJob { frozenNow (counted .freezeJob s) with power := w, culvert := c }) := by
  obtain ⟨w, c, hfreeze⟩ := reportFrozen_freeze f.seq (s := counted .freezeJob s) hpend
  have hcounted : ¬ (counted .freezeJob s).refill.frozen = true := by simpa [counted] using hfrozen
  exact ⟨w, c, frameRow_acted hs hm (by rw [actFrame, if_neg hcounted, hfreeze]) rfl⟩

end

/-- Settles O26: each message through the frame that carries it; the freeze by what it stores. -/
theorem statusPolicyAndFreeze : Obligations.StatusPolicyAndFreeze := by
  unfold Obligations.StatusPolicyAndFreeze
  refine ⟨fun e s₀ s f hs hm => ?_, fun e s₀ s f step pol hs hm => ?_, fun e s₀ s f hs hm hfrozen hpend => ?_,
    fun e s₀ s f hs hm hfrozen => exec_freezeJob_frozen hs hm hfrozen⟩
  · exact frameRow_acted hs hm rfl (event_ready ..)
  · exact frameRow_acted hs hm rfl rfl
  · obtain ⟨w, c, hexec⟩ := exec_freezeJob_running hs hm hfrozen hpend
    exact ⟨_, hexec, rfl, rfl, rfl, rfl, rfl, rfl, rfl, rfl, rfl, rfl, rfl⟩

end Sys2Proof.Machine
end
section
/-! PROOF. BASIN_MAP (R218, R390, R392, R448): the registers that it stages, and the values in force that it leaves. -/

namespace Sys2Proof.Machine

open Sys2Proof

/-! ### Registers outside a list -/

theorem regsKept_refl (l : List Nat) (s : State) : RegsKept l s s := fun _ _ => rfl

theorem RegsKept.regNat {l : List Nat} {s t : State} (h : RegsKept l s t) {o : Nat} (ho : o ∉ l) : regNat t o = regNat s o :=
  congrArg BitVec.toNat (h o ho)

/-! ### One value staged by the map (R390) -/

/-- A register that is staged alone and keeps the low k bits of what it is given. -/
def keepsLow (off k : Nat) : Bool :=
  decide (off ≠ Reg.jobSeedLo ∧ off ≠ Reg.jobSeedHi ∧ off ≠ Reg.cfgStaged ∧ off ≠ Reg.cfgStatus ∧ fieldMask off = 2 ^ k - 1 ∧ k ≤ 32)

/-- A value that BASIN_MAP stages. -/
def stageMap (off v : Nat) (s : State) : State := stage off (BitVec.ofNat 32 v) true s

/-- The staging of a register keeps its books in two others. -/
theorem regGet_markStaged {off o : Nat} (hstaged : o ≠ Reg.cfgStaged) (hstatus : o ≠ Reg.cfgStatus) (byMap : Bool) (s : State) :
    regGet (markStaged off byMap s) o = regGet s o := by
  rw [markStaged, refreshCfg, regPut, regGet_regSet_other hstatus, putStaged, regPut, regGet_regSet_other hstaged]
  rfl

section
variable {off k : Nat} (hk : keepsLow off k = true)
include hk

theorem stageMap_eq (v : Nat) (s : State) :
    stageMap off v s = markStaged off true (regSet off (BitVec.ofNat 32 ((BitVec.ofNat 32 v).toNat &&& fieldMask off)) s) := by
  simp only [keepsLow, decide_eq_true_eq] at hk
  obtain ⟨hlo, hhi, -⟩ := hk
  rw [stageMap, stage, if_neg hlo, if_neg hhi, stageOne]

/-- A value of k bits reads back as it was staged. -/
theorem regNat_stageMap_same {v : Nat} (hv : v < 2 ^ k) (s : State) : regNat (stageMap off v s) off = v := by
  rw [regNat, stageMap_eq hk]
  simp only [keepsLow, decide_eq_true_eq] at hk
  obtain ⟨-, -, hstaged, hstatus, hmask, hwidth⟩ := hk
  have hword : v < 2 ^ 32 := Nat.lt_of_lt_of_le hv (Nat.pow_le_pow_right (by decide) hwidth)
  rw [regGet_markStaged hstaged hstatus, regGet_regSet_same, hmask, BitVec.toNat_ofNat, BitVec.toNat_ofNat, Nat.mod_eq_of_lt hword,
    Nat.and_two_pow_sub_one_eq_mod, Nat.mod_eq_of_lt hv, Nat.mod_eq_of_lt hword]

/-- Beyond its own register a staged value changes only the books. -/
theorem RegsKept.stageMap {l : List Nat} {s t : State} (h : RegsKept l s t) (hl : ∀ o ∈ [Reg.cfgStaged, Reg.cfgStatus, off], o ∈ l) (v : Nat) :
    RegsKept l s (stageMap off v t) := by
  intro o ho
  have hne : ∀ x ∈ [Reg.cfgStaged, Reg.cfgStatus, off], o ≠ x := fun x hx e => ho (e ▸ hl x hx)
  rw [stageMap_eq hk, regGet_markStaged (hne _ (by simp)) (hne _ (by simp)), regGet_regSet_other (hne _ (by simp)), h o ho]

theorem regNat_stageMap_other {o : Nat} (ho : o ∉ [Reg.cfgStaged, Reg.cfgStatus, off]) (v : Nat) (s : State) :
    regNat (stageMap off v s) o = regNat s o :=
  ((regsKept_refl _ s).stageMap hk (fun _ => id) v).regNat ho

/-- Outside the registers, the staged set and its last writer nothing changes. -/
theorem stageMap_stores (v : Nat) (s : State) : ∃ rs l, stageMap off v s = { s with regs := rs, staged := l, lastWriter := true } := by
  rw [stageMap_eq hk]
  exact ⟨_, _, rfl⟩

end

theorem keepsLow_jobTag : keepsLow Reg.jobTag 16 = true := by decide

theorem keepsLow_jobExtent : keepsLow Reg.jobExtent 17 = true := by decide

theorem keepsLow_jobCoord : keepsLow Reg.jobCoord 14 = true := by decide

theorem keepsLow_agreeTree : keepsLow Reg.agreeTree 16 = true := by decide

theorem keepsLow_basinGeom : keepsLow Reg.basinGeom 16 = true := by decide

/-! ### The map staged (R448) -/

/-- What BASIN_MAP stages for its tag: nothing where it carries none. -/
def stageTag (tag : Nat) (s : State) : State := if tag = 0 then s else stageMap Reg.jobTag tag s

/-- What BASIN_MAP stages beside its tag. -/
def stageShape (extent coord tree geom : Nat) (s : State) : State :=
  stageMap Reg.basinGeom (geom % 65536) <| stageMap Reg.agreeTree (tree % 65536) <| stageMap Reg.jobCoord (coord % 2 ^ 14) <|
    stageMap Reg.jobExtent (extent % 2 ^ 17) s

/-- The registers that the shape stores: the books of the staged set, and its own four. -/
def shapeStores : List Nat := [Reg.cfgStaged, Reg.cfgStatus, Reg.jobExtent, Reg.jobCoord, Reg.agreeTree, Reg.basinGeom]

/-- The registers that a heard BASIN_MAP stores: the count of frames, its tag, and its shape. -/
def mapStores : List Nat := Reg.culRx :: Reg.jobTag :: shapeStores

theorem inForce_not_mem_mapStores : ∀ off ∈ shadowRegs, inForce off ∉ mapStores := by decide

theorem regsKept_stageShape {l : List Nat} {s t : State} (h : RegsKept l s t) (hl : ∀ o ∈ shapeStores, o ∈ l) (extent coord tree geom : Nat) :
    RegsKept l s (stageShape extent coord tree geom t) := by
  simp only [shapeStores, List.forall_mem_cons] at hl
  obtain ⟨hstaged, hstatus, hextent, hcoord, htree, hgeom, -⟩ := hl
  have hbooks : ∀ off ∈ l, ∀ o ∈ [Reg.cfgStaged, Reg.cfgStatus, off], o ∈ l := by
    intro off hoff
    simp only [List.forall_mem_cons]
    exact ⟨hstaged, hstatus, hoff, by simp⟩
  exact (((h.stageMap keepsLow_jobExtent (hbooks _ hextent) _).stageMap keepsLow_jobCoord (hbooks _ hcoord) _).stageMap
    keepsLow_agreeTree (hbooks _ htree) _).stageMap keepsLow_basinGeom (hbooks _ hgeom) _

/-- Each value of the shape reads back, whatever is staged after it. -/
theorem regNat_stageShape (extent coord tree geom : Nat) (s : State) :
    let t := stageShape extent coord tree geom s
    regNat t Reg.jobExtent = extent % 2 ^ 17 ∧ regNat t Reg.jobCoord = coord % 2 ^ 14 ∧ regNat t Reg.agreeTree = tree % 65536 ∧
      regNat t Reg.basinGeom = geom % 65536 := by
  have hlow : ∀ n : Nat, n % 65536 < 2 ^ 16 := fun n => Nat.mod_lt n (by decide)
  dsimp only [stageShape]
  refine ⟨?_, ?_, ?_, regNat_stageMap_same keepsLow_basinGeom (hlow geom) _⟩
  · rw [regNat_stageMap_other keepsLow_basinGeom (by decide), regNat_stageMap_other keepsLow_agreeTree (by decide),
      regNat_stageMap_other keepsLow_jobCoord (by decide), regNat_stageMap_same keepsLow_jobExtent (Nat.mod_lt _ (by decide))]
  · rw [regNat_stageMap_other keepsLow_basinGeom (by decide), regNat_stageMap_other keepsLow_agreeTree (by decide),
      regNat_stageMap_same keepsLow_jobCoord (Nat.mod_lt _ (by decide))]
  · rw [regNat_stageMap_other keepsLow_basinGeom (by decide), regNat_stageMap_same keepsLow_agreeTree (hlow tree)]

theorem stageTag_stores (tag : Nat) (s : State) : ∃ rs l w, stageTag tag s = { s with regs := rs, staged := l, lastWriter := w } := by
  unfold stageTag
  split
  · exact ⟨_, _, _, rfl⟩
  · obtain ⟨rs, l, hstores⟩ := stageMap_stores keepsLow_jobTag tag s
    exact ⟨rs, l, true, hstores⟩

theorem stageShape_stores (extent coord tree geom : Nat) (s : State) :
    ∃ rs l, stageShape extent coord tree geom s = { s with regs := rs, staged := l, lastWriter := true } := by
  unfold stageShape
  obtain ⟨_, _, hextent⟩ := stageMap_stores keepsLow_jobExtent (extent % 2 ^ 17) s
  rw [hextent]
  obtain ⟨_, _, hcoord⟩ := stageMap_stores keepsLow_jobCoord (coord % 2 ^ 14) { s with regs := _, staged := _, lastWriter := true }
  rw [hcoord]
  obtain ⟨_, _, htree⟩ := stageMap_stores keepsLow_agreeTree (tree % 65536) { s with regs := _, staged := _, lastWriter := true }
  rw [htree]
  exact stageMap_stores keepsLow_basinGeom (geom % 65536) { s with regs := _, staged := _, lastWriter := true }

/-- The tag's register after the map: the tag it carries, or what was staged before. -/
theorem regNat_stageTag {tag : Nat} (htag : tag < 2 ^ 16) (s : State) :
    regNat (stageTag tag s) Reg.jobTag = if tag = 0 then regNat s Reg.jobTag else tag := by
  unfold stageTag
  split
  · rfl
  · exact regNat_stageMap_same keepsLow_jobTag htag s

theorem regsKept_stageTag {s t : State} (h : RegsKept mapStores s t) (tag : Nat) : RegsKept mapStores s (stageTag tag t) := by
  unfold stageTag
  split
  · exact h
  · exact h.stageMap keepsLow_jobTag (by decide) tag

theorem regsKept_counted (m : CulMsg) (s : State) : RegsKept [Reg.culRx] s (counted m s) :=
  regsKept_regSet Reg.culRx _ { s with culvert.rxLast := culType m }

/-- The state that a BASIN_MAP taken leaves: what it stages, its plan ID and its axis byte. -/
def mapTaken (tag extent coord tree geom axis planId : Nat) (s : State) : State :=
  { stageShape extent coord tree geom (stageTag tag s) with refill.mapPlanId := planId, job.axisStaged := some (axis % 64) }

theorem regGet_noted (f : FrameHead) (m : CulMsg) (s : State) (o : Nat) : regGet (noted f m s) o = regGet s o := regGet_of_regs rfl o

theorem regNat_noted (f : FrameHead) (m : CulMsg) (s : State) (o : Nat) : regNat (noted f m s) o = regNat s o :=
  congrArg BitVec.toNat (regGet_noted f m s o)

section
variable (tag extent coord tree geom axis planId : Nat) (s : State)

theorem regGet_mapTaken (o : Nat) :
    regGet (mapTaken tag extent coord tree geom axis planId s) o = regGet (stageShape extent coord tree geom (stageTag tag s)) o :=
  regGet_of_regs rfl o

theorem regNat_mapTaken (o : Nat) :
    regNat (mapTaken tag extent coord tree geom axis planId s) o = regNat (stageShape extent coord tree geom (stageTag tag s)) o :=
  congrArg BitVec.toNat (regGet_mapTaken tag extent coord tree geom axis planId s o)

theorem mapTaken_keeps :
    let t := mapTaken tag extent coord tree geom axis planId s
    t.hbm = s.hbm ∧ t.ready = s.ready ∧ t.lastWriter = true := by
  obtain ⟨_, _, _, htag⟩ := stageTag_stores tag s
  obtain ⟨_, _, hshape⟩ := stageShape_stores extent coord tree geom (stageTag tag s)
  dsimp only [mapTaken]
  rw [hshape, htag]
  exact ⟨rfl, rfl, rfl⟩

theorem regsKept_mapTaken (m : CulMsg) : RegsKept mapStores s (mapTaken tag extent coord tree geom axis planId (counted m s)) := by
  have hcounted : RegsKept mapStores s (counted m s) :=
    fun o ho => regsKept_counted m s o fun h => ho (List.mem_cons.2 (.inl (List.mem_singleton.1 h)))
  have hshape := regsKept_stageShape (regsKept_stageTag hcounted tag) (by decide) extent coord tree geom
  exact fun o ho => (regGet_mapTaken tag extent coord tree geom axis planId _ o).trans (hshape o ho)

theorem regNat_mapTaken_jobTag {tag : Nat} (htag : tag < 2 ^ 16) (m : CulMsg) :
    regNat (mapTaken tag extent coord tree geom axis planId (counted m s)) Reg.jobTag = if tag = 0 then regNat s Reg.jobTag else tag := by
  have hshape := regsKept_stageShape (regsKept_refl shapeStores (stageTag tag (counted m s))) (fun _ => id) extent coord tree geom
  rw [regNat_mapTaken, hshape.regNat (by decide), regNat_stageTag htag, (regsKept_counted m s).regNat (by decide)]

end

/-- The axis bytes that give the first two axes in either order and the third axis last (R448). -/
theorem goodAxis_iff (axis : Nat) : (axis / 16 % 4 = 2 ∧ ((axis % 4 = 0 ∧ axis / 4 % 4 = 1) ∨ (axis % 4 = 1 ∧ axis / 4 % 4 = 0))) ↔
    axis % 64 = 36 ∨ axis % 64 = 33 := by omega

section
variable {tag extent coord tree geom axis planId : Nat} {s : State}

theorem takeMap_taken (hidle : s.pendingCommit = false) (haxis : axis % 64 = 36 ∨ axis % 64 = 33) :
    takeMap tag extent coord tree geom axis planId s = some (mapTaken tag extent coord tree geom axis planId s) := by
  obtain ⟨hthird, hfirst⟩ := (goodAxis_iff axis).2 haxis
  refine if_neg ?_
  rintro (h | h | h)
  · exact h hthird
  · exact h hfirst
  · simp [hidle] at h

theorem takeMap_none (h : s.pendingCommit = true ∨ (axis % 64 ≠ 36 ∧ axis % 64 ≠ 33)) :
    takeMap tag extent coord tree geom axis planId s = none := by
  refine if_pos ?_
  rcases h with hpend | hbad
  · exact .inr (.inr hpend)
  · by_cases hthird : axis / 16 % 4 = 2
    · exact .inr (.inl fun hfirst => not_or.2 hbad ((goodAxis_iff axis).1 ⟨hthird, hfirst⟩))
    · exact .inl hthird

end

section
variable {e : Env} {s₀ s : State} {f : FrameHead} {extent coord tree geom axis planId : Nat} (hs : applyEnv e s₀ = s)
  (hm : heard s f (.basinMap extent coord tree geom axis planId) = true)
include hs hm

theorem exec_basinMap_taken (hidle : s.pendingCommit = false) (haxis : axis % 64 = 36 ∨ axis % 64 = 33) :
    exec (.basinMap e f extent coord tree geom axis planId) s₀ = .next (noted f (.basinMap extent coord tree geom axis planId)
      (mapTaken f.tag extent coord tree geom axis planId (counted (.basinMap extent coord tree geom axis planId) s))) := by
  have htaken := takeMap_taken (tag := f.tag) (extent := extent) (coord := coord) (tree := tree) (geom := geom) (planId := planId)
    (s := counted (.basinMap extent coord tree geom axis planId) s) hidle haxis
  refine frameRow_acted hs hm (by rw [actFrame, htaken]) ?_
  obtain ⟨-, hready, -⟩ := mapTaken_keeps f.tag extent coord tree geom axis planId
    (counted (.basinMap extent coord tree geom axis planId) s)
  exact hready

theorem exec_basinMap_ignored (h : s.pendingCommit = true ∨ (axis % 64 ≠ 36 ∧ axis % 64 ≠ 33)) :
    exec (.basinMap e f extent coord tree geom axis planId) s₀ =
      .next (ignored 0x02 7 0 0 f.seq (counted (.basinMap extent coord tree geom axis planId) s)) := by
  have hnone := takeMap_none (tag := f.tag) (extent := extent) (coord := coord) (tree := tree) (geom := geom) (planId := planId)
    (s := counted (.basinMap extent coord tree geom axis planId) s) h
  exact frameRow_ignored hs hm (by rw [actFrame, hnone])

end

/-- Settles O28: a map taken by what it stages and what it leaves, any other by the event that ignores it. -/
theorem basinMapStages : Obligations.BasinMapStages := by
  unfold Obligations.BasinMapStages
  intro e s₀ s f extent coord tree geom axis planId hs m hm htag
  refine ⟨fun hidle haxis => ⟨_, exec_basinMap_taken hs hm hidle haxis, ?_⟩, exec_basinMap_ignored hs hm⟩
  have hkept := regsKept_mapTaken f.tag extent coord tree geom axis planId s m
  obtain ⟨hextent, hcoord, htree, hgeom⟩ := regNat_stageShape extent coord tree geom (stageTag f.tag (counted m s))
  obtain ⟨hhbm, -, hlast⟩ := mapTaken_keeps f.tag extent coord tree geom axis planId (counted m s)
  simp only [regNat_noted, regGet_noted]
  refine ⟨regNat_mapTaken_jobTag extent coord tree geom axis planId s htag m, ?_, ?_, ?_, ?_, rfl, rfl, hlast,
    fun off hoff => hkept _ (inForce_not_mem_mapStores off hoff), hhbm⟩
  · rw [regNat_mapTaken, hextent]
  · rw [regNat_mapTaken, hcoord]
  · rw [regNat_mapTaken, htree]
  · rw [regNat_mapTaken, hgeom]

end Sys2Proof.Machine
end
section
/-! PROOF. RELEASE_JOB and the parts of BEGIN_REFILL (R209 to R212, R234, R449). -/

namespace Sys2Proof.Machine

open Sys2Proof

/-! ### RELEASE_JOB (R212, R234) -/

/-- What a release needs of the engine, its instant, its kind and the phase. -/
theorem releaseOk_needs {id kind instant : Nat} {s : State} (h : releaseOk id kind instant s = true) :
    s.refill.frozen = true ∧ s.ht + 2000000 ≤ instant ∧ kind ≤ 1 ∧ (kind = 0 → s.refill.phase < 4) := by
  simp only [releaseOk, Bool.and_eq_true, decide_eq_true_eq] at h
  obtain ⟨⟨⟨hfrozen, -⟩, hinstant⟩, hkind⟩ := h
  by_cases hrestart : kind = 0
  · rw [if_pos hrestart, decide_eq_true_eq] at hkind
    exact ⟨hfrozen, hinstant, by omega, fun _ => hkind⟩
  · rw [if_neg hrestart, Bool.and_eq_true, decide_eq_true_eq] at hkind
    exact ⟨hfrozen, hinstant, by omega, fun h => absurd h hrestart⟩

section
variable {e : Env} {s₀ s : State} {f : FrameHead} {id kind instant first : Nat} (hs : applyEnv e s₀ = s)
  (hm : heard s f (.releaseJob id kind instant first) = true)
include hs hm

theorem exec_releaseJob_ok (hok : releaseOk id kind instant (counted (.releaseJob id kind instant first) s) = true) :
    exec (.releaseJob e f id kind instant first) s₀ = .next (noted f (.releaseJob id kind instant first)
      { counted (.releaseJob id kind instant first) s with refill.release := some (kind, instant, first) }) :=
  frameRow_acted hs hm (by rw [actFrame, if_pos hok]) rfl

theorem exec_releaseJob_ignored (hok : releaseOk id kind instant (counted (.releaseJob id kind instant first) s) = false) :
    exec (.releaseJob e f id kind instant first) s₀ =
      .next (ignored 0x04 3 0 0 f.seq (counted (.releaseJob id kind instant first) s)) :=
  frameRow_ignored hs hm (by rw [actFrame, if_neg (by simp [hok])])

end

/-! ### The parts of a BEGIN_REFILL (R210, R449) -/

theorem any_putKey {α : Type} (k : Nat) (v : α) : ∀ l : List (Nat × α), ((putKey k v l).any fun g => decide (g.1 = k)) = true
  | [] => by simp [putKey]
  | (a, w) :: l => by
    by_cases h : a = k
    · simp [putKey, h]
    · simp [putKey, h, any_putKey k v l]

/-- A BEGIN_REFILL that is not valid: ignored, with its cause. -/
def refuseRefill (s : State) : State := ignored 0x05 2 0 0 0 { s with refill.cause := 6, refill.parts := none }

section
variable {s : State} {part parts id committed commitAt startAt deadline : Nat} {lost : List Coord}

/-- A part of the refill in force changes nothing. -/
theorem takePart_inForce (hid : id ≠ 0) (hlast : id = s.refill.lastId) :
    takePart part parts id committed commitAt startAt deadline lost s = s := if_pos ⟨hid, hlast⟩

/-- A message of one part is judged at once, whatever parts wait. -/
theorem takePart_alone (hlast : id ≠ s.refill.lastId) (hlost : lost ≠ []) (hlen : lost.length ≤ 13) :
    takePart 0 1 id committed commitAt startAt deadline lost s =
      if refillValid ⟨id, committed, commitAt, startAt, deadline, lost⟩ s then
        acceptRefill ⟨id, committed, commitAt, startAt, deadline, lost⟩ s
      else refuseRefill s := by
  have hform : ¬ (1 = 0 ∨ 5 < 1 ∨ 1 ≤ 0 ∨ lost.isEmpty = true ∨ (if 0 = 0 then 13 else 16) < lost.length) := by
    simpa [hlost] using hlen
  rw [takePart, if_neg (fun h => hlast h.2), if_neg hform]
  extract_lets old p whole
  have hwhole : whole = true := by simpa [whole] using any_putKey 0 lost old.got
  have hgot : getKey 0 [] p.got = lost := getKey_putKey_same 0 lost [] old.got
  simp [hwhole, p, hgot, refuseRefill]

/-- The first to come of several parts is kept until the others come. -/
theorem takePart_first (hseveral : 2 ≤ parts) (hparts : parts ≤ 5) (hpart : part < parts) (hlast : id ≠ s.refill.lastId)
    (hlost : lost ≠ []) (hlen : lost.length ≤ 13) (hnone : s.refill.parts = none) :
    takePart part parts id committed commitAt startAt deadline lost s = { s with
      refill.parts := some { id := id, parts := parts, head := if part = 0 then some (committed, commitAt, startAt, deadline) else none,
                             got := [(part, lost)] } } := by
  have hroom : lost.length ≤ if part = 0 then 13 else 16 := by split <;> omega
  have hform : ¬ (parts = 0 ∨ 5 < parts ∨ parts ≤ part ∨ lost.isEmpty = true ∨ (if part = 0 then 13 else 16) < lost.length) := by
    simp only [List.isEmpty_iff, hlost, false_or, not_or]
    exact ⟨by omega, by omega, by omega, Nat.not_lt.2 hroom⟩
  rw [takePart, if_neg (fun h => hlast h.2), if_neg hform, hnone]
  extract_lets old p whole
  have hwhole : whole = false := by
    refine List.all_eq_false.2 ⟨if part = 0 then 1 else 0, ?_, ?_⟩
    · rw [List.mem_range]
      split <;> omega
    · simp only [p, old, putKey, List.any_cons, List.any_nil, Bool.or_false, decide_eq_true_eq]
      split <;> omega
  rw [hwhole]
  rfl

end

section
variable {e : Env} {s₀ s : State} {part parts id committed commitAt startAt deadline : Nat} {lost : List Coord} (hs : applyEnv e s₀ = s)
  (hm : heard s { seq := 0, tag := 0 } (.beginRefill part parts id committed commitAt startAt deadline lost) = true)
include hs hm

/-- A heard part does what taking it does. -/
theorem exec_beginRefill_heard {t : State} (ht : takePart part parts id committed commitAt startAt deadline lost
      (counted (.beginRefill part parts id committed commitAt startAt deadline lost) s) = t) (hready : t.ready = s.ready) :
    exec (.beginRefill e part parts id committed commitAt startAt deadline lost) s₀ =
      .next (noted { seq := 0, tag := 0 } (.beginRefill part parts id committed commitAt startAt deadline lost) t) :=
  frameRow_acted hs hm (congrArg (Prod.mk true) ht) hready

end

/-- Settles O27: the release by whether it may take effect, a part of a refill by what taking it does. -/
theorem releaseAndRefillMessages : Obligations.ReleaseAndRefillMessages := by
  unfold Obligations.ReleaseAndRefillMessages
  refine ⟨fun e s₀ s f id kind instant first hs hm => ⟨exec_releaseJob_ok hs hm, exec_releaseJob_ignored hs hm⟩,
    fun id kind instant s hok => releaseOk_needs hok,
    fun e s₀ s part parts id committed commitAt startAt deadline lost hs => ?_⟩
  intro m head whole hm hid
  refine ⟨?_, ?_, fun hlast => ?_⟩
  · rintro rfl rfl hlast hlost hlen
    have hjudged := takePart_alone (s := counted m s) (committed := committed) (commitAt := commitAt) (startAt := startAt)
      (deadline := deadline) hlast hlost hlen
    exact ⟨fun hvalid => exec_beginRefill_heard hs hm (hjudged.trans (if_pos hvalid)) rfl,
      fun hvalid => exec_beginRefill_heard hs hm (hjudged.trans (if_neg (ne_true_of_eq_false hvalid))) (ignored_ready ..)⟩
  · intro hseveral hparts hpart hlast hlost hlen hnone
    exact exec_beginRefill_heard hs hm (takePart_first hseveral hparts hpart hlast hlost hlen hnone) rfl
  · exact exec_beginRefill_heard hs hm (takePart_inForce hid hlast) rfl

end Sys2Proof.Machine
end
section
/-! PROOF. The start instant, the deadline and the release of a refill (R216, R219, R230, R235, R236, R239, R347). -/

namespace Sys2Proof.Machine

open Sys2Proof

/-! ### The start instant and the deadline (R216, R230) -/

section
variable {e : Env} {s₀ s : State} {m : RefillMsg} (hs : applyEnv e s₀ = s) (hf : flumeRuns s = true) (hmsg : s.refill.msg = some m)
include hs hf hmsg

theorem exec_refillStart_accepted :
    exec (.refillStart e) s₀ = .next (if s.refill.state = 2 ∧ m.startAt ≤ s.ht then beginRefill m s else s) := by
  change execRefillStart e s₀ = _
  simp [execRefillStart, hs, hf, hmsg]

theorem exec_refillDeadline_accepted : exec (.refillDeadline e) s₀ =
    .next (if s.refill.isSpare = true ∧ s.refill.reported = false ∧ s.refill.state = 3 ∧ m.deadline ≤ s.ht then
        reportRefilled Code.okPartial (if isLost s (partnerOf s (here s)) then 4 else 3) s
      else s) := by
  change execRefillDeadline e s₀ = _
  simp [execRefillDeadline, hs, hf, hmsg, and_assoc]

end

/-! ### The release (R234 to R236) -/

theorem exec_releaseInstant_frozen {e : Env} {s₀ s : State} {kind instant first : Nat} (hs : applyEnv e s₀ = s) (hf : flumeRuns s = true)
    (hrelease : s.refill.release = some (kind, instant, first)) (hfrozen : s.refill.frozen = true) :
    exec (.releaseInstant e) s₀ =
      .next (if instant ≤ s.ht then dropLease (if kind = 0 then restartStep instant first s else resumeStep instant s) else s) := by
  change execReleaseInstant e s₀ = _
  simp [execReleaseInstant, hs, hf, hrelease, hfrozen]

/-! ### Thawing (R239, R347) -/

/-- What every release leaves: no freeze, no hold, no turn met, and HBM as it was. -/
def ThawedFrom (s t : State) : Prop :=
  t.refill.frozen = false ∧ t.job.held = false ∧ t.step.turns = [] ∧ t.hbm = s.hbm

theorem thawedFrom_basinEvent {s t : State} (h : ThawedFrom s t) (status cause : Nat) : ThawedFrom s (basinEvent status cause t) := by
  obtain ⟨c, hc⟩ := event_culvert 0x0D status cause (le 1 (ownRow t) ++ le 4 (absentSlots t)) t
  rw [basinEvent, hc]
  exact h

theorem thawedFrom_thaw (s : State) : ThawedFrom s (thaw s) := by
  unfold thaw
  extract_lets lostPos links own joined
  have hhbm : joined.hbm = s.hbm := by
    unfold joined
    split <;> rfl
  clear_value joined
  split
  · apply thawedFrom_basinEvent
    exact ⟨rfl, rfl, rfl, hhbm⟩
  · exact ⟨rfl, rfl, rfl, hhbm⟩

/-- Settles O50: each instant by what its command does once it has come, and the thaw by what it leaves. -/
theorem refillInstants : Obligations.RefillInstants := by
  unfold Obligations.RefillInstants
  refine ⟨fun e s₀ s m hs hf hmsg => ?_, fun e s₀ s kind instant first hs hf hrelease hfrozen => ?_, thawedFrom_thaw⟩
  · rw [exec_refillStart_accepted hs hf hmsg, exec_refillDeadline_accepted hs hf hmsg]
    refine ⟨fun hstate hdue => by rw [if_pos ⟨hstate, hdue⟩], fun hidle => ?_,
      fun hspare hreported hstate hdue => by rw [if_pos ⟨hspare, hreported, hstate, hdue⟩], fun hidle => ?_⟩
    · rw [if_neg]
      rintro ⟨hstate, hdue⟩
      exact hidle.elim (absurd hstate) (Nat.not_lt.2 hdue)
    · rw [if_neg]
      rintro ⟨hspare, hreported, hstate, hdue⟩
      rcases hidle with hidle | hidle | hidle | hidle
      · exact absurd (hspare.symm.trans hidle) (by decide)
      · exact absurd (hreported.symm.trans hidle) (by decide)
      · exact hidle hstate
      · exact Nat.not_lt.2 hdue hidle
  · rw [exec_releaseInstant_frozen hs hf hrelease hfrozen]
    exact ⟨fun hdue hkind => by rw [if_pos hdue, if_pos hkind], fun hdue hkind => by rw [if_pos hdue, if_neg hkind],
      fun hearly => by rw [if_neg (Nat.not_le.2 hearly)]⟩

end Sys2Proof.Machine
end
section
/-! PROOF. The chain records of a refill (R217, R223 to R227, R232, R238, R240, R456): a record of the refill in force given to its function. -/

namespace Sys2Proof.Machine

open Sys2Proof

/-! ### A record received (R224) -/

theorem length_chainRecBytes (r : ChainRec) : (chainRecBytes r).length = 32 := by
  simp [chainRecBytes, length_leBytes, zeros]

/-- A delivered record of its kind reaches its function where it is of the refill in force; its bytes count in any case. -/
theorem takeChainRec_delivered {s : State} {h : PktHead} {r : ChainRec} (hd : delivered s h 1 55 32 = true) {kinds : List Nat}
    (hk : r.kind ∈ kinds) (go : State → State) :
    takeChainRec h r kinds go s = if r.refillId = s.refill.lastId then go (withBytes 32 s) else withBytes 32 s := by
  rw [takeChainRec, if_neg (by simp [hk]), length_chainRecBytes, refillPacket_delivered hd]
  rfl

section
variable {e : Env} {s₀ s : State} {h : PktHead} {r : ChainRec} (hs : applyEnv e s₀ = s) (hd : delivered s h 1 55 32 = true)
include hs hd

theorem chainRow_delivered {kinds : List Nat} (hk : r.kind ∈ kinds) (go : State → State) :
    chainRow e h r kinds go s₀ = if r.refillId = s.refill.lastId then go (withBytes 32 s) else withBytes 32 s := by
  rw [chainRow, hs, takeChainRec_delivered hd hk]

theorem chainRow_other {kinds : List Nat} (hid : r.refillId ≠ s.refill.lastId) (hk : r.kind ∈ kinds) (go : State → State) :
    chainRow e h r kinds go s₀ = withBytes 32 s := (chainRow_delivered hs hd hk go).trans (if_neg hid)

theorem chainRow_inForce {kinds : List Nat} (hid : r.refillId = s.refill.lastId) (hk : r.kind ∈ kinds) (go : State → State) :
    chainRow e h r kinds go s₀ = go (withBytes 32 s) := (chainRow_delivered hs hd hk go).trans (if_pos hid)

end

/-! ### Requests (R240, R456) -/

theorem openLinks_asked {sender : Coord} {r : ChainRec} {s : State} (hask : asksRebuild sender r s = true) : openLinks sender r s =
    { s with refill.linkRebuild := true, refill.chainsSeen := true, refill.wins := unionIdx s.refill.wins [54, 55] } := if_pos hask

theorem openLinks_frozen {sender : Coord} {r : ChainRec} {s : State} (hfrozen : s.refill.frozen = true) : openLinks sender r s = s :=
  if_neg (by simp [asksRebuild, hfrozen])

/-- What a request for a rebuild says of the engine and of itself. -/
theorem asksRebuild_needs {sender : Coord} {r : ChainRec} {s : State} (hask : asksRebuild sender r s = true) :
    s.refill.frozen = false ∧ r.kind = 8 ∧ r.refillId = s.refill.lastId ∧ r.stripe < plotChunks s := by
  simp only [asksRebuild, Bool.and_eq_true, Bool.not_eq_true', decide_eq_true_eq] at hask
  obtain ⟨⟨⟨⟨⟨⟨⟨hfrozen, -⟩, hkind⟩, hid⟩, hstripe⟩, -⟩, -⟩, -⟩ := hask
  exact ⟨hfrozen, hkind, hid, hstripe⟩

section
variable {sender : Coord} {r : ChainRec} {s : State}

theorem takeRequest_asked (hask : asksRebuild sender r s = true) : takeRequest sender r s = joinChain r.stripe r.equation s := by
  obtain ⟨hfrozen, -, -, hstripe⟩ := asksRebuild_needs hask
  rw [takeRequest, if_neg (Nat.not_le.2 hstripe), if_neg (by simp [hfrozen]), if_pos hask]

/-- While frozen, the holder of the parity asked for starts its chain. -/
theorem takeRequest_holder {slot : Nat} (hfrozen : s.refill.frozen = true) (hstripe : r.stripe < plotChunks s)
    (hheld : heldParity s r.stripe = some (r.equation, slot)) :
    takeRequest sender r s = pumpJobs (decoderSource r.stripe r.equation slot s) := by
  rw [takeRequest, if_neg (Nat.not_le.2 hstripe), if_pos hfrozen, hheld]
  exact if_pos rfl

theorem takeRequest_notHolder (hfrozen : s.refill.frozen = true)
    (hnone : plotChunks s ≤ r.stripe ∨ ∀ slot, heldParity s r.stripe ≠ some (r.equation, slot)) : takeRequest sender r s = s := by
  by_cases hstripe : plotChunks s ≤ r.stripe
  · exact if_pos hstripe
  · have hother := hnone.resolve_left hstripe
    rw [takeRequest, if_neg hstripe, if_pos hfrozen]
    cases hheld : heldParity s r.stripe with
    | none => rfl
    | some x =>
      obtain ⟨j, slot⟩ := x
      exact if_neg fun hj => hother slot (by rw [hheld, hj])

end

section
variable {e : Env} {s₀ s : State} {h : PktHead} {r : ChainRec} (hs : applyEnv e s₀ = s)
include hs

/-- A request for a rebuild opens the windows that let it in, and is joined. -/
theorem exec_chainRequest_asked (hask : asksRebuild h.sender r s = true) (hd : delivered (openLinks h.sender r s) h 1 55 32 = true) :
    exec (.chainRequest e h r) s₀ = .next (joinChain r.stripe r.equation (withBytes 32 (openLinks h.sender r s))) := by
  obtain ⟨-, hkind, hid, -⟩ := asksRebuild_needs hask
  have hlast : r.refillId = (openLinks h.sender r s).refill.lastId := by rw [openLinks_asked hask, hid]
  have hask' : asksRebuild h.sender r (withBytes 32 (openLinks h.sender r s)) = true := by
    rw [openLinks_asked hask]
    exact hask
  change execChainRequest e h r s₀ = _
  rw [execChainRequest, hs, length_chainRecBytes, intake_delivered hd]
  dsimp only
  rw [if_pos rfl, takeChainRec_delivered hd (by simp [hkind]), if_pos hlast, takeRequest_asked hask']

/-- While frozen a request is a record as any other. -/
theorem exec_chainRequest_frozen (hd : delivered s h 1 55 32 = true) (hid : r.refillId = s.refill.lastId) (hkind : r.kind = 8)
    (hfrozen : s.refill.frozen = true) :
    exec (.chainRequest e h r) s₀ = .next (takeRequest h.sender r (withBytes 32 s)) := by
  change execChainRequest e h r s₀ = _
  rw [execChainRequest, hs, openLinks_frozen hfrozen, ite_self, takeChainRec_delivered hd (by simp [hkind]), if_pos hid]

end

/-- A delivered record of another refill only counts its bytes. -/
theorem recordsOfOtherRefill {e : Env} {s₀ s : State} {h : PktHead} {r : ChainRec} (hs : applyEnv e s₀ = s)
    (hd : delivered s h 1 55 32 = true) (hid : r.refillId ≠ s.refill.lastId) :
    let b : Host.Outcome State Fault Refusal := .next (withBytes 32 s)
    (r.kind = 0 → exec (.localRepairRecord e h r) s₀ = b) ∧ (r.kind = 1 → exec (.syndromeRecord e h r) s₀ = b) ∧
      (r.kind = 2 → exec (.remainderRecord e h r) s₀ = b) ∧ (r.kind = 3 ∨ r.kind = 4 → exec (.bankRebuildRecord e h r) s₀ = b) ∧
      (r.kind = 5 → exec (.creditRecord e h r) s₀ = b) ∧ (r.kind = 6 → exec (.closureRequest e h r) s₀ = b) ∧
      (r.kind = 7 → exec (.absentRecord e h r) s₀ = b) ∧ (r.kind = 9 → exec (.decodedRecord e h r) s₀ = b) ∧
      (r.kind = 10 → exec (.noGradientRecord e h r) s₀ = b) := by
  have hrow : ∀ {kinds : List Nat}, r.kind ∈ kinds → ∀ go, chainRow e h r kinds go s₀ = withBytes 32 s :=
    fun hk => chainRow_other hs hd hid hk
  refine ⟨?_, ?_, ?_, ?_, ?_, ?_, ?_, ?_, ?_⟩ <;> exact fun hk => congrArg Host.Outcome.next (hrow (by simpa using hk) _)

/-! ### Decoded records (R226, R227) -/

/-- A decoded record that classifies its chunk: at a spare, of its plot, the chunk here where the class says that it comes. -/
def DecodedFits (r : ChainRec) (s : State) : Prop :=
  s.refill.isSpare = true ∧ r.stripe < plotChunks s ∧ (2 ≤ r.arrival ∨ chunkGot s r.stripe = true)

theorem decodedFits_iff_not_refused (r : ChainRec) (s : State) : DecodedFits r s ↔
    ¬ ((!s.refill.isSpare) = true ∨ plotChunks s ≤ r.stripe ∨ (r.arrival < 2 ∧ (!chunkGot s r.stripe) = true)) := by
  simp only [DecodedFits, not_or, not_and_or, Bool.not_eq_true', Bool.not_eq_false, Nat.not_le, Nat.not_lt]

/-! ### Records of the refill in force -/

section
variable {e : Env} {s₀ s : State} {h : PktHead} {r : ChainRec} (hs : applyEnv e s₀ = s) (hd : delivered s h 1 55 32 = true)
  (hid : r.refillId = s.refill.lastId)
include hs hd hid

/-- The three kinds of a chain's own records. -/
theorem exec_chainRecords_inForce :
    (r.kind = 0 → exec (.localRepairRecord e h r) s₀ = .next (takeChain h.sender r (withBytes 32 s))) ∧
    (r.kind = 1 → exec (.syndromeRecord e h r) s₀ = .next (takeChain h.sender r (withBytes 32 s))) ∧
    (r.kind = 2 → exec (.remainderRecord e h r) s₀ = .next (takeChain h.sender r (withBytes 32 s))) :=
  ⟨fun hk => congrArg Host.Outcome.next (chainRow_inForce hs hd hid (by simp [hk]) _),
    fun hk => congrArg Host.Outcome.next (chainRow_inForce hs hd hid (by simp [hk]) _),
    fun hk => congrArg Host.Outcome.next (chainRow_inForce hs hd hid (by simp [hk]) _)⟩

theorem exec_bankRebuildRecord_inForce (hk : r.kind = 3 ∨ r.kind = 4) :
    exec (.bankRebuildRecord e h r) s₀ = .next (if r.holderStep ≠ stepNum (withBytes 32 s) then
        giveUpChain r.stripe r.equation (takeChainPages h.sender (r.position % 64) (withBytes 32 s)).2
      else takeChain h.sender r { withBytes 32 s with refill.chainsSeen := true }) :=
  congrArg Host.Outcome.next (chainRow_inForce hs hd hid (by simpa using hk) _)

theorem exec_creditRecord_inForce (hk : r.kind = 5) :
    exec (.creditRecord e h r) s₀ = .next (pumpJobs { withBytes 32 s with
      refill.grants := putKey h.sender (max r.position (getKey h.sender 64 s.refill.grants)) s.refill.grants }) :=
  congrArg Host.Outcome.next (chainRow_inForce hs hd hid (by simp [hk]) _)

theorem exec_closureRequest_inForce (hk : r.kind = 6) :
    exec (.closureRequest e h r) s₀ = .next (serveClosures { withBytes 32 s with
      refill.closureReqs := s.refill.closureReqs ++ [(h.sender, r.position, r.stripe)] }) :=
  congrArg Host.Outcome.next (chainRow_inForce hs hd hid (by simp [hk]) _)

/-- An equation noted as absent at this decoder. -/
def noteAbsent (i j : Nat) (s : State) : State := { s with refill.absentEqs := s.refill.absentEqs ++ [(i, j)] }

theorem exec_absentRecord_inForce (hk : r.kind = 7) :
    exec (.absentRecord e h r) s₀ = .next (
      let b := withBytes 32 s
      if !b.refill.isDecoder ∨ plotChunks b ≤ r.stripe ∨ (absentOf b r.stripe).contains r.equation then b
      else
        let first := localServes b (here b) r.stripe && (absentOf b r.stripe).isEmpty
        judgeSpare (trySolve r.stripe (if first then takeOver r.stripe r.equation (noteAbsent r.stripe r.equation b)
          else noteAbsent r.stripe r.equation b))) :=
  congrArg Host.Outcome.next (chainRow_inForce hs hd hid (by simp [hk]) _)

theorem exec_decodedRecord_inForce (hk : r.kind = 9) :
    exec (.decodedRecord e h r) s₀ = .next (
      let b := withBytes 32 s
      let k := if mirrorMode b then 0 else memberOf b (here b) % 4
      if !b.refill.isSpare ∨ plotChunks b ≤ r.stripe ∨ (r.arrival < 2 ∧ !chunkGot b r.stripe) then b
      else judgeSpare (noteClass r.stripe (min r.arrival 2) (r.pending.getD k 0) (chunkGot b r.stripe) b)) :=
  congrArg Host.Outcome.next (chainRow_inForce hs hd hid (by simp [hk]) _)

theorem exec_noGradientRecord_inForce (hk : r.kind = 10) :
    exec (.noGradientRecord e h r) s₀ = .next (if s.refill.isSpare then
      judgeSpare { withBytes 32 s with refill.noGradient := unionIdx s.refill.noGradient [r.stripe] } else withBytes 32 s) :=
  congrArg Host.Outcome.next (chainRow_inForce hs hd hid (by simp [hk]) _)

end

/-- Settles O52: a request that asks for a rebuild apart, every other record by whether its refill is in force and by its kind. -/
theorem refillRecords : Obligations.RefillRecords := by
  unfold Obligations.RefillRecords
  refine ⟨fun e s₀ s h r hs hask => ?_, fun e s₀ s h r hs hd => ⟨recordsOfOtherRefill hs hd, fun hid => ?_⟩⟩
  · intro opened hd
    have hopened : openLinks h.sender r s = opened := openLinks_asked hask
    have hexec := exec_chainRequest_asked hs hask (hopened ▸ hd)
    rw [hopened] at hexec
    exact hexec
  obtain ⟨hlocal, hsyndrome, hremainder⟩ := exec_chainRecords_inForce hs hd hid
  refine ⟨hlocal, hsyndrome, hremainder, fun hk => ?_, exec_creditRecord_inForce hs hd hid, exec_closureRequest_inForce hs hd hid,
    fun hk => ?_, fun hk hfrozen => ?_, fun hk => ?_, fun hk => ?_⟩
  · rw [exec_bankRebuildRecord_inForce hs hd hid hk]
    exact ⟨fun hstep => congrArg Host.Outcome.next (if_neg (not_not_intro hstep)), fun hstep => congrArg Host.Outcome.next (if_pos hstep)⟩
  · rw [exec_absentRecord_inForce hs hd hid hk]
    refine ⟨fun hdecoder hstripe hnew => congrArg Host.Outcome.next (if_neg ?_), fun hidle => congrArg Host.Outcome.next (if_pos ?_)⟩
    · rintro (h | h | h)
      · exact absurd hdecoder (by simpa [withBytes] using h)
      · exact Nat.not_le.2 hstripe h
      · exact absurd (h.symm.trans hnew) (by decide)
    · exact hidle.imp_left fun hdecoder => (Bool.not_eq_true' _).mpr hdecoder
  · rw [exec_chainRequest_frozen hs hd hid hk hfrozen]
    exact ⟨fun slot hstripe hheld => congrArg Host.Outcome.next (takeRequest_holder hfrozen hstripe hheld),
      fun hnone => congrArg Host.Outcome.next (takeRequest_notHolder hfrozen hnone)⟩
  · rw [exec_decodedRecord_inForce hs hd hid hk]
    have hfits := decodedFits_iff_not_refused r (withBytes 32 s)
    exact ⟨fun huse => congrArg Host.Outcome.next (if_neg (hfits.1 huse)),
      fun hno => congrArg Host.Outcome.next (if_pos (not_not.1 fun h => hno (hfits.2 h)))⟩
  · rw [exec_noGradientRecord_inForce hs hd hid hk]
    exact ⟨fun hspare => congrArg Host.Outcome.next (if_pos hspare),
      fun hspare => congrArg Host.Outcome.next (if_neg (ne_true_of_eq_false hspare))⟩

end Sys2Proof.Machine
end

section
/-! PROOF. The SRAM byte code on flipped bits (R245); the capture of an intake entry and the arming of an injection (R270, R387). -/

namespace Sys2Proof.Machine

open Sys2Proof

/-! ### The SRAM byte code (R245) -/

/-- Two flips leave the parity even, and their syndrome is not 0. -/
theorem sramDecode_two_flips : ∀ i j : Fin 13, i ≠ j → sramDecode (1#13 <<< i.val ||| 1#13 <<< j.val) = .uncorrectable := by decide +kernel

/-- The flip of one bit is turned back to the codeword of zeros. -/
theorem sramDecode_one_flip : ∀ i : Fin 13, sramDecode (1#13 <<< i.val) = .corrected 0 0 := by decide +kernel

/-- Settles O6, by the code's answer to each of the flips. -/
theorem sramByteCode : Obligations.SramByteCode :=
  ⟨⟨0, by decide +kernel⟩, fun i => ⟨0, 0, sramDecode_one_flip i⟩, sramDecode_two_flips⟩

/-! ### Intake entries (R387) -/

section
variable {e : Env} {s₀ s : State} (hs : applyEnv e s₀ = s)
include hs

theorem exec_intakeEntryCapture_up (hp : s.power.state ≠ 3) (w : Fin 64) : exec (.intakeEntryCapture e w) s₀ = .next { s with
    lastRead := readReg s (Reg.intakeW + w.val * 0x20),
    intakeCap := (s.intakeCap.filter fun c => c.1 ≠ w.val) ++
      [(w.val, (List.range 8).map (fun n => readReg s (Reg.intakeW + w.val * 0x20 + n * 4)), 1)] } := by
  change execIntakeEntryCapture e w s₀ = _
  simp [execIntakeEntryCapture, hs, hp, List.range_succ]

/-! ### Injections (R270) -/

theorem exec_errorInject_up (hp : s.power.state < 2) (n : Fin 24) (v : Word) : exec (.errorInject e n v) s₀ = .next { s with
    guard.injections := if bits 6 0 v.toNat = 0 then s.guard.injections.filter fun i => i.1 ≠ n
      else (s.guard.injections.filter fun i => i.1 ≠ n) ++ [(n, bits 6 0 v.toNat, bits 23 8 v.toNat)] } := by
  change execErrorInject e n v s₀ = _
  rw [execErrorInject, hs, hostWriteTo_up hp]

end

/-- Settles O11: each command by its one answer, an injection armed or disarmed by its count. -/
theorem intakeCaptureAndInjection : Obligations.IntakeCaptureAndInjection := by
  refine ⟨fun e s₀ s w hs hp => exec_intakeEntryCapture_up hs hp w, fun e s₀ s n v hs hp hcount => ?_, fun e s₀ s n v hs hp hcount => ?_⟩
  · rw [exec_errorInject_up hs hp, if_neg hcount]
  · rw [exec_errorInject_up hs hp, if_pos hcount]

end Sys2Proof.Machine
end

section
/-! PROOF. The page guard at work moves no region (R253 to R257, R265): reading, correcting, storing and escalating pages leave the
declarations of the regions as they are. -/

namespace Sys2Proof.Machine

open Sys2Proof

/-! ### Reports and packets -/

theorem Reported.regions {s t : State} (h : Reported s t) : t.regions = s.regions := by
  obtain ⟨_, _, _, _, _, rfl⟩ := h
  rfl

@[simp] theorem report_regions (q : Fin 16) (slots : List Bytes) (isEvent : Bool) (s : State) :
    (report q slots isEvent s).regions = s.regions := (reported_report (reported_refl s) q slots isEvent).regions

@[simp] theorem sendRepair_regions (dst : Coord) (r : RepairRec) (s : State) : (sendRepair dst r s).regions = s.regions := send_regions ..

@[simp] theorem sendPages_regions (dst : Coord) (w base : Nat) (ps : List (Nat × Bytes)) (s : State) :
    (sendPages dst w base ps s).regions = s.regions := foldl_unchanged (g := State.regions) (fun _ _ => send_regions ..) ps s

@[simp] theorem launchPackets_regions (a : Attempt) (s : State) : (launchPackets a s).regions = s.regions := by
  unfold launchPackets
  dsimp only
  split
  · exact sendRepair_regions ..
  · split
    · exact sendRepair_regions ..
    · split
      · rw [sendRepair_regions, sendPages_regions]
      · split
        · rfl
        · exact sendRepair_regions ..

/-! ### What an outcome is noted in -/

@[simp] theorem noteRange_regions (w : RepairFor) (f : RangeWait → RangeWait) (s : State) : (noteRange w f s).regions = s.regions := by
  cases w <;> rfl

@[simp] theorem markFailed_regions (w : RepairFor) (s : State) : (markFailed w s).regions = s.regions := by
  unfold markFailed
  split
  · rfl
  · split <;> rfl

@[simp] theorem makeAbsent_regions (slot : Nat) (s : State) : (makeAbsent slot s).regions = s.regions := by
  unfold makeAbsent
  split <;> rfl

/-! ### Pages read and stored -/

@[simp] theorem wideAdd_regions (lo n : Nat) (s : State) : (wideAdd lo n s).regions = s.regions := rfl

@[simp] theorem landFix_regions (a : Nat) (pattern chk : Bytes) (s : State) : (landFix a pattern chk s).regions = s.regions := rfl

@[simp] theorem reportCorrected_regions (r a n : Nat) (f : Finder) (s : State) : (reportCorrected r a n f s).regions = s.regions := by
  unfold reportCorrected
  dsimp only
  split <;> simp

@[simp] theorem correctPage_regions (r a n : Nat) (page chk : Bytes) (f : Finder) (s : State) :
    (correctPage r a n page chk f s).regions = s.regions := by
  unfold correctPage
  dsimp only
  split
  · rfl
  · split <;> simp

@[simp] theorem readPage_regions (r a : Nat) (f : Finder) (s : State) : (readPage r a f s).2.regions = s.regions := by
  unfold readPage
  dsimp only
  split
  · rfl
  · split <;> simp

@[simp] theorem storePage_regions (r a : Nat) (page : Bytes) (s : State) : (storePage r a page s).regions = s.regions :=
  (congrArg State.regions (storePage_eq r a page s) :)

/-! ### Pages escalated -/

@[simp] theorem rebuildOrder_regions (a : Nat) (w : RepairFor) (s : State) : (rebuildOrder a w s).regions = s.regions := by
  unfold rebuildOrder
  split
  · rfl
  · simp [storeRepaired]

@[simp] theorem cisternLost_regions (a : Nat) (s : State) : (cisternLost a s).regions = s.regions := by
  unfold cisternLost
  dsimp only
  split
  · exact storePage_regions ..
  · split
    · rfl
    · split <;> rfl

@[simp] theorem bankLost_regions (slot : Nat) (s : State) : (bankLost slot s).regions = s.regions := by simp [bankLost, basinEvent]

@[simp] theorem lostEffect_regions (r a stripe : Nat) (s : State) : (lostEffect r a stripe s).regions = s.regions := by
  unfold lostEffect dropMerges
  dsimp only
  split
  · exact bankLost_regions ..
  · split
    · rfl
    · split
      · exact cisternLost_regions ..
      · rfl

@[simp] theorem reportUnrecoverable_regions (r a : Nat) (f : Finder) (s : State) : (reportUnrecoverable r a f s).regions = s.regions := by
  unfold reportUnrecoverable pageEvent
  dsimp only
  split <;> simp

@[simp] theorem escalationFailed_regions (r a stripe : Nat) (w : RepairFor) (s : State) :
    (escalationFailed r a stripe w s).regions = s.regions := by
  unfold escalationFailed pageLost
  extract_lets noted asked
  split
  · exact noteRange_regions ..
  · split <;> simp [noted]

@[simp] theorem tryAttempts_regions (r a target stripe : Nat) (w : RepairFor) : ∀ (l : List (Nat × Nat)) (s : State),
    (tryAttempts r a target stripe w l s).regions = s.regions
  | [], s => escalationFailed_regions r a stripe w s
  | (_, _) :: l, s => by
    rw [tryAttempts]
    dsimp only
    split
    · exact tryAttempts_regions r a target stripe w l s
    · split
      · rfl
      · rw [launchPackets_regions, takeTag]

@[simp] theorem escalate_regions (r a : Nat) (w : RepairFor) (s : State) : (escalate r a w s).regions = s.regions := by
  unfold escalate
  dsimp only
  split
  · exact rebuildOrder_regions ..
  · split
    · rfl
    · split
      · split
        · exact escalationFailed_regions ..
        · simp [listedFails]
      · exact tryAttempts_regions ..

@[simp] theorem scrubPage_regions (r a : Nat) (w : RepairFor) (s : State) : (scrubPage r a w s).regions = s.regions := by
  have hread := readPage_regions r a (finderOf w) s
  unfold scrubPage
  generalize readPage r a (finderOf w) s = read at hread
  extract_lets fixed
  obtain ⟨page, t⟩ := read
  have hnoted : (if fixed then noteRange w (fun x => { x with corrected := x.corrected + 1 }) t else t).regions = s.regions := by
    split
    · rw [noteRange_regions, hread]
    · exact hread
  dsimp only
  split
  · exact hnoted
  · rw [escalate_regions, hnoted]

/-! ### Pages visited in order -/

/-- The region of a range stays where it is while its pages are visited: page n is the one at the address that the range began with. -/
theorem foldl_pages {go : Nat → Nat → State → State} (hgo : ∀ n a t, (go n a t).regions = t.regions) (r off : Nat) (s : State) :
    ∀ (l : List Nat) (t : State), t.regions = s.regions →
      l.foldl (fun t n => go n (regionBase t r + off + n * 4096) t) t = l.foldl (fun t n => go n (regionBase s r + off + n * 4096) t) t
  | [], _, _ => rfl
  | n :: l, t, ht => by
    have hbase : regionBase t r = regionBase s r := by rw [regionBase, ht, regionBase]
    rw [List.foldl_cons, List.foldl_cons, hbase]
    exact foldl_pages hgo r off s l _ ((hgo _ _ t).trans ht)

end Sys2Proof.Machine
end

section
/-! PROOF. STATE_FILL (R252, R371, R373): pages stored one after another fill their range byte by byte, and completing the descriptor moves none
of them. -/

namespace Sys2Proof.Machine

open Sys2Proof

/-! ### Consecutive pages stored -/

/-- Pages written whole from an address, page n of them `page n`. -/
def fillPages (r a : Nat) (page : Nat → Bytes) (k : Nat) (s : State) : State :=
  (List.range k).foldl (fun s n => storePage r (a + n * 4096) (page n) s) s

theorem fillPages_succ (r a : Nat) (page : Nat → Bytes) (k : Nat) (s : State) :
    fillPages r a page (k + 1) s = storePage r (a + k * 4096) (page k) (fillPages r a page k s) := by
  rw [fillPages, List.range_succ, List.foldl_append]
  rfl

theorem rings_storePage (r a : Nat) (page : Bytes) (s : State) : (storePage r a page s).rings = s.rings :=
  (congrArg State.rings (storePage_eq r a page s) :)

theorem rings_fillPages (r a : Nat) (page : Nat → Bytes) (k : Nat) (s : State) : (fillPages r a page k s).rings = s.rings :=
  foldl_unchanged (g := State.rings) (fun _ _ => rings_storePage ..) _ s

section
variable {r a : Nat} {page : Nat → Bytes} {s : State} (hinj : s.guard.injections = [])
include hinj

theorem injections_fillPages : ∀ k, (fillPages r a page k s).guard.injections = []
  | 0 => hinj
  | k + 1 => by rw [fillPages_succ, injections_storePage _ (injections_fillPages k)]

/-- With no injection armed each byte of the range is its page's own byte, and every other byte is as before. -/
theorem readByte_fillPages (hlen : ∀ n, (page n).length = 4096) (x : Nat) : ∀ k, readByte (fillPages r a page k s).hbm x =
    if a ≤ x ∧ x < a + k * 4096 then (page ((x - a) / 4096)).getD ((x - a) % 4096) 0#8 else readByte s.hbm x
  | 0 => by rw [if_neg (by omega)]; rfl
  | k + 1 => by
    have ih := readByte_fillPages hlen x k
    rw [fillPages_succ, hbm_storePage _ (injections_fillPages hinj k)]
    by_cases hlast : a + k * 4096 ≤ x ∧ x < a + k * 4096 + 4096
    · have hn : (x - a) / 4096 = k := by omega
      have hi : x - (a + k * 4096) = (x - a) % 4096 := by omega
      rw [readByte_writeBytes_in _ _ hlast.1 (by rw [hlen]; exact hlast.2), if_pos (by omega), hn, hi]
    · rw [readByte_writeBytes_out _ _ (by rw [hlen]; omega), ih]
      exact if_congr (by omega) rfl rfl

/-- A page stored whole leaves the damaged list, and no later store puts it there. -/
theorem damaged_fillPages (n : Nat) : ∀ k, n < k → a + n * 4096 ∉ (fillPages r a page k s).guard.damaged
  | k + 1, hn => by
    rw [fillPages_succ, damaged_storePage _ (injections_fillPages hinj k), List.mem_filter]
    rintro ⟨hold, hne⟩
    rcases Nat.lt_succ_iff_lt_or_eq.1 hn with hn | rfl
    · exact damaged_fillPages n k hn hold
    · simp at hne

end

/-! ### The pattern of a fill (R373) -/

/-- Eight bytes repeated: each byte is that of its place among the eight. -/
theorem getD_flatten_replicate {bs : Bytes} (hlen : bs.length = 8) : ∀ (n i : Nat), i < 8 * n →
    (List.replicate n bs).flatten.getD i 0#8 = bs.getD (i % 8) 0#8
  | n + 1, i, hi => by
    rw [List.replicate_succ, List.flatten_cons]
    by_cases hfirst : i < 8
    · rw [List.getD_append _ _ _ _ (by omega), Nat.mod_eq_of_lt hfirst]
    · rw [List.getD_append_right _ _ _ _ (by omega), hlen, getD_flatten_replicate hlen n (i - 8) (by omega), ← Nat.mod_eq_sub_mod (by omega)]

theorem length_fillPage {s : State} {d : Desc} (hsrc : d.f 9 1 = 0) (n : Nat) : (fillPage s d n).length = 4096 := by
  rw [fillPage, if_pos hsrc, List.length_flatten, List.map_replicate, length_leBytes, List.sum_replicate, smul_eq_mul]

theorem getD_fillPage {s : State} {d : Desc} (hsrc : d.f 9 1 = 0) (n : Nat) {i : Nat} (hi : i < 4096) :
    (fillPage s d n).getD i 0#8 = (le 8 (d.f 32 8)).getD (i % 8) 0#8 := by
  rw [fillPage, if_pos hsrc, getD_flatten_replicate (length_leBytes 8 _) 512 i (by omega)]

/-! ### The completion of a descriptor (R364, R366) -/

theorem reported_flagStatus {s t : State} (h : Reported s t) (status : Nat) : Reported s (flagStatus status t) := by
  obtain ⟨_, _, _, _, _, rfl⟩ := h
  unfold flagStatus flagEvent
  split_ifs <;> exact ⟨_, _, _, _, _, rfl⟩

theorem reported_complete {s t : State} (h : Reported s t) (q : Fin 16) (d : Desc) (res : Result) : Reported s (complete q d res t) := by
  unfold complete
  extract_lets r gone put flagged
  split
  · exact reported_setRing h q gone
  · have hflagged : Reported s flagged := reported_flagStatus (reported_count (reported_putRecord (reported_setRing h q gone) q _) _ 1) _
    split
    · exact reported_dueMsix hflagged q
    · exact hflagged

theorem Reported.guard {s t : State} (h : Reported s t) : t.guard = s.guard := by
  obtain ⟨_, _, _, _, _, rfl⟩ := h
  rfl

theorem rings_putSlots (q : Fin 16) : ∀ (l : List Bytes) (j : Nat) (cont : Bool) (s : State), (putSlots q j cont l s).rings = s.rings
  | [], _, _, _ => rfl
  | _ :: l, j, _, s => rings_putSlots q l (idxAdd j 1) true s

theorem running_putRecord (q : Fin 16) (slots : List Bytes) (s : State) : (ringOf (putRecord q slots s) q).running = (ringOf s q).running := by
  simp only [putRecord, ringOf_hostWrite, ringOf_setRing_same]
  rw [ringOf, rings_putSlots, ringOf]

theorem running_dueMsix (q : Fin 16) (s : State) : (ringOf (dueMsix q s) q).running = (ringOf s q).running := by
  unfold dueMsix
  extract_lets r irq quiet
  split
  · exact (congrArg Ring.running (ringOf_setRing_same q { r with lastMsg := some s.ht, msgDue := false } s) :)
  · exact (congrArg Ring.running (ringOf_setRing_same q { r with msgDue := true } s) :)

theorem ringOf_flagStatus (q : Fin 16) (status : Nat) (s : State) : ringOf (flagStatus status s) q = ringOf s q := by
  unfold flagStatus
  split_ifs <;> rfl

/-- A completed descriptor no longer runs; the others of its ring run on. -/
theorem running_complete (q : Fin 16) (d : Desc) (res : Result) (s : State) :
    (ringOf (complete q d res s) q).running = (ringOf s q).running.filter (· ≠ d) := by
  unfold complete
  extract_lets r gone put flagged
  split
  · rw [ringOf_setRing_same]
  · have hflagged : (ringOf flagged q).running = gone.running := by
      rw [ringOf_flagStatus, ringOf_count, running_putRecord, ringOf_setRing_same]
    split
    · rw [running_dueMsix, hflagged]
    · exact hflagged

/-- A descriptor completed and charged: HBM and the guard are as they were, and it no longer runs. -/
theorem charge_complete (before : List Nat) (q : Fin 16) (d : Desc) (res : Result) (s : State) :
    (charge before (complete q d res s)).hbm = s.hbm ∧ (charge before (complete q d res s)).guard = s.guard ∧
      (ringOf (charge before (complete q d res s)) q).running = (ringOf s q).running.filter (· ≠ d) := by
  obtain ⟨_, _, hcharge⟩ := charge_power before (complete q d res s)
  have hreported := reported_complete (reported_refl s) q d res
  rw [hcharge]
  exact ⟨hreported.memories.1, hreported.guard, running_complete q d res s⟩

/-! ### Ranges (R371) -/

theorem rangeBad_notDeclared_iff {s : State} {r : Nat} (hr : r < 5) (off len unit : Nat) :
    rangeBad s r off len unit = some 0xE6 ↔ regionSize s r = 0 := by
  rw [rangeBad, if_neg (by omega)]
  split
  next h => simp [h]
  next h => split <;> simp [h]

theorem rangeBad_none_iff {s : State} {r : Nat} (hr : r < 5) (off len unit : Nat) : rangeBad s r off len unit = none ↔
    0 < regionSize s r ∧ off % unit = 0 ∧ len % unit = 0 ∧ 0 < len ∧ off + len ≤ regionSize s r := by
  rw [rangeBad, if_neg (by omega)]
  split
  next h => simp [h]
  next h =>
    split
    next hbad => exact iff_of_false (by simp) (by omega)
    next hgood => exact iff_of_true rfl (by omega)

/-! ### STATE_FILL (R373) -/

/-- The pages of a fill with a pattern stored. -/
def patternFilled (d : Desc) (s : State) : State :=
  fillPages (d.f 8 1) (regionBase s (d.f 8 1) + d.f 16 8) (fillPage s d) (d.f 24 8 / 4096) s

/-- Each byte of a filled range of whole pages is the pattern's byte for its place. -/
theorem readByte_patternFilled {s : State} {d : Desc} (hinj : s.guard.injections = []) (hsrc : d.f 9 1 = 0) (hlen : d.f 24 8 % 4096 = 0)
    (x : Nat) : readByte (patternFilled d s).hbm x =
      if regionBase s (d.f 8 1) + d.f 16 8 ≤ x ∧ x < regionBase s (d.f 8 1) + d.f 16 8 + d.f 24 8 then
        (le 8 (d.f 32 8)).getD ((x - (regionBase s (d.f 8 1) + d.f 16 8)) % 8) 0#8
      else readByte s.hbm x := by
  rw [patternFilled, readByte_fillPages hinj (length_fillPage hsrc), getD_fillPage hsrc _ (Nat.mod_lt _ (by decide)),
    Nat.mod_mod_of_dvd _ (by decide), Nat.div_mul_cancel (Nat.dvd_of_mod_eq_zero hlen)]

section
variable {e : Env} {s₀ s : State} {q : Fin 16} {j : Nat} {d : Desc} (hs : applyEnv e s₀ = s) (hd : descAt s q j Op.stateFill d = true)
include hs hd

theorem exec_stateFill_unknownSource (hsrc : 1 < d.f 9 1) :
    exec (.stateFill e q j) s₀ = .next (charge (traffic s) (complete q d (refusedWith 0xE3) s)) := by
  change execStateFill e q j s₀ = _
  rw [execStateFill, hs, withDesc_descAt hd]
  simp only [if_pos hsrc]

theorem exec_stateFill_badRange {c : Nat} (hsrc : d.f 9 1 < 2) (hbad : rangeBad s (d.f 8 1) (d.f 16 8) (d.f 24 8) 4096 = some c) :
    exec (.stateFill e q j) s₀ = .next (charge (traffic s) (complete q d (refusedWith c) s)) := by
  change execStateFill e q j s₀ = _
  rw [execStateFill, hs, withDesc_descAt hd]
  simp only [if_neg (Nat.not_lt.2 (Nat.le_of_lt_succ hsrc)), hbad]

theorem exec_stateFill_misaligned (hsrc : d.f 9 1 = 1) (hgood : rangeBad s (d.f 8 1) (d.f 16 8) (d.f 24 8) 4096 = none)
    (hbuf : d.f 40 8 % 64 ≠ 0) : exec (.stateFill e q j) s₀ = .next (charge (traffic s) (complete q d (refusedWith 0xE3) s)) := by
  change execStateFill e q j s₀ = _
  rw [execStateFill, hs, withDesc_descAt hd]
  simp [hsrc, hgood, hbuf]

/-- A fill with a pattern of a plot, pond or undo range: its pages stored, and of the plot its offers taken back (R301). -/
theorem exec_stateFill_pattern (hsrc : d.f 9 1 = 0) (hregion : d.f 8 1 ∈ [0, 2, 4])
    (hgood : rangeBad s (d.f 8 1) (d.f 16 8) (d.f 24 8) 4096 = none) : ∃ o, exec (.stateFill e q j) s₀ = .next (charge (traffic s)
      (complete q d { quad := d.f 24 8 } { patternFilled d s with restore := o })) := by
  have hfilled : (List.range (d.f 24 8 / 4096)).foldl (fun t n =>
      storePage (d.f 8 1) (regionBase t (d.f 8 1) + d.f 16 8 + n * 4096) (fillPage s d n) t) s = patternFilled d s :=
    foldl_pages (fun n a t => storePage_regions (d.f 8 1) a (fillPage s d n) t) _ _ s _ s rfl
  change ∃ o, execStateFill e q j s₀ = _
  rw [execStateFill, hs, withDesc_descAt hd]
  simp only [hsrc, hgood, hfilled]
  simp only [List.mem_cons, List.not_mem_nil, or_false] at hregion
  rcases hregion with h | h | h <;> simp only [h] <;> exact ⟨_, rfl⟩

end

/-- Settles O19: the pages of the range store the pattern byte by byte; completing and charging the descriptor leave memory and the guard
alone. -/
theorem stateFillWritesTheRange : Obligations.StateFillWritesTheRange := by
  unfold Obligations.StateFillWritesTheRange
  refine ⟨fun e s₀ s q j d hs hd hsrc hregion hgood hinj => ?_, fun e s₀ s q j d hs hd => ⟨fun c => exec_stateFill_badRange hs hd,
    exec_stateFill_unknownSource hs hd, exec_stateFill_misaligned hs hd⟩,
    fun s r off len unit hr => ⟨rangeBad_notDeclared_iff hr off len unit, rangeBad_none_iff hr off len unit⟩⟩
  have hregion5 : ∀ r ∈ [0, 2, 4], r < 5 := by decide
  obtain ⟨-, -, hlen, -, -⟩ := (rangeBad_none_iff (hregion5 _ hregion) _ _ _).1 hgood
  obtain ⟨o, hexec⟩ := exec_stateFill_pattern hs hd hsrc hregion hgood
  obtain ⟨hhbm, hguard, hrunning⟩ := charge_complete (traffic s) q d { quad := d.f 24 8 } { patternFilled d s with restore := o }
  refine ⟨_, hexec, fun x => ?_, fun n hn => ?_, ?_⟩
  · rw [hhbm]
    exact readByte_patternFilled hinj hsrc hlen x
  · rw [hguard]
    exact damaged_fillPages hinj n _ hn
  · rw [hrunning]
    exact congrArg (fun rings : Vector Ring 16 => (rings[q.val]'q.isLt).running.filter (· ≠ d)) (rings_fillPages ..)

end Sys2Proof.Machine
end

section
/-! PROOF. The descriptors that read for the host or visit pages: COUNTER_READ and HEALTH_READ (R376, R377), SCRUB_RANGE and REPAIR_RANGE
(R266). -/

namespace Sys2Proof.Machine

open Sys2Proof

/-! ### COUNTER_READ (R377) -/

/-- A COUNTER_READ within bounds: its first register, its number of registers and its buffer. -/
def CountersFit (d : Desc) : Prop :=
  d.f 8 4 % 4 = 0 ∧ 0 < d.f 12 4 ∧ d.f 12 4 ≤ 4096 ∧ d.f 8 4 + 4 * d.f 12 4 ≤ 2 ^ 20 ∧ d.f 24 8 % 64 = 0

theorem countersFit_iff_not_refused (d : Desc) : CountersFit d ↔
    ¬ (d.f 8 4 % 4 ≠ 0 ∨ d.f 12 4 = 0 ∨ 4096 < d.f 12 4 ∨ 2 ^ 20 < d.f 8 4 + 4 * d.f 12 4 ∨ d.f 24 8 % 64 ≠ 0) := by
  unfold CountersFit
  omega

section
variable {e : Env} {s₀ s : State} {q : Fin 16} {j : Nat} {d : Desc} (hs : applyEnv e s₀ = s) (hd : descAt s q j Op.counterRead d = true)
include hs hd

theorem exec_counterRead_misfit (hfits : ¬ CountersFit d) :
    exec (.counterRead e q j) s₀ = .next (charge (traffic s) (complete q d (refusedWith 0xE3) s)) := by
  change execCounterRead e q j s₀ = _
  rw [execCounterRead, hs, withDesc_descAt hd]
  exact congrArg (fun t => Host.Outcome.next (charge (traffic s) t)) (if_pos (not_not.1 (mt (countersFit_iff_not_refused d).2 hfits)))

theorem exec_counterRead_fits (hfits : CountersFit d) :
    let offs := (List.range (d.f 12 4)).map fun i => d.f 8 4 + 4 * i
    let s' := if bit 0 (d.f 16 1) then (offs.filter clearsOnWrite).foldl (fun s o => regPut o 0 s) s else s
    exec (.counterRead e q j) s₀ = .next (charge (traffic s) (complete q d { word := d.f 12 4, quad := s'.hostTime }
      (hostWrite (d.f 24 8) (offs.flatMap fun o => le 4 (readReg s o).toNat) s'))) := by
  change execCounterRead e q j s₀ = _
  rw [execCounterRead, hs, withDesc_descAt hd]
  exact congrArg (fun t => Host.Outcome.next (charge (traffic s) t)) (if_neg ((countersFit_iff_not_refused d).1 hfits))

end

/-- Registers put leave the time as it is. -/
theorem hostTime_foldl_regPut (n : Nat) : ∀ (l : List Nat) (s : State), (l.foldl (fun s o => regPut o n s) s).hostTime = s.hostTime
  | [], _ => rfl
  | _ :: l, _ => hostTime_foldl_regPut n l _

/-! ### HEALTH_READ (R376) -/

/-- The size of the health history of h tensors (R28). -/
def historySize (h : Nat) : Nat := roundUp (8 * h * 32) 65536

/-- A HEALTH_READ within bounds: its tensors, its buffer, and a history that the cistern holds. -/
def HealthFits (s : State) (d : Desc) : Prop :=
  0 < d.f 12 4 ∧ d.f 12 4 ≤ 8192 ∧ d.f 8 4 + d.f 12 4 ≤ d.f 16 4 ∧ d.f 24 8 % 64 = 0 ∧ historySize (d.f 16 4) ≤ regionSize s 3

theorem healthFits_iff_not_refused (s : State) (d : Desc) : HealthFits s d ↔
    ¬ (d.f 12 4 = 0 ∨ 8192 < d.f 12 4 ∨ d.f 16 4 < d.f 8 4 + d.f 12 4 ∨ d.f 24 8 % 64 ≠ 0 ∨ regionSize s 3 < historySize (d.f 16 4)) := by
  unfold HealthFits
  omega

section
variable {e : Env} {s₀ s : State} {q : Fin 16} {j : Nat} {d : Desc} (hs : applyEnv e s₀ = s) (hd : descAt s q j Op.healthRead d = true)
include hs hd

theorem exec_healthRead_noCistern (hnone : regionSize s 3 = 0) :
    exec (.healthRead e q j) s₀ = .next (charge (traffic s) (complete q d (refusedWith 0xE6) s)) := by
  change execHealthRead e q j s₀ = _
  rw [execHealthRead, hs, withDesc_descAt hd]
  exact congrArg (fun t => Host.Outcome.next (charge (traffic s) t)) (if_pos hnone)

theorem exec_healthRead_misfit (hsome : regionSize s 3 ≠ 0) (hfits : ¬ HealthFits s d) :
    exec (.healthRead e q j) s₀ = .next (charge (traffic s) (complete q d (refusedWith 0xE3) s)) := by
  change execHealthRead e q j s₀ = _
  rw [execHealthRead, hs, withDesc_descAt hd]
  exact congrArg (fun t => Host.Outcome.next (charge (traffic s) t))
    ((if_neg hsome).trans (if_pos (not_not.1 (mt (healthFits_iff_not_refused s d).2 hfits))))

theorem exec_healthRead_fits (hsome : regionSize s 3 ≠ 0) (hfits : HealthFits s d) :
    let got := healthSpans (cisternBase s + regionSize s 3 - historySize (d.f 16 4)) (d.f 8 4) (d.f 12 4) (d.f 16 4) s
    exec (.healthRead e q j) s₀ = .next (charge (traffic s) (healthAnswer q d (d.f 24 8) (d.f 12 4) got.1 got.2.1 got.2.2)) := by
  change execHealthRead e q j s₀ = _
  rw [execHealthRead, hs, withDesc_descAt hd]
  exact congrArg (fun t => Host.Outcome.next (charge (traffic s) t))
    ((if_neg hsome).trans (if_neg ((healthFits_iff_not_refused s d).1 hfits)))

end

/-- Settles O21: each read by the bounds of its range, and the time of a COUNTER_READ that its clears leave. -/
theorem healthAndCounterReads : Obligations.HealthAndCounterReads := by
  unfold Obligations.HealthAndCounterReads
  refine ⟨fun e s₀ s q j d hs hd => ⟨fun hgood => ?_, exec_counterRead_misfit hs hd⟩,
    fun e s₀ s q j d hs hd => ⟨exec_healthRead_noCistern hs hd, exec_healthRead_fits hs hd, exec_healthRead_misfit hs hd⟩⟩
  refine (exec_counterRead_fits hs hd hgood).trans ?_
  split
  · rw [hostTime_foldl_regPut]
  · rfl

/-! ### SCRUB_RANGE and REPAIR_RANGE (R266) -/

/-- Whether the range of a descriptor has begun. -/
def rangeBegun (s : State) (q : Fin 16) (j : Nat) : Bool := s.guard.ranges.any fun x => x.ring = q ∧ x.idx = j

/-- The range of a descriptor begun. -/
def beginRange (q : Fin 16) (j : Nat) (s : State) : State := { s with guard.ranges := s.guard.ranges ++ [{ ring := q, idx := j }] }

theorem visitRange_pages {go : Nat → RepairFor → State → State} (hgo : ∀ a w t, (go a w t).regions = t.regions) (q : Fin 16)
    (j r off len : Nat) (s : State) : visitRange q j r off len go s = finishRanges
      ((List.range (len / 4096)).foldl (fun t n => go (regionBase s r + off + n * 4096) (.descriptor q j) t) (beginRange q j s)) :=
  congrArg finishRanges (foldl_pages (fun _ a t => hgo a (.descriptor q j) t) r off s _ (beginRange q j s) rfl)

section
variable {s : State} {q : Fin 16} {j op : Nat} {d : Desc} (hd : descAt s q j op d = true) {go : Nat → Nat → RepairFor → State → State}
include hd

theorem rangeDesc_begun (hw : rangeBegun s q j = true) : rangeDesc q j op go s = charge (traffic s) s := by
  rw [rangeDesc, withDesc_descAt hd]
  exact congrArg (charge (traffic s)) (if_pos hw)

theorem rangeDesc_bad (hw : rangeBegun s q j = false) {c : Nat} (hbad : rangeBad s (d.f 8 1) (d.f 16 8) (d.f 24 8) 65536 = some c) :
    rangeDesc q j op go s = charge (traffic s) (complete q d (refusedWith c) s) := by
  rw [rangeDesc, withDesc_descAt hd]
  refine congrArg (charge (traffic s)) ((if_neg (Bool.eq_false_iff.1 hw)).trans ?_)
  rw [hbad]

theorem rangeDesc_good (hgo : ∀ r a w t, (go r a w t).regions = t.regions) (hw : rangeBegun s q j = false)
    (hgood : rangeBad s (d.f 8 1) (d.f 16 8) (d.f 24 8) 65536 = none) : rangeDesc q j op go s = charge (traffic s) (finishRanges
      ((List.range (d.f 24 8 / 4096)).foldl
        (fun t n => go (d.f 8 1) (regionBase s (d.f 8 1) + d.f 16 8 + n * 4096) (.descriptor q j) t) (beginRange q j s))) := by
  rw [rangeDesc, withDesc_descAt hd, ← visitRange_pages (hgo _)]
  refine congrArg (charge (traffic s)) ((if_neg (Bool.eq_false_iff.1 hw)).trans ?_)
  rw [hgood]

end

/-- Settles O22: both descriptors by the function that begins a range, whose visits move no region. -/
theorem scrubAndRepairRanges : Obligations.ScrubAndRepairRanges := by
  rintro e s₀ _ q j d rfl
  exact ⟨fun hd => ⟨fun hw hgood => congrArg Host.Outcome.next (rangeDesc_good hd scrubPage_regions hw hgood),
      fun _ hw hbad => congrArg Host.Outcome.next (rangeDesc_bad hd hw hbad), fun hw => congrArg Host.Outcome.next (rangeDesc_begun hd hw)⟩,
    fun hd => ⟨fun hw hgood => congrArg Host.Outcome.next (rangeDesc_good hd escalate_regions hw hgood),
      fun _ hw hbad => congrArg Host.Outcome.next (rangeDesc_bad hd hw hbad), fun hw => congrArg Host.Outcome.next (rangeDesc_begun hd hw)⟩⟩

end Sys2Proof.Machine
end

section
/-! PROOF. Repair traffic (R257 to R261): a delivered record of its kind is its function, and each function by its branches. -/

namespace Sys2Proof.Machine

open Sys2Proof

theorem length_repairRecBytes (r : RepairRec) : (repairRecBytes r).length = 32 := by
  simp [repairRecBytes, length_leBytes]

/-- A delivered record of its kind reaches its function, on the state as it is. -/
theorem repairRow_delivered {e : Env} {s₀ s : State} {h : PktHead} {r : RepairRec} (hs : applyEnv e s₀ = s)
    (hd : delivered s h 1 51 32 = true) {kinds : List Nat} (hk : r.kind ∈ kinds) (go : State → State) : repairRow e h r kinds go s₀ = go s := by
  unfold repairRow
  rw [hs, if_neg (by simp [hk]), length_repairRecBytes, receive_delivered hd]

/-! ### Requests (R259) -/

section
variable {e : Env} {s₀ s : State} {h : PktHead} {r : RepairRec} (hs : applyEnv e s₀ = s) (hd : delivered s h 1 51 32 = true) (hk : r.kind = 0)
include hs hd hk

/-- A request for a stripe whose parity is held here: judged by its requester. -/
theorem exec_repairRequest_held {j slot : Nat} (hstripe : r.stripe < plotChunks s) (hheld : heldParity s r.stripe = some (j, slot)) :
    exec (.repairRequest e h r) s₀ = .next
      (if !isOurMember s r.requester || (isLocal s j && memberOf s r.requester / 4 ≠ j) then refuseRepair r s else startMend r j slot s) := by
  change execRepairRequest e h r s₀ = _
  rw [execRepairRequest, repairRow_delivered hs hd (by simp [hk]), if_neg (Nat.not_le.2 hstripe), hheld]

theorem exec_repairRequest_starts {j slot : Nat} (hstripe : r.stripe < plotChunks s) (hheld : heldParity s r.stripe = some (j, slot))
    (hmember : isOurMember s r.requester = true) (hgroup : isLocal s j = true → memberOf s r.requester / 4 = j) :
    exec (.repairRequest e h r) s₀ = .next (startMend r j slot s) := by
  rw [exec_repairRequest_held hs hd hk hstripe hheld, if_neg]
  simpa [hmember] using hgroup

theorem exec_repairRequest_outsider {j slot : Nat} (hstripe : r.stripe < plotChunks s) (hheld : heldParity s r.stripe = some (j, slot))
    (hother : isOurMember s r.requester = false ∨ (isLocal s j = true ∧ memberOf s r.requester / 4 ≠ j)) :
    exec (.repairRequest e h r) s₀ = .next (refuseRepair r s) := by
  rw [exec_repairRequest_held hs hd hk hstripe hheld, if_pos]
  simpa using hother

theorem exec_repairRequest_notHeld (hnone : plotChunks s ≤ r.stripe ∨ heldParity s r.stripe = none) :
    exec (.repairRequest e h r) s₀ = .next (refuseRepair r s) := by
  have hparity : (if plotChunks s ≤ r.stripe then none else heldParity s r.stripe) = none := by
    rcases hnone with hpast | hheld
    · exact if_pos hpast
    · rw [hheld, ite_self]
  change execRepairRequest e h r s₀ = _
  rw [execRepairRequest, repairRow_delivered hs hd (by simp [hk]), hparity]

end

/-! ### Chain records (R259 to R261) -/

section
variable {e : Env} {s₀ s : State} {h : PktHead} {r : RepairRec} (hs : applyEnv e s₀ = s) (hd : delivered s h 1 51 32 = true)
  (hk : r.kind = 1 ∨ r.kind = 2)
include hs hd hk

theorem exec_repairChainRecord_requester (hme : r.requester = here s) : exec (.repairChainRecord e h r) s₀ = .next (endMend r s) := by
  change execRepairChainRecord e h r s₀ = _
  rw [execRepairChainRecord, repairRow_delivered hs hd (by simpa using hk), if_pos hme]

theorem exec_repairChainRecord_pastPlot (hother : r.requester ≠ here s) (hstripe : plotChunks s ≤ r.stripe) :
    exec (.repairChainRecord e h r) s₀ = .next s := by
  change execRepairChainRecord e h r s₀ = _
  rw [execRepairChainRecord, repairRow_delivered hs hd (by simpa using hk), if_neg hother, if_pos hstripe]

theorem exec_repairChainRecord_link {rest : List Coord} (hother : r.requester ≠ here s) (hstripe : r.stripe < plotChunks s)
    (hroute : ((mendRoute s (here s) r).dropWhile fun c => c ≠ here s) = here s :: rest) :
    exec (.repairChainRecord e h r) s₀ = .next (linkMend r rest s) := by
  change execRepairChainRecord e h r s₀ = _
  rw [execRepairChainRecord, repairRow_delivered hs hd (by simpa using hk), if_neg hother, if_neg (Nat.not_le.2 hstripe), hroute]

theorem exec_repairChainRecord_unnamed (hother : r.requester ≠ here s) (hstripe : r.stripe < plotChunks s)
    (hroute : ((mendRoute s (here s) r).dropWhile fun c => c ≠ here s) = []) : exec (.repairChainRecord e h r) s₀ = .next s := by
  change execRepairChainRecord e h r s₀ = _
  rw [execRepairChainRecord, repairRow_delivered hs hd (by simpa using hk), if_neg hother, if_neg (Nat.not_le.2 hstripe), hroute]

end

/-! ### Push requests (R257) -/

/-- A page that a push request names, read from where this chip holds it. -/
def readNamed (r : RepairRec) (n : Nat) (s : State) : Option Bytes × State :=
  match pushSource s r n with
  | some (region, a) => readPage region a {} s
  | none => (none, s)

/-- A page that a push request names, escalated where it does not read. -/
def escalateNamed (r : RepairRec) (s : State) (n : Nat) : State :=
  match pushSource s r n with
  | some (region, a) => escalateUnread region [a] .escalation s
  | none => s

/-- The answer to a push request by what was read: the pages pushed, a mirror copy of a plot page with the bits it was read under; where one does
not read, the escalation and a refusal. -/
def pushAnswer (r : RepairRec) (read : Option (List (Nat × Bytes)) × State) : State :=
  match read.1 with
  | none => refuseRepair r ((pagesOf r.mask).foldl (escalateNamed r) read.2)
  | some ps =>
    if r.target = 0 then
      sendMend r.requester { r with kind := 1, arrival := arrivalOf read.2 r.stripe, pending := pendings read.2 r.stripe } ps (holdStripe r read.2)
    else sendPages r.requester 50 (r.tag % 64 * 65536) ps read.2

/-- Whether this chip has a source of every page that a push request names. -/
def hasSources (s : State) (r : RepairRec) : Bool := (pagesOf r.mask).all fun n => (pushSource s r n).isSome

section
variable {e : Env} {s₀ s : State} {h : PktHead} {r : RepairRec} (hs : applyEnv e s₀ = s) (hd : delivered s h 1 51 32 = true) (hk : r.kind = 4)
include hs hd hk

theorem exec_repairPushRequest_noSource (hall : hasSources s r = false) :
    exec (.repairPushRequest e h r) s₀ = .next (refuseRepair r s) := by
  change execRepairPushRequest e h r s₀ = _
  rw [execRepairPushRequest, repairRow_delivered hs hd (by simp [hk])]
  exact congrArg Host.Outcome.next (if_neg (Bool.eq_false_iff.1 hall))

/-- Where every page has a source, the answer goes by what was read. -/
theorem exec_repairPushRequest_sourced (hall : hasSources s r = true) :
    exec (.repairPushRequest e h r) s₀ = .next (pushAnswer r (gather (readNamed r) (pagesOf r.mask) s)) := by
  change execRepairPushRequest e h r s₀ = _
  rw [execRepairPushRequest, repairRow_delivered hs hd (by simp [hk])]
  exact congrArg Host.Outcome.next (if_pos hall)

end

/-! ### Delivered pages (R258, R263) -/

/-- The attempt that asked for page n of a buffer slot by a push request. -/
def askedPush (s : State) (slot n : Nat) : Option Attempt :=
  s.guard.attempts.find? fun a => a.kind = 4 && !a.deferred && a.tag % 64 = slot && a.page = n && !(a.region = 0 && mirrorMode s)

/-- A page put in its place of the repair buffer. -/
def bufferPage (slot n : Nat) (bs : Bytes) (s : State) : State :=
  { s with guard.buffer := (s.guard.buffer.filter fun b => !(b.1 = slot ∧ b.2.1 = n)) ++ [(slot, n, bs)] }

section
variable {e : Env} {s₀ s : State} {h : PktHead} {bs : Bytes} (hs : applyEnv e s₀ = s) (hd : delivered s h 1 50 bs.length = true)
include hs hd

theorem exec_repairPages_part (hpart : h.offset % 4096 ≠ 0 ∨ bs.length ≠ 4096) : exec (.repairPages e h bs) s₀ = .next s := by
  change execRepairPages e h bs s₀ = _
  rw [execRepairPages, hs, receive_delivered hd, if_pos hpart]

/-- A whole page goes to the attempt that asked for it, else to the buffer. -/
theorem exec_repairPages_whole (hoff : h.offset % 4096 = 0) (hlen : bs.length = 4096) : exec (.repairPages e h bs) s₀ = .next
    (match askedPush s (h.offset / 65536) (h.offset % 65536 / 4096) with
      | some a => poke (attemptDone a bs s)
      | none => bufferPage (h.offset / 65536) (h.offset % 65536 / 4096) bs s) := by
  change execRepairPages e h bs s₀ = _
  rw [execRepairPages, hs, receive_delivered hd, if_neg (by simp [hoff, hlen])]
  rfl

end

/-- Settles O53: a delivered record is its function, whose branches are the cases of the statement. -/
theorem repairTraffic : Obligations.RepairTraffic := by
  unfold Obligations.RepairTraffic
  refine ⟨fun e s₀ s h r hs hd hk => ⟨fun j slot hstripe hheld => ⟨?_, ?_⟩, ?_⟩, fun e s₀ s h r hs hd hk => ⟨?_, ?_, ?_⟩,
    fun e s₀ s h r hs hd hk => ⟨?_, fun ps s' hall hread => ?_, fun s' hall hread => ?_⟩,
    fun e s₀ s h bs hs hd => ⟨fun hoff hlen => ⟨fun hnone => ?_, fun a hasked => ?_⟩, ?_⟩⟩
  · exact exec_repairRequest_starts hs hd hk hstripe hheld
  · exact exec_repairRequest_outsider hs hd hk hstripe hheld
  · exact exec_repairRequest_notHeld hs hd hk
  · exact exec_repairChainRecord_requester hs hd hk
  · exact fun hother hstripe => ⟨fun _ => exec_repairChainRecord_link hs hd hk hother hstripe,
      exec_repairChainRecord_unnamed hs hd hk hother hstripe⟩
  · exact exec_repairChainRecord_pastPlot hs hd hk
  · exact exec_repairPushRequest_noSource hs hd hk
  · rw [exec_repairPushRequest_sourced hs hd hk hall, show gather (readNamed r) (pagesOf r.mask) s = (some ps, s') from hread]
    exact ⟨fun htarget => congrArg Host.Outcome.next (if_neg htarget), fun htarget => congrArg Host.Outcome.next (if_pos htarget)⟩
  · rw [exec_repairPushRequest_sourced hs hd hk hall, show gather (readNamed r) (pagesOf r.mask) s = (none, s') from hread]
    rfl
  · rw [exec_repairPages_whole hs hd hoff hlen, show askedPush s _ _ = none from hnone]
    rfl
  · rw [exec_repairPages_whole hs hd hoff hlen, show askedPush s _ _ = some a from hasked]
  · exact exec_repairPages_part hs hd

/-! ### Ends of attempts (R260, R263) -/

section
variable {e : Env} {s₀ s : State} (hs : applyEnv e s₀ = s)
include hs

theorem exec_repairTimeout_attempt {tag : Nat} {a : Attempt} (hf : flumeRuns s = true) (ha : attemptOf s tag = some a) :
    exec (.repairTimeout e tag) s₀ = .next (if a.deadline ≤ s.ht then poke (attemptFailed a s) else s) := by
  change execRepairTimeout e tag s₀ = _
  simp [execRepairTimeout, hs, ha, hf]

theorem exec_repairTimeout_none {tag : Nat} (ha : attemptOf s tag = none) : exec (.repairTimeout e tag) s₀ = .next s := by
  change execRepairTimeout e tag s₀ = _
  simp only [execRepairTimeout, hs, ha]

variable {h : PktHead} {r : RepairRec} (hd : delivered s h 1 51 32 = true)
include hd

theorem exec_repairRefused_attempt (hk : r.kind = 5) {a : Attempt} (ha : attemptOf s r.tag = some a) :
    exec (.repairRefused e h r) s₀ = .next (poke (attemptFailed a s)) := by
  change execRepairRefused e h r s₀ = _
  rw [execRepairRefused, repairRow_delivered hs hd (by simp [hk]), ha]

theorem exec_repairRefused_none (hk : r.kind = 5) (ha : attemptOf s r.tag = none) :
    exec (.repairRefused e h r) s₀ = .next (count Reg.dropRepairTag 1 s) := by
  change execRepairRefused e h r s₀ = _
  rw [execRepairRefused, repairRow_delivered hs hd (by simp [hk]), ha]

theorem exec_repairDone_delivered (hk : r.kind = 3) : exec (.repairDone e h r) s₀ = .next (poke { s with
    guard.holds := s.guard.holds.filter fun x => !(x.tag = r.tag ∧ x.requester = h.sender) }) := by
  change execRepairDone e h r s₀ = _
  rw [execRepairDone, repairRow_delivered hs hd (by simp [hk])]

end

/-- Settles O54: a timeout by the attempt of its tag and its deadline, a refused and a done record by their functions. -/
theorem repairAttemptsEnd : Obligations.RepairAttemptsEnd := by
  unfold Obligations.RepairAttemptsEnd
  refine ⟨fun e s₀ s tag a hs hf ha => ?_, fun e s₀ s tag hs ha => exec_repairTimeout_none hs ha,
    fun e s₀ s h r hs hd hk => ⟨fun a ha => exec_repairRefused_attempt hs hd hk ha, exec_repairRefused_none hs hd hk⟩,
    fun e s₀ s h r hs hd hk => exec_repairDone_delivered hs hd hk, rfl⟩
  rw [exec_repairTimeout_attempt hs hf ha]
  exact ⟨fun hdue => by rw [if_pos hdue], fun hearly => by rw [if_neg (Nat.not_le.2 hearly)]⟩

end Sys2Proof.Machine
end

section
/-! PROOF. The descriptors of the pond, the spillway and streaming (R271, R276, R286 to R296): each by the branches of its function. -/

namespace Sys2Proof.Machine

open Sys2Proof

/-- A row that runs a descriptor's function answers what the function gives for the descriptor that runs. -/
theorem next_of_descAt {s t : State} {q : Fin 16} {j op : Nat} {d : Desc} {go : Desc → State → State} {o : Answer}
    (hd : descAt s q j op d = true) (ho : o = .next (withDesc q j op go s)) (hgo : go d s = t) : o = .next (charge (traffic s) t) := by
  rw [ho, withDesc_descAt hd, hgo]

/-! ### SNAP_POND (R271, R276) -/

section
variable {e : Env} {s₀ s : State} {q : Fin 16} {j : Nat} {d : Desc} (hs : applyEnv e s₀ = s) (hd : descAt s q j Op.snapPond d = true)
include hs hd

theorem exec_snapPond_refused {c : Nat} (hbad : snapPondBad s = some c) :
    exec (.snapPond e q j) s₀ = .next (charge (traffic s) (complete q d (refusedWith c) s)) := by
  subst hs
  exact next_of_descAt hd rfl (by rw [hbad])

/-- One that is not refused: it waits for the pond, or the copy begins. -/
theorem exec_snapPond_allowed {p : Plan} (hbad : snapPondBad s = none) (hp : s.plans.standby = some p) :
    exec (.snapPond e q j) s₀ = .next (charge (traffic s) (if s.pond.held || s.pond.copy.isSome then s
      else { startCopy p s with pond.copy := some { turn := none, plan := some p, ring := q, idx := j } })) := by
  subst hs
  exact next_of_descAt hd rfl (by rw [hbad, hp])

end

/-! ### SNAP_DRAIN (R287, R290) -/

section
variable {e : Env} {s₀ s : State} {q : Fin 16} {j : Nat} {d : Desc} (hs : applyEnv e s₀ = s) (hd : descAt s q j Op.snapDrain d = true)
include hs hd

theorem exec_snapDrain_draining (hdrain : s.pond.drain.isSome = true) : exec (.snapDrain e q j) s₀ = .next (charge (traffic s) s) := by
  subst hs
  exact next_of_descAt hd rfl (if_pos hdrain)

/-- With no drain in progress the descriptor's wait-for-next field decides. -/
theorem exec_snapDrain_idle (hidle : s.pond.drain = none) : exec (.snapDrain e q j) s₀ = .next (charge (traffic s)
    (if 1 < d.f 8 1 then complete q d (refusedWith 0xE3) s
      else if d.f 8 1 = 1 then putDrain { ring := q, idx := j, waitNext := true } s
      else beginDrain { ring := q, idx := j, waitNext := false } s)) := by
  subst hs
  exact next_of_descAt hd rfl (if_neg (by rw [hidle]; exact Bool.false_ne_true))

end

/-! ### SNAP_EXPORT (R293) -/

/-- The slot number, the buffer's address and its length as SNAP_EXPORT and SNAP_MANIFEST accept them (R293, R374). -/
def SlotReadFits (d : Desc) : Prop := d.f 8 1 < 8 ∧ d.f 24 8 % 64 = 0 ∧ d.f 32 8 % 64 = 0

theorem slotReadFits_iff_not_refused (d : Desc) : SlotReadFits d ↔ ¬ (7 < d.f 8 1 ∨ d.f 24 8 % 64 ≠ 0 ∨ d.f 32 8 % 64 ≠ 0) := by
  unfold SlotReadFits
  omega

section
variable {e : Env} {s₀ s : State} {q : Fin 16} {j : Nat} {d : Desc} (hs : applyEnv e s₀ = s) (hd : descAt s q j Op.snapExport d = true)
include hs hd

theorem exec_snapExport_misfit (hfits : ¬ SlotReadFits d) :
    exec (.snapExport e q j) s₀ = .next (charge (traffic s) (refreshSlots (complete q d (refusedWith 0xE3) s))) := by
  subst hs
  exact next_of_descAt hd rfl (congrArg refreshSlots (if_pos (not_not.1 (mt (slotReadFits_iff_not_refused d).2 hfits))))

variable (hfits : SlotReadFits d)
include hfits

theorem exec_snapExport_unwritten (hnone : slotValid s (d.f 8 1) = false ∨ writtenEntry s (d.f 8 1) (d.f 16 4) = none) :
    exec (.snapExport e q j) s₀ = .next (charge (traffic s) (refreshSlots (complete q d (refusedWith 0xE4) s))) := by
  have hentry : (if slotValid s (d.f 8 1) then writtenEntry s (d.f 8 1) (d.f 16 4) else none) = none := by
    rcases hnone with hvoid | hnone
    · exact if_neg (Bool.eq_false_iff.1 hvoid)
    · rw [hnone, ite_self]
  subst hs
  refine next_of_descAt hd rfl (congrArg refreshSlots ((if_neg ((slotReadFits_iff_not_refused d).1 hfits)).trans ?_))
  rw [hentry]

/-- A written entry of a valid slot: refused where the buffer is too small, else the shard's readable bytes copied. -/
theorem exec_snapExport_written (hvalid : slotValid s (d.f 8 1) = true) {off stored sum chunks : Nat}
    (hwritten : writtenEntry s (d.f 8 1) (d.f 16 4) = some (off, stored, sum, chunks)) :
    let a := slotBase s (d.f 8 1) + off
    let bs := flashRead s a stored
    exec (.snapExport e q j) s₀ = .next (charge (traffic s) (refreshSlots
      (if d.f 32 8 < stored then complete q d { refusedWith 0xE5 with word := d.f 16 4, quad := stored } s
        else complete q d
          { status := if unitsGood s a stored && crc32c bs = sum then Code.ok else Code.pageUnrecoverable,
            detail := d.f 8 1, word := d.f 16 4, quad := stored } (hostWrite (d.f 24 8) (bs.take (goodBytes s.badUnits a stored)) s)))) := by
  subst hs
  refine next_of_descAt hd rfl (congrArg refreshSlots ((if_neg ((slotReadFits_iff_not_refused d).1 hfits)).trans ?_))
  rw [if_pos hvalid, hwritten]

end

/-! ### SNAP_MANIFEST (R293, R374) -/

section
variable {e : Env} {s₀ s : State} {q : Fin 16} {j : Nat} {d : Desc} (hs : applyEnv e s₀ = s) (hd : descAt s q j Op.snapManifest d = true)
include hs hd

theorem exec_snapManifest_misfit (hfits : ¬ SlotReadFits d) :
    exec (.snapManifest e q j) s₀ = .next (charge (traffic s) (complete q d (refusedWith 0xE3) s)) := by
  subst hs
  exact next_of_descAt hd rfl (if_pos (not_not.1 (mt (slotReadFits_iff_not_refused d).2 hfits)))

variable (hfits : SlotReadFits d)
include hfits

theorem exec_snapManifest_void (hvoid : slotValid s (d.f 8 1) = false) : exec (.snapManifest e q j) s₀ =
    .next (charge (traffic s) (complete q d { status := Code.manifestIncomplete, detail := d.f 8 1 } s)) := by
  subst hs
  exact next_of_descAt hd rfl ((if_neg ((slotReadFits_iff_not_refused d).1 hfits)).trans (if_pos (by rw [hvoid]; rfl)))

/-- A valid slot: refused where the buffer is too small, else its manifest and its table. -/
theorem exec_snapManifest_valid (hvalid : slotValid s (d.f 8 1) = true) :
    let need := 4096 + roundUp (32 * tableCount (manifestOf s (d.f 8 1))) 4096
    exec (.snapManifest e q j) s₀ = .next (charge (traffic s)
      (if d.f 32 8 < need then complete q d { refusedWith 0xE5 with word := need, quad := slotSeq s (d.f 8 1) } s
        else complete q d { detail := d.f 8 1, word := need, quad := slotSeq s (d.f 8 1) }
          (hostWrite (d.f 24 8) (flashRead s (slotBase s (d.f 8 1)) need) s))) := by
  subst hs
  exact next_of_descAt hd rfl
    ((if_neg ((slotReadFits_iff_not_refused d).1 hfits)).trans (if_neg (by rw [hvalid]; exact Bool.false_ne_true)))

end

/-! ### STREAM_WINDOW (R295) -/

section
variable {e : Env} {s₀ s : State} {q : Fin 16} {j : Nat} {d : Desc} (hs : applyEnv e s₀ = s) (hd : descAt s q j Op.streamWindow d = true)
  (hnew : (s.pond.streams.any fun x => x.ring = q ∧ x.idx = j) = false)
include hs hd hnew

theorem exec_streamWindow_begins (hgood : streamBad s d = none) : exec (.streamWindow e q j) s₀ =
    .next (charge (traffic s) { s with pond.streams := s.pond.streams ++ [{ ring := q, idx := j }] }) := by
  subst hs
  refine next_of_descAt hd rfl ((if_neg (Bool.eq_false_iff.1 hnew)).trans ?_)
  rw [hgood]

theorem exec_streamWindow_refused {c : Nat} (hbad : streamBad s d = some c) :
    exec (.streamWindow e q j) s₀ = .next (charge (traffic s) (refreshSlots (complete q d (refusedWith c) s))) := by
  subst hs
  refine next_of_descAt hd rfl ((if_neg (Bool.eq_false_iff.1 hnew)).trans ?_)
  rw [hbad]

end

/-- Settles O23: each descriptor by what its row answers; where one answer holds two outcomes, the size or the wait decides between them. -/
theorem snapshotDescriptors : Obligations.SnapshotDescriptors := by
  unfold Obligations.SnapshotDescriptors
  refine ⟨fun e s₀ s q j d hs hd => ⟨fun c => exec_snapPond_refused hs hd, fun p hbad hp hheld hcopy => ?_, fun p hbad hp hwait => ?_⟩,
    fun e s₀ s q j d hs hd => ⟨fun hidle => ⟨fun hwait => ?_, fun hnow => ?_, fun hother => ?_⟩, exec_snapDrain_draining hs hd⟩,
    fun e s₀ s q j d hs hd => ⟨fun off stored sum chunks hfits hvalid hwritten => ⟨fun hroom => ?_, fun hshort => ?_⟩,
      exec_snapExport_unwritten hs hd, exec_snapExport_misfit hs hd⟩,
    fun e s₀ s q j d hs hd => ⟨fun hfits hvalid => ⟨fun hroom => ?_, fun hshort => ?_⟩, exec_snapManifest_void hs hd,
      exec_snapManifest_misfit hs hd⟩,
    fun e s₀ s q j d hs hd hnew => ⟨exec_streamWindow_begins hs hd hnew, fun c => exec_streamWindow_refused hs hd hnew⟩⟩
  · rw [exec_snapPond_allowed hs hd hbad hp, if_neg (by simp [hheld, hcopy])]
  · rw [exec_snapPond_allowed hs hd hbad hp, if_pos (by simpa using hwait)]
  · rw [exec_snapDrain_idle hs hd hidle, if_neg (by omega), if_pos hwait]
    rfl
  · rw [exec_snapDrain_idle hs hd hidle, if_neg (by omega), if_neg (by omega)]
  · rw [exec_snapDrain_idle hs hd hidle, if_pos hother]
  · exact (exec_snapExport_written hs hd hfits hvalid hwritten).trans (by rw [if_neg (Nat.not_lt.2 hroom)])
  · exact (exec_snapExport_written hs hd hfits hvalid hwritten).trans (by rw [if_pos hshort])
  · exact (exec_snapManifest_valid hs hd hfits hvalid).trans (by rw [if_neg (Nat.not_lt.2 hroom)])
  · exact (exec_snapManifest_valid hs hd hfits hvalid).trans (by rw [if_pos hshort])

end Sys2Proof.Machine
end

section
/-! PROOF. Resets, what they keep, and start retries (R288, R415 to R422, R434). -/

namespace Sys2Proof.Machine

open Sys2Proof

/-! ### What a reset keeps (R288, R421) -/

/-- Voiding the target of a drain changes the flash alone. -/
theorem voidTarget_changes_flash (s : State) : ∃ flash badUnits, voidTarget s = { s with flash, badUnits } := by
  unfold voidTarget
  split
  · split <;> exact ⟨_, _, rfl⟩
  · exact ⟨_, _, rfl⟩

theorem voidTarget_keeps (s : State) :
    (voidTarget s).hbm = s.hbm ∧ (voidTarget s).hostMem = s.hostMem ∧ (voidTarget s).regs = s.regs := by
  obtain ⟨flash, badUnits, h⟩ := voidTarget_changes_flash s
  rw [h]
  exact ⟨rfl, rfl, rfl⟩

theorem voidTarget_of_noDrain {s : State} (h : s.pond.drain = none) : voidTarget s = s := by
  rw [voidTarget, h]

/-- A list filtered by its keys: a key that the filter keeps has the value it had, any other the default. -/
theorem getKey_filter_keys {κ α : Type} [DecidableEq κ] (p : κ → Bool) (k : κ) (d : α) : ∀ l : List (κ × α),
    getKey k d (l.filter fun e => p e.1) = if p k then getKey k d l else d
  | [] => by simp [getKey]
  | (a, v) :: l => by
    have ih := getKey_filter_keys p k d l
    by_cases ha : a = k
    · subst ha
      cases hp : p a <;> simp [getKey, hp, ih]
    · cases hp : p a <;> simp [getKey, hp, ha, ih]

/-- Whether a register's Survives entry has the code (R421). -/
def regSurvives (code off : Nat) : Bool :=
  match rowAt off with
  | some (r, _) => r.surv.testBit code
  | none => false

theorem regSurvives_of_row {code off n : Nat} {r : RegRow} (h : rowAt off = some (r, n)) : regSurvives code off = r.surv.testBit code := by
  rw [regSurvives, h]

theorem keepSurviving_eq_filter (code : Nat) (l : List (Nat × Word)) : keepSurviving code l = l.filter fun e => regSurvives code e.1 := rfl

/-- A register that survives reads as before, any other its reset value. -/
theorem regGet_survivors (code : Nat) (s : State) (off : Nat) :
    regGet (survivors code s) off = if regSurvives code off then regGet s off else resetAt off := by
  change getKey off (resetAt off) (keepSurviving code (voidTarget s).regs) = _
  obtain ⟨-, -, hregs⟩ := voidTarget_keeps s
  rw [hregs, keepSurviving_eq_filter, getKey_filter_keys]
  rfl

/-! ### Engine reset (R399, R415 to R417, R443) -/

section
variable {e : Env} {s₀ s : State} {st : StartIn} (hs : applyEnv e s₀ = s)
include hs

theorem exec_engineReset_ignored (h3 : s.power.state = 3) : exec (.engineReset e st) s₀ = .next s := by
  subst hs
  exact if_pos h3

theorem exec_engineReset_noActivation (h3 : s.power.state ≠ 3) (hnone : s.fw.activation = none) :
    exec (.engineReset e st) s₀ = .next (runStart st (survivors 1 (retireTag s))) := by
  subst hs
  refine (if_neg h3).trans ?_
  rw [hnone]

theorem exec_engineReset_activation (h3 : s.power.state ≠ 3) {v d : Nat} (hsome : s.fw.activation = some (v, d)) :
    exec (.engineReset e st) s₀ = .next (runStart st (fwEvent Code.refusedTurn 3 v 0 0 (survivors 1 (retireTag s)))) := by
  subst hs
  refine (if_neg h3).trans ?_
  rw [hsome]

/-! ### Start retries (R434) -/

theorem exec_startRetry_none (hnone : s.fw.retryAt = none) : exec (.startRetry e st) s₀ = .next s := by
  subst hs
  change execStartRetry e st s₀ = _
  rw [execStartRetry, hnone]

/-- A retry that waits for its instant: a start where it has come in an engine that a start can take. -/
theorem exec_startRetry_waits {t : Nat} (hsome : s.fw.retryAt = some t) : exec (.startRetry e st) s₀ =
    .next (if t ≤ s.ht ∧ !s.ready ∧ !s.dry ∧ s.power.state < 3 then runStart st s else s) := by
  subst hs
  change execStartRetry e st s₀ = _
  rw [execStartRetry, hsome]

end

/-- Settles O60: engine resets and retries by the branches of their rows, and what survives by the registers' filter and the void target. -/
theorem resetsAndStarts : Obligations.ResetsAndStarts := by
  unfold Obligations.ResetsAndStarts
  refine ⟨fun e s₀ s st hs => ⟨fun h3 => ⟨exec_engineReset_noActivation hs h3, fun v d => exec_engineReset_activation hs h3⟩,
    exec_engineReset_ignored hs, hs ▸ rfl, hs ▸ rfl,
    fun t hsome => ⟨fun hdue hready hdry hup => ?_, fun hnot => ?_⟩, exec_startRetry_none hs⟩,
    fun code s => ?_⟩
  · rw [exec_startRetry_waits hs hsome, if_pos (by simp [hdue, hready, hdry, hup])]
  · refine (exec_startRetry_waits hs hsome).trans (congrArg Host.Outcome.next (if_neg fun hdue => ?_))
    obtain ⟨hcome, hready, hdry, hup⟩ := hdue
    rcases hnot with hearly | hready' | hdry' | h3
    · omega
    · simp [hready'] at hready
    · simp [hdry'] at hdry
    · omega
  · obtain ⟨hhbm, hhost, -⟩ := voidTarget_keeps s
    have hflash : (survivors code s).flash = (voidTarget s).flash := rfl
    exact ⟨hhbm, hflash, fun hnone => by rw [hflash, voidTarget_of_noDrain hnone], hhost, rfl, rfl, rfl,
      fun off r n hrow => by rw [regGet_survivors, regSurvives_of_row hrow]⟩

end Sys2Proof.Machine
end

section
/-! PROOF. The descriptors of a restore (R306, R309 to R312, R320, R321, R371, R374): the scan, RESTORE_LOAD and RESTORE_RESLICE, each by the
branches of its function. -/

namespace Sys2Proof.Machine

open Sys2Proof

/-! ### RESTORE_SCAN (R306, R374) -/

/-- The buffer, its length, the list of objects and their number as a RESTORE_SCAN accepts them (R374). -/
def ScanFits (d : Desc) : Prop := d.f 8 8 % 64 = 0 ∧ d.f 16 8 % 64 = 0 ∧ d.f 24 8 % 64 = 0 ∧ d.f 32 1 ≤ 64

theorem scanFits_iff_not_refused (d : Desc) :
    ScanFits d ↔ ¬ (d.f 8 8 % 64 ≠ 0 ∨ d.f 16 8 % 64 ≠ 0 ∨ d.f 24 8 % 64 ≠ 0 ∨ 64 < d.f 32 1) := by
  unfold ScanFits
  omega

section
variable {e : Env} {s₀ s : State} {q : Fin 16} {j : Nat} {d : Desc} (hs : applyEnv e s₀ = s) (hd : descAt s q j Op.restoreScan d = true)
include hs hd

theorem exec_restoreScan_misfit (hfits : ¬ ScanFits d) :
    exec (.restoreScan e q j) s₀ = .next (charge (traffic s) (complete q d (refusedWith 0xE3) s)) := by
  subst hs
  exact next_of_descAt hd rfl (if_pos (not_not.1 (mt (scanFits_iff_not_refused d).2 hfits)))

/-- A scan that fits its fields, as the buffer takes the catalogue. -/
theorem exec_restoreScan_fits (hfits : ScanFits d) :
    let cat := catalogue s (scanObjects s d)
    exec (.restoreScan e q j) s₀ = .next (charge (traffic s)
      (if d.f 16 8 < cat.2.length then complete q d { refusedWith 0xE5 with word := cat.1, quad := cat.2.length } s
        else complete q d { word := cat.1, quad := cat.2.length }
          (hostWrite (d.f 8 8) cat.2 { s with restore.state := 4, restore.status := Code.ok }))) := by
  subst hs
  exact next_of_descAt hd rfl (if_neg ((scanFits_iff_not_refused d).1 hfits))

end

/-! ### RESTORE_LOAD (R320, R321) -/

section
variable {e : Env} {s₀ s : State} {q : Fin 16} {j : Nat} {d : Desc} (hs : applyEnv e s₀ = s) (hd : descAt s q j Op.restoreLoad d = true)
include hs hd

theorem exec_restoreLoad_refused (hbad : planActive s = true ∨ s.plans.standby = none) :
    exec (.restoreLoad e q j) s₀ = .next (charge (traffic s) (complete q d (refusedWith 0xE4) s)) := by
  subst hs
  refine next_of_descAt hd rfl ?_
  rcases hbad with hactive | hnone
  · exact if_pos hactive
  · simp only [hnone, ite_self]

section
variable {p : Plan} (hidle : planActive s = false) (hp : s.plans.standby = some p)
include hidle hp

theorem exec_restoreLoad_untabled (hall : logicalAll s p = false) :
    exec (.restoreLoad e q j) s₀ = .next (charge (traffic s) (complete q d (refusedWith 0xE3) s)) := by
  subst hs
  refine next_of_descAt hd rfl ((if_neg (Bool.eq_false_iff.1 hidle)).trans ?_)
  rw [hp]
  exact if_pos (by rw [hall]; rfl)

variable (hall : logicalAll s p = true)
include hall

variable {s' : State}

theorem exec_restoreLoad_unread
    (hread : readRuns (ownSources s) (d.f 8 4) p (shardsOf s p) { s with restore.spoiled := [], restore.writtenBytes := 0 } = (none, s')) :
    exec (.restoreLoad e q j) s₀ = .next (charge (traffic s) (complete q d { status := Code.mixedStep, word := d.f 8 4 }
      { s' with restore.state := 5, restore.status := Code.mixedStep, restore.lastStep := some (d.f 8 4) })) := by
  subst hs
  refine next_of_descAt hd rfl ((if_neg (Bool.eq_false_iff.1 hidle)).trans ?_)
  rw [hp]
  refine (if_neg (by rw [hall]; exact Bool.false_ne_true)).trans ?_
  simp only [hread]

theorem exec_restoreLoad_read {runs : List (Shard × Source × Bytes)}
    (hread : readRuns (ownSources s) (d.f 8 4) p (shardsOf s p) { s with restore.spoiled := [], restore.writtenBytes := 0 } = (some runs, s')) :
    let done := loadRuns p (d.f 8 4) (ownSources s) runs s'
    exec (.restoreLoad e q j) s₀ = .next (charge (traffic s) (complete q d { word := d.f 8 4, quad := done.restore.writtenBytes }
      { done with restore.state := 4, restore.status := Code.ok })) := by
  subst hs
  refine next_of_descAt hd rfl ((if_neg (Bool.eq_false_iff.1 hidle)).trans ?_)
  rw [hp]
  refine (if_neg (by rw [hall]; exact Bool.false_ne_true)).trans ?_
  simp only [hread]

end

end

/-! ### RESTORE_RESLICE (R309, R310, R312) -/

/-- A RESTORE_RESLICE that is refused has chosen no step. -/
theorem refusedFor_reslice {s : State} {q : Fin 16} {j : Nat} {d : Desc} (hd : descAt s q j Op.restoreReslice d = true) (c : Nat) :
    refusedFor d c = { refusedWith c with word := 0xFFFFFFFF } := by
  simp only [descAt, Bool.and_eq_true, decide_eq_true_eq] at hd
  obtain ⟨⟨⟨⟨-, hop⟩, -⟩, -⟩, -⟩ := hd
  rw [refusedFor, if_pos hop]

/-- A restore begun on the map of a descriptor that its checks let pass (R309, R312, R314). -/
def resliceBegun (s : State) (q : Fin 16) (j : Nat) (d : Desc) (p : Plan) : State :=
  let m := hostRead s (d.f 8 8) (d.f 16 8)
  { s with
    restore := { s.restore with
      running := true, state := 2, ring := q, idx := j, mapSum := field 16 4 m, candidates := (mapOf m).1, owners := (mapOf m).2.1,
      sources := (mapOf m).2.2, mapAddr := d.f 8 8, choiceAt := d.f 24 8, doneAt := d.f 32 8,
      vector := candidateVector s p (mapOf m).1 (mapOf m).2.1 (mapOf m).2.2,
      stale := !((mapOf m).2.2.filter fun x => x.holder = here s).all (sourceStands s (ownSources s)), kids := [],
      ownSent := false, verdictSent := false, missing := false, step := none, pieces := [], chunks := [], written := [], spoiled := [],
      recs := [], credits := [], credited := 0, writtenBytes := 0 },
    guard.scrubSuspended := true }

section
variable {e : Env} {s₀ s : State} {q : Fin 16} {j : Nat} {d : Desc} (hs : applyEnv e s₀ = s) (hd : descAt s q j Op.restoreReslice d = true)
include hs hd

theorem exec_restoreReslice_running (hr : s.restore.running = true) : exec (.restoreReslice e q j) s₀ = .next (charge (traffic s) s) := by
  subst hs
  exact next_of_descAt hd rfl (if_pos hr)

variable (hr : s.restore.running = false)
include hr

theorem exec_restoreReslice_refused {c : Nat} (hbad : resliceBad s d = some c) : exec (.restoreReslice e q j) s₀ =
    .next (charge (traffic s) (complete q d { refusedWith c with word := 0xFFFFFFFF } s)) := by
  subst hs
  refine next_of_descAt hd rfl ((if_neg (Bool.eq_false_iff.1 hr)).trans ?_)
  rw [hbad, ← refusedFor_reslice hd]

variable (hgood : resliceBad s d = none)
include hgood

theorem exec_restoreReslice_mapFails {st : Nat} (hmap : mapStatus s (hostRead s (d.f 8 8) (d.f 16 8)) (d.f 16 8) = (st, none)) :
    exec (.restoreReslice e q j) s₀ = .next (charge (traffic s)
      (complete q d { status := st, detail := if st = Code.refusedPlan then 0xE3 else 1, word := 0xFFFFFFFF }
        { s with restore.state := 5, restore.status := st })) := by
  subst hs
  refine next_of_descAt hd rfl ((if_neg (Bool.eq_false_iff.1 hr)).trans ?_)
  rw [hgood]
  simp only [hmap]

theorem exec_restoreReslice_begins {st : Nat} {p : Plan}
    (hmap : mapStatus s (hostRead s (d.f 8 8) (d.f 16 8)) (d.f 16 8) = (st, some p)) :
    exec (.restoreReslice e q j) s₀ = .next (charge (traffic s)
      (rebuildNow (refreshSlots (resliceBegun s q j d p)) (pumpChoice false (refreshSlots (resliceBegun s q j d p))))) := by
  subst hs
  refine next_of_descAt hd rfl ((if_neg (Bool.eq_false_iff.1 hr)).trans ?_)
  rw [hgood]
  simp only [hmap]
  rfl

end

/-- Settles O24: each descriptor by the branches of its function, the scan by its buffer, the load by what its runs read. -/
theorem restoreDescriptors : Obligations.RestoreDescriptors := by
  unfold Obligations.RestoreDescriptors
  refine ⟨fun e s₀ s q j d hs hd => ⟨fun hfits hroom => ?_, fun hfits hshort => ?_, exec_restoreScan_misfit hs hd⟩,
    fun e s₀ s q j d hs hd => ⟨exec_restoreLoad_refused hs hd, fun p hidle hp => ⟨exec_restoreLoad_untabled hs hd hidle hp,
      fun s' hall => exec_restoreLoad_unread hs hd hidle hp hall, fun runs s' hall => exec_restoreLoad_read hs hd hidle hp hall⟩⟩,
    fun e s₀ s q j d hs hd => ⟨exec_restoreReslice_running hs hd, fun c hr => exec_restoreReslice_refused hs hd hr,
      fun st hr hgood => exec_restoreReslice_mapFails hs hd hr hgood, fun p hr hgood => exec_restoreReslice_begins hs hd hr hgood⟩⟩
  · exact (exec_restoreScan_fits hs hd hfits).trans (by rw [if_neg (Nat.not_lt.2 hroom)])
  · exact (exec_restoreScan_fits hs hd hfits).trans (by rw [if_pos hshort])

end Sys2Proof.Machine
end

section
/-! PROOF. Data and records of a restore (R312, R314 to R316, R318): what reaches a restore that runs, by the branches of its function, and what
comes where none runs. -/

namespace Sys2Proof.Machine

open Sys2Proof

/-! ### Data for the need (R314, R315) -/

section
variable {e : Env} {s₀ s : State} {h : PktHead} {bs : Bytes} (hs : applyEnv e s₀ = s) (hd : delivered s h 1 48 bs.length = true)
include hs hd

/-- Bytes land in the chunk that their slot stands for, counted from the lowest one that is still missing. -/
theorem exec_restoreDataStore_needed {l : Nat} (hstage : s.restore.state = 3) (hlow : lowestIncomplete s = some l) :
    let c := l + (h.offset / 65536 + 128 - l % 128) % 128
    exec (.restoreDataStore e h bs) s₀ =
      .next (rebuildNow s (pumpMove (finishChunk c (takeBytes c (h.offset % 65536) bs h.sender s)))) := by
  change execRestoreDataStore e h bs s₀ = _
  rw [execRestoreDataStore, hs, receive_delivered hd, if_pos hstage, hlow]

theorem exec_restoreDataStore_unneeded (hnone : s.restore.state ≠ 3 ∨ lowestIncomplete s = none) :
    exec (.restoreDataStore e h bs) s₀ = .next s := by
  have hlow : (if s.restore.state = 3 then lowestIncomplete s else none) = none := by
    rcases hnone with hstage | hnone
    · exact if_neg hstage
    · rw [hnone, ite_self]
  change execRestoreDataStore e h bs s₀ = _
  rw [execRestoreDataStore, hs, receive_delivered hd, hlow]

end

/-! ### A record delivered while a restore runs (R312, R316, R318) -/

theorem length_restoreRecBytes (r : RestoreRec) : (restoreRecBytes r).length = 32 := by
  simp [restoreRecBytes, length_leBytes, zeros]

section
variable {e : Env} {s₀ s : State} {h : PktHead} {cls : Nat} {r : RestoreRec} {kind : Nat} {go : State → State} {o : Answer}
  (hs : applyEnv e s₀ = s) (hr : s.restore.running = true) (hd : delivered s h cls 49 32 = true) (hk : r.kind = kind)
  (ho : o = .next (restoreRow e h cls r kind go s₀))
include hs hr hd hk ho

/-- A row of a record answers what its function gives, the bank shares rebuilt where that ends the restore (R319). -/
theorem next_of_record {t : State} (hgo : go s = t) : o = .next (rebuildNow s t) := by
  rw [ho, restoreRow, hs, if_neg (not_not.2 hk), length_restoreRecBytes, receive_delivered hd, if_pos hr, hgo]

/-- A record that its function turns away changes nothing. -/
theorem next_of_idle_record (hgo : go s = s) : o = .next s := by
  rw [next_of_record hs hr hd hk ho hgo, rebuildNow_same]

end

/-! ### Withdrawals and requests (R316) -/

/-- The open piece at a chunk that this chip has from a source of the sender: the one a withdrawal names. -/
def withdrawnPiece (s : State) (h : PktHead) (r : RestoreRec) : Option Piece :=
  (myPieces s).find? fun p => p.source = r.source ∧ p.at_ / 65536 = r.position ∧ !p.done ∧
    (mapSource s p.source).map Source.holder = some h.sender

/-- The sender's piece at a chunk that another source may serve: the one a request for that source names. -/
def requestedPiece (s : State) (h : PktHead) (r : RestoreRec) (x : Source) : Option Piece :=
  s.restore.pieces.find? fun p => p.dest = h.sender ∧ p.at_ / 65536 = r.position ∧ p.source ≠ r.source ∧ mayServe x p

section
variable {e : Env} {s₀ s : State} {h : PktHead} {r : RestoreRec} (hs : applyEnv e s₀ = s) (hr : s.restore.running = true)
  (hd : delivered s h 1 49 32 = true)
include hs hr hd

section
variable (hk : r.kind = 3)
include hk

theorem exec_restoreWithdraw_fallsBack {p : Piece} (hstage : s.restore.state = 3) (hsum : r.digest = s.restore.mapSum)
    (hpiece : withdrawnPiece s h r = some p) :
    exec (.restoreWithdraw e h r) s₀ = .next (rebuildNow s (pumpMove (fallBack (s.restore.sources.length + 1) p s))) := by
  have hnamed : (if s.restore.state = 3 ∧ r.digest = s.restore.mapSum then withdrawnPiece s h r else none) = some p := by
    rw [if_pos ⟨hstage, hsum⟩, hpiece]
  refine next_of_record hs hr hd hk rfl ?_
  dsimp only [withdrawnPiece] at hnamed ⊢
  rw [hnamed]

theorem exec_restoreWithdraw_ignored
    (hnone : s.restore.state ≠ 3 ∨ r.digest ≠ s.restore.mapSum ∨ withdrawnPiece s h r = none) :
    exec (.restoreWithdraw e h r) s₀ = .next s := by
  have hnamed : (if s.restore.state = 3 ∧ r.digest = s.restore.mapSum then withdrawnPiece s h r else none) = none := by
    rcases hnone with hstage | hsum | hnone
    · exact if_neg fun hin => hstage hin.1
    · exact if_neg fun hin => hsum hin.2
    · rw [hnone, ite_self]
  refine next_of_idle_record hs hr hd hk rfl ?_
  dsimp only [withdrawnPiece] at hnamed ⊢
  rw [hnamed]

end

section
variable (hk : r.kind = 4)
include hk

theorem exec_restoreRequest_ignored (hnone : s.restore.state ≠ 3 ∨ r.digest ≠ s.restore.mapSum ∨ mapSource s r.source = none) :
    exec (.restoreRequest e h r) s₀ = .next s := by
  have hsource : (if s.restore.state = 3 ∧ r.digest = s.restore.mapSum then mapSource s r.source else none) = none := by
    rcases hnone with hstage | hsum | hnone
    · exact if_neg fun hin => hstage hin.1
    · exact if_neg fun hin => hsum hin.2
    · rw [hnone, ite_self]
  refine next_of_idle_record hs hr hd hk rfl ?_
  rw [hsource]

variable {x : Source} (hstage : s.restore.state = 3) (hsum : r.digest = s.restore.mapSum) (hx : mapSource s r.source = some x)
include hstage hsum hx

theorem exec_restoreRequest_moves {p : Piece} (hheld : x.holder = here s) (hpiece : requestedPiece s h r x = some p) :
    exec (.restoreRequest e h r) s₀ = .next (rebuildNow s (pumpMove
      (putPiece p { p with source := r.source, next := p.at_ / 65536, done := false } s))) := by
  refine next_of_record hs hr hd hk rfl ?_
  rw [if_pos ⟨hstage, hsum⟩, hx]
  dsimp only [requestedPiece] at hpiece ⊢
  rw [hpiece]
  exact if_pos hheld

theorem exec_restoreRequest_unserved (hnone : x.holder ≠ here s ∨ requestedPiece s h r x = none) :
    exec (.restoreRequest e h r) s₀ = .next s := by
  refine next_of_idle_record hs hr hd hk rfl ?_
  rw [if_pos ⟨hstage, hsum⟩, hx]
  dsimp only [requestedPiece] at hnone ⊢
  split
  · next hpiece => exact if_neg (hnone.resolve_right (by rw [hpiece]; exact Option.some_ne_none _))
  · rfl

end

end

/-! ### Where no restore runs (R314, R331) -/

section
variable {s : State} {h : PktHead} (hr : s.restore.running = false) (hf : flumeRuns s = true) (htag : tagOf s ≠ 0)
  (hjob : h.jobId = jobIdOf s) (hgen : h.gen = genOf s)
include hr hf htag hjob hgen

/-- With no restore its two windows are closed: the intake drops a packet for one, and only counts it. -/
theorem intake_noRestore {cls w len : Nat} (hw : w = 48 ∨ w = 49) (hm : malformed cls len h.offset = false) :
    intake h cls w len s = (false, count Reg.rsDrops 1 s) := by
  have hclosed : intakeEntry s w = none := by rcases hw with rfl | rfl <;> simp [intakeEntry, hr]
  rw [intake, hf, hm, if_neg (not_or.2 ⟨htag, not_not.2 hjob⟩), if_neg (not_not.2 hgen), hclosed]
  have hrange : 48 ≤ w ∧ w ≤ 56 := by omega
  dsimp only
  rw [if_pos hrange, dropClosed, if_pos hw]
  rfl

theorem receive_noRestore {cls w len : Nat} (hw : w = 48 ∨ w = 49) (hm : malformed cls len h.offset = false) (go : State → State) :
    receive h cls w len go s = count Reg.rsDrops 1 s := by
  rw [receive, intake_noRestore hr hf htag hjob hgen hw hm]
  rfl

variable {e : Env} {s₀ : State} (hs : applyEnv e s₀ = s)
include hs

theorem exec_restoreDataStore_noRestore {bs : Bytes} (hm : malformed 1 bs.length h.offset = false) :
    exec (.restoreDataStore e h bs) s₀ = .next (count Reg.rsDrops 1 s) := by
  change execRestoreDataStore e h bs s₀ = _
  rw [execRestoreDataStore, hs, receive_noRestore hr hf htag hjob hgen (.inl rfl) hm]

theorem next_of_record_noRestore {cls : Nat} {r : RestoreRec} {kind : Nat} {go : State → State} {o : Answer}
    (hm : malformed cls 32 h.offset = false) (ho : o = .next (restoreRow e h cls r kind go s₀)) (hk : r.kind = kind) :
    o = .next (count Reg.rsDrops 1 s) := by
  rw [ho, restoreRow, hs, if_neg (not_not.2 hk), length_restoreRecBytes, receive_noRestore hr hf htag hjob hgen (.inr rfl) hm]

end

/-- Settles O55: the data by the chunk they stand for, each record by its kind's condition on the stage and the checksum, and every packet
by the closed windows where no restore runs. -/
theorem restoreRecords : Obligations.RestoreRecords := by
  unfold Obligations.RestoreRecords
  refine ⟨fun e s₀ s h bs hs hd => ⟨fun l => exec_restoreDataStore_needed hs hd, exec_restoreDataStore_unneeded hs hd⟩,
    fun e s₀ s h r hs hr => ⟨fun hd => ⟨fun hk => ⟨fun hin => ?_, fun hout => ?_⟩, fun hk => ⟨fun hin => ?_, fun hout => ?_⟩,
      fun hk => ⟨fun p => exec_restoreWithdraw_fallsBack hs hr hd hk, exec_restoreWithdraw_ignored hs hr hd hk⟩,
      fun hk => ⟨fun x hstage hsum hx => ⟨fun p => exec_restoreRequest_moves hs hr hd hk hstage hsum hx,
        exec_restoreRequest_unserved hs hr hd hk hstage hsum hx⟩, exec_restoreRequest_ignored hs hr hd hk⟩,
      fun hk => ⟨fun hin => ?_, fun hout => ?_⟩⟩,
    fun hd => ⟨fun hk => ⟨fun hstage hin => ?_, fun hout => ?_⟩, fun hk => ⟨fun hstage hsum => ?_, fun hout => ?_⟩⟩⟩,
    fun e s₀ s h r bs hs hr hf htag hjob hgen => ⟨exec_restoreDataStore_noRestore hr hf htag hjob hgen hs, fun hm => ?_, fun hm => ?_⟩⟩
  · exact next_of_record hs hr hd hk rfl (if_pos hin)
  · exact next_of_idle_record hs hr hd hk rfl (if_neg hout)
  · exact next_of_record hs hr hd hk rfl (if_neg (not_not.2 hin))
  · exact next_of_idle_record hs hr hd hk rfl (if_pos hout)
  · exact next_of_record hs hr hd hk rfl (if_pos hin)
  · exact next_of_idle_record hs hr hd hk rfl (if_neg hout)
  · exact next_of_record hs hr hd hk rfl (if_pos (by simpa [hstage] using hin))
  · exact next_of_idle_record hs hr hd hk rfl (if_neg (by rcases hout with h | h <;> simp [h]))
  · exact next_of_record hs hr hd hk rfl (if_pos ⟨hstage, hsum⟩)
  · exact next_of_idle_record hs hr hd hk rfl (if_neg (not_and_or.2 hout))
  · refine ⟨?_, ?_, ?_, ?_, ?_⟩ <;> exact next_of_record_noRestore hr hf htag hjob hgen hs hm rfl
  · refine ⟨?_, ?_⟩ <;> exact next_of_record_noRestore hr hf htag hjob hgen hs hm rfl

end Sys2Proof.Machine
end

section
/-! PROOF. The culvert's messages of a start and of a mode (R336, R337, R340, R342, R345): what MODE_CHANGE, START and START_ABORT come to. -/

namespace Sys2Proof.Machine

open Sys2Proof

/-! ### MODE_CHANGE (R342, R345) -/

section
variable {cause : Nat} {x : PendingMode} {s : State}

/-- At a live engine with no change pending, one to a higher epoch and a known mode, ahead by 1 ms or more, is pending. -/
theorem takeMode_ahead (hlive : s.job.live = true) (hnone : s.job.pendingMode = none) (hmode : x.mode < 2) (hepoch : s.job.epoch < x.epoch)
    (hahead : s.ht + 1000000 ≤ x.instant) : takeMode cause x s = { s with job.pendingMode := some x } := by
  have hpositive : 0 < x.epoch := Nat.zero_lt_of_lt hepoch
  have hok : modeOk x s = true := by simp [modeOk, hlive, hnone, hmode, hepoch, hpositive]
  simp [takeMode, hlive, hok, hahead]

theorem takeMode_companion (hlive : s.job.live = false) (hok : companionOk x s = true) :
    takeMode cause x s = { s with job.pendingMode := some { x with companion := true } } := by
  simp [takeMode, hlive, hok]

theorem takeMode_noCompanion (hlive : s.job.live = false) (hok : companionOk x s = false) :
    takeMode cause x s = ignored 0x07 6 0 0 cause s := by
  simp [takeMode, hlive, hok]

end

section
variable {e : Env} {s₀ s : State} {f : FrameHead} {epoch instant mode flags : Nat} (hs : applyEnv e s₀ = s)
  (hm : heard s f (.modeChange epoch instant mode flags) = true) (htag : f.tag ≠ 0)
include hs hm htag

/-- A change taken where none was pending: its frame is the last of its type. -/
theorem exec_modeChange_taken {y : PendingMode} (hnone : s.job.pendingMode = none)
    (htake : takeMode f.seq { epoch := epoch, instant := instant, mode := mode, flags := flags } (counted (.modeChange epoch instant mode flags) s) =
      { counted (.modeChange epoch instant mode flags) s with job.pendingMode := some y }) :
    exec (.modeChange e f epoch instant mode flags) s₀ = .next (noted f (.modeChange epoch instant mode flags)
      { counted (.modeChange epoch instant mode flags) s with job.pendingMode := some y }) := by
  have hbefore : (counted (.modeChange epoch instant mode flags) s).job.pendingMode = none := hnone
  refine frameRow_acted hs hm ?_ rfl
  rw [actFrame, if_neg htag, htake, hbefore]
  rfl

theorem exec_modeChange_ignored
    (htake : takeMode f.seq { epoch := epoch, instant := instant, mode := mode, flags := flags } (counted (.modeChange epoch instant mode flags) s) =
      ignored 0x07 6 0 0 f.seq (counted (.modeChange epoch instant mode flags) s)) :
    exec (.modeChange e f epoch instant mode flags) s₀ =
      .next (ignored 0x07 6 0 0 f.seq (counted (.modeChange epoch instant mode flags) s)) := by
  refine frameRow_ignored hs hm ?_
  rw [actFrame, if_neg htag, htake]
  dsimp only
  rw [ignored_job, bne_self_eq_false]

end

/-! ### START (R336, R337) -/

@[simp] theorem broadcastStart_ready (kind : Nat) (x : StartFields) (s : State) : (broadcastStart kind x s).ready = s.ready := by
  simp [broadcastStart]

@[simp] theorem broadcastStart_job (kind : Nat) (x : StartFields) (s : State) : (broadcastStart kind x s).job = s.job := by
  simp [broadcastStart]

section
variable {e : Env} {s₀ s : State} {f : FrameHead} {chips epoch instant deadline bound treeA treeB : Nat} (hs : applyEnv e s₀ = s)
  (hm : heard s f (.start chips epoch instant deadline bound treeA treeB) = true)
include hs hm

theorem exec_start_rootOk :
    let m : CulMsg := .start chips epoch instant deadline bound treeA treeB
    let x : StartFields := ⟨chips, f.tag, here (counted m s), epoch, instant, deadline, bound, treeA, treeB⟩
    rootOk (counted m s) f.tag x = true →
    exec (.start e f chips epoch instant deadline bound treeA treeB) s₀ = .next (noted f m (stageRoot x (counted m s))) := by
  intro m x hok
  exact frameRow_acted hs hm (by rw [actFrame, if_pos hok]) (broadcastStart_ready ..)

theorem exec_start_ignored :
    let m : CulMsg := .start chips epoch instant deadline bound treeA treeB
    let x : StartFields := ⟨chips, f.tag, here (counted m s), epoch, instant, deadline, bound, treeA, treeB⟩
    rootOk (counted m s) f.tag x = false →
    exec (.start e f chips epoch instant deadline bound treeA treeB) s₀ = .next (ignored 0x08 4 0 0 f.seq (counted m s)) := by
  intro m x hok
  exact frameRow_ignored hs hm (by rw [actFrame, if_neg (ne_true_of_eq_false hok)])

end

/-! ### START_ABORT (R340) -/

section
variable {cause : Nat} {x : StagedStart} {s : State} (hx : s.job.staged = some x)
include hx

theorem abortStart_undoes (hroot : x.isRoot = false) (hearly : s.ht < x.fields.instant) :
    abortStart cause s = { s with job.staged := none } := by
  simp [abortStart, hx, hroot, hearly]

theorem abortStart_rootAborts (hroot : x.isRoot = true) (hearly : s.ht < x.fields.deadline) (hopen : x.decided = false) :
    abortStart cause s = broadcastStart 2 x.fields { s with job.staged := some { x with decided := true, outcome := 2 } } := by
  simp [abortStart, hx, hroot, hearly, hopen]

theorem abortStart_late (hroot : x.isRoot = false) (hlate : x.fields.instant ≤ s.ht) : abortStart cause s = ignored 0x09 5 0 0 cause s := by
  simp [abortStart, hx, hroot, Nat.not_lt.2 hlate]

theorem abortStart_rootLate (hroot : x.isRoot = true) (hlate : x.fields.deadline ≤ s.ht ∨ x.decided = true) :
    abortStart cause s = ignored 0x09 5 0 0 cause s := by
  have hover : ¬ (s.ht < x.fields.deadline ∧ (!x.decided) = true) := by
    rintro ⟨hearly, hopen⟩
    exact hlate.elim (Nat.not_le.2 hearly) (by simpa using hopen)
  simp only [abortStart, hx, if_pos hroot, if_neg hover]

end

/-- An abort of the start staged is judged by whether the staged start changes. -/
theorem actFrame_startAbort_staged {s : State} {f : FrameHead} {x : StagedStart} (hx : s.job.staged = some x)
    (htag : x.fields.tag = f.tag) : actFrame noStart f .startAbort (counted .startAbort s) =
    ((abortStart f.seq (counted .startAbort s)).job.staged != some x, abortStart f.seq (counted .startAbort s)) := by
  have hstaged : (counted .startAbort s).job.staged = some x := hx
  have hnamed : (counted .startAbort s).job.staged.any (fun x => x.fields.tag = f.tag) = true := by simp [hstaged, htag]
  rw [actFrame, if_pos hnamed, hstaged]

section
variable {e : Env} {s₀ s : State} {f : FrameHead} (hs : applyEnv e s₀ = s) (hm : heard s f .startAbort = true)
include hs hm

theorem exec_startAbort_unstaged (hother : ∀ x, s.job.staged = some x → x.fields.tag ≠ f.tag) :
    exec (.startAbort e f) s₀ = .next (ignored 0x09 5 0 0 f.seq (counted .startAbort s)) := by
  have hnone : ¬ (counted .startAbort s).job.staged.any (fun x => x.fields.tag = f.tag) = true := by
    rw [Option.any_eq_true_iff_get]
    rintro ⟨hsome, htag⟩
    exact hother _ (Option.some_get hsome).symm (of_decide_eq_true htag)
  exact frameRow_ignored hs hm (by rw [actFrame, if_neg hnone])

variable {x : StagedStart} (hx : s.job.staged = some x) (htag : x.fields.tag = f.tag)
include hx htag

theorem exec_startAbort_acted {t : State} (ht : abortStart f.seq (counted .startAbort s) = t) (hchange : t.job.staged ≠ some x)
    (hready : t.ready = s.ready) : exec (.startAbort e f) s₀ = .next (noted f .startAbort t) := by
  refine frameRow_acted hs hm ?_ hready
  rw [actFrame_startAbort_staged hx htag, ht, bne_iff_ne.2 hchange]

theorem exec_startAbort_late (ht : abortStart f.seq (counted .startAbort s) = ignored 0x09 5 0 0 f.seq (counted .startAbort s)) :
    exec (.startAbort e f) s₀ = .next (ignored 0x09 5 0 0 f.seq (counted .startAbort s)) := by
  have hkept : (ignored 0x09 5 0 0 f.seq (counted .startAbort s)).job.staged = some x := by rw [ignored_job]; exact hx
  refine frameRow_ignored hs hm ?_
  rw [actFrame_startAbort_staged hx htag, ht, hkept, bne_self_eq_false]

end

/-- Settles O29: each message by what taking it does, and by whether it changed what it is about. -/
theorem startAndModeMessages : Obligations.StartAndModeMessages := by
  unfold Obligations.StartAndModeMessages
  refine ⟨?_, ?_, ?_⟩
  · intro e s₀ s f epoch instant mode flags hs m x hm htag hnone
    exact ⟨fun hlive hmode hepoch hahead => exec_modeChange_taken hs hm htag hnone (takeMode_ahead hlive hnone hmode hepoch hahead),
      fun hlive => ⟨fun hok => exec_modeChange_taken hs hm htag hnone (takeMode_companion hlive hok),
        fun hok => exec_modeChange_ignored hs hm htag (takeMode_noCompanion hlive hok)⟩⟩
  · intro e s₀ s f chips epoch instant deadline bound treeA treeB hs m x hm
    exact ⟨exec_start_rootOk hs hm, exec_start_ignored hs hm⟩
  · intro e s₀ s f hs hm late
    refine ⟨fun x hx htag => ⟨fun hroot hearly => ?_, fun hroot hearly hopen => ?_, fun hroot hlate => ?_, fun hroot hlate => ?_⟩,
      exec_startAbort_unstaged hs hm⟩
    · exact exec_startAbort_acted hs hm hx htag (abortStart_undoes hx hroot hearly) (Option.some_ne_none x).symm rfl
    · refine exec_startAbort_acted hs hm hx htag (abortStart_rootAborts hx hroot hearly hopen) ?_ (broadcastStart_ready ..)
      rw [broadcastStart_job]
      intro hsame
      have hdecided : true = x.decided := congrArg StagedStart.decided (Option.some.inj hsame)
      exact absurd (hdecided.trans hopen) (by decide)
    · exact exec_startAbort_late hs hm hx htag (abortStart_late hx hroot hlate)
    · exact exec_startAbort_late hs hm hx htag (abortStart_rootLate hx hroot hlate)

end Sys2Proof.Machine
end

section
/-! PROOF. The records of a start (R337 to R339): a record staged, a copy of it, and the acknowledgements, GO and ABORT by whether they match the
start staged. -/

namespace Sys2Proof.Machine

open Sys2Proof

/-! ### Start records (R337) -/

/-- A delivered record at offset 0 does what its function does. -/
theorem startRow_delivered {e : Env} {s₀ s : State} {h : PktHead} {cls kind : Nat} {r : StartRec} (hs : applyEnv e s₀ = s)
    (hd : delivered s h cls 46 (startRecBytes kind r).length = true) (hoffset : h.offset = 0) (go : State → State) :
    startRow e h cls kind r go s₀ = go s := by
  rw [startRow, hs, receive_delivered hd, if_pos hoffset]

section
variable {e : Env} {s₀ s : State} {h : PktHead} {r : StartRec} (hs : applyEnv e s₀ = s)
  (hd : delivered s h 7 46 (startRecBytes 0 r).length = true) (hoffset : h.offset = 0)
include hs hd hoffset

theorem exec_startRecord_copy {x : StagedStart} (hx : s.job.staged = some x) (hsame : r.fields = x.fields) :
    exec (.startRecord e h r) s₀ = .next s := by
  change execStartRecord e h r s₀ = _
  simp [execStartRecord, startRow_delivered hs hd hoffset, hx, hsame]

variable (hsum : r.sumOk = true) (htag : r.fields.tag = tagOf s) (hfree : s.job.conflicted ≠ some r.fields.tag) (hlive : s.job.live = false)
include hsum htag hfree hlive

theorem exec_startRecord_staged (hnone : s.job.staged = none) (hchips : r.fields.jobChips = jobChips s)
    (hahead : s.ht + 1000000 ≤ r.fields.instant) : exec (.startRecord e h r) s₀ = .next (pumpAcks { s with
      job := { s.job with staged := some { fields := r.fields, isRoot := false, at_ := s.ht }, isRoot := false } }) := by
  change execStartRecord e h r s₀ = _
  rw [htag] at hfree
  simp [execStartRecord, startRow_delivered hs hd hoffset, hnone, hsum, htag, hfree, hlive, hchips, hahead]

theorem exec_startRecord_conflict {x : StagedStart} (hx : s.job.staged = some x) (hother : r.fields ≠ x.fields) :
    exec (.startRecord e h r) s₀ = .next (ignored 0x08 10 0 0 0
      { s with job := { s.job with staged := none, isRoot := false, conflicted := some r.fields.tag } }) := by
  change execStartRecord e h r s₀ = _
  rw [htag] at hfree
  simp [execStartRecord, startRow_delivered hs hd hoffset, hx, hother, hsum, htag, hfree, hlive]

end

/-! ### Records of the start staged (R337 to R339) -/

theorem withStart_matched {r : StartRec} {x : StagedStart} {s : State} (hx : s.job.staged = some x) (hsum : r.sumOk = true)
    (hsame : r.fields = x.fields) (go : StagedStart → State → State) : withStart r go s = go x s := by
  simp [withStart, hx, hsum, hsame]

theorem withStart_unmatched {r : StartRec} {s : State} (hother : ∀ x, s.job.staged = some x → r.sumOk = false ∨ r.fields ≠ x.fields)
    (go : StagedStart → State → State) : withStart r go s = count Reg.dropUnmapped 1 s := by
  unfold withStart
  split
  · next x hx =>
    rcases hother x hx with hsum | hfields
    · simp [hsum]
    · simp [hfields]
  · rfl

theorem holdOutcome_staged {s : State} {x : StagedStart} (hx : s.job.staged = some x) (n : Nat) :
    holdOutcome n s = if x.outcome = 0 then { s with job.staged := some { x with outcome := n } } else s := by
  rw [holdOutcome, hx]

section
variable {e : Env} {s₀ s : State} {h : PktHead} {r : StartRec} {cls kind : Nat} {go : StagedStart → State → State} {o : Answer}
  (hs : applyEnv e s₀ = s) (hd : delivered s h cls 46 (startRecBytes kind r).length = true) (hoffset : h.offset = 0)
  (ho : o = .next (startRow e h cls kind r (withStart r go) s₀))
include hs hd hoffset ho

theorem next_of_matched_record {x : StagedStart} (hx : s.job.staged = some x) (hsum : r.sumOk = true) (hsame : r.fields = x.fields) :
    o = .next (go x s) := by
  rw [ho, startRow_delivered hs hd hoffset, withStart_matched hx hsum hsame]

theorem next_of_unmatched_record (hother : ∀ x, s.job.staged = some x → r.sumOk = false ∨ r.fields ≠ x.fields) :
    o = .next (count Reg.dropUnmapped 1 s) := by
  rw [ho, startRow_delivered hs hd hoffset, withStart_unmatched hother]

end

/-! ### Acknowledgements (R338) -/

/-- A staged start with the acknowledgement of a child added. -/
def acknowledged (c : Coord) (r : StartRec) (x : StagedStart) : StagedStart :=
  { x with
    bits := putKey r.tree (unionIdx (getKey r.tree [] x.bits) r.bitmap) x.bits,
    kids := putKey r.tree ((getKey r.tree [] x.kids).filter (· ≠ c) ++ [c]) x.kids }

section
variable {e : Env} {s₀ s : State} {h : PktHead} {r : StartRec} {x : StagedStart} (hs : applyEnv e s₀ = s) (hoffset : h.offset = 0)
  (hx : s.job.staged = some x) (hsum : r.sumOk = true) (hsame : r.fields = x.fields)
  (hd : delivered s h 1 46 (startRecBytes 3 r).length = true)
include hs hoffset hx hsum hsame hd

theorem exec_startAckRecord_staged : exec (.startAckRecord e h r) s₀ = .next (
    if x.sent.contains r.tree || x.decided then count Reg.dropUnmapped 1 s
    else if !(ackKids s x.fields r.tree).contains h.sender then s
    else pumpAck false r.tree { s with job.staged := some (acknowledged h.sender r x) }) :=
  next_of_matched_record hs hd hoffset rfl hx hsum hsame

theorem exec_startAckRecord_late (hlate : x.sent.contains r.tree = true ∨ x.decided = true) :
    exec (.startAckRecord e h r) s₀ = .next (count Reg.dropUnmapped 1 s) := by
  rw [exec_startAckRecord_staged hs hoffset hx hsum hsame hd, if_pos (Bool.or_eq_true_iff.2 hlate)]

variable (hunsent : x.sent.contains r.tree = false) (hopen : x.decided = false)
include hunsent hopen

theorem exec_startAckRecord_child (hkid : (ackKids s x.fields r.tree).contains h.sender = true) :
    exec (.startAckRecord e h r) s₀ = .next (pumpAck false r.tree { s with job.staged := some (acknowledged h.sender r x) }) := by
  rw [exec_startAckRecord_staged hs hoffset hx hsum hsame hd, hunsent, hopen, hkid]
  rfl

theorem exec_startAckRecord_stranger (hkid : (ackKids s x.fields r.tree).contains h.sender = false) :
    exec (.startAckRecord e h r) s₀ = .next s := by
  rw [exec_startAckRecord_staged hs hoffset hx hsum hsame hd, hunsent, hopen, hkid]
  rfl

end

/-- Settles O48: a start record by the start that is staged, the other records by whether they match it. -/
theorem startRecords : Obligations.StartRecords := by
  unfold Obligations.StartRecords
  refine ⟨fun e s₀ s h r hs hd hoffset hsum htag hfree hlive => ⟨exec_startRecord_staged hs hd hoffset hsum htag hfree hlive,
      fun x => exec_startRecord_copy hs hd hoffset, fun x => exec_startRecord_conflict hs hd hoffset hsum htag hfree hlive⟩,
    fun e s₀ s h r x hs hoffset hx hsum hsame => ⟨fun hd => ⟨exec_startAckRecord_child hs hoffset hx hsum hsame hd,
      exec_startAckRecord_stranger hs hoffset hx hsum hsame hd, exec_startAckRecord_late hs hoffset hx hsum hsame hd⟩,
      fun hd => ?_, fun hd => ?_⟩,
    fun e s₀ s h r hs hoffset hother => ⟨fun hd => next_of_unmatched_record hs hd hoffset rfl hother,
      fun hd => next_of_unmatched_record hs hd hoffset rfl hother, fun hd => next_of_unmatched_record hs hd hoffset rfl hother⟩⟩
  · rw [← holdOutcome_staged hx]
    exact next_of_matched_record hs hd hoffset rfl hx hsum hsame
  · rw [← holdOutcome_staged hx]
    exact next_of_matched_record hs hd hoffset rfl hx hsum hsame

end Sys2Proof.Machine
end

section
/-! PROOF. The instants of a start and of a mode change (R338, R339, R341, R344 to R346): the cut-off, the deadline and the two instants, each by
whether it has come. -/

namespace Sys2Proof.Machine

open Sys2Proof

/-! ### The start's cut-off, deadline and instant (R338, R339, R341) -/

/-- The job indices that no tree has acknowledged to the root. -/
def startMissing (s : State) (x : StagedStart) : List Nat :=
  (List.range x.fields.jobChips).filter fun i => !(unionIdx (ackBits s x 0) (ackBits s x 1)).contains i

/-- The root's decision: 1 GO where nobody is missing, else 2 ABORT. -/
def startDecision (s : State) (x : StagedStart) : Nat := if startMissing s x = [] then 1 else 2

section
variable {e : Env} {s₀ s : State} {x : StagedStart} (hs : applyEnv e s₀ = s) (hx : s.job.staged = some x)
include hs hx

theorem exec_startDeadline_early (hearly : s.ht < x.fields.deadline) : exec (.startDeadline e) s₀ = .next s := by
  change execStartDeadline e s₀ = _
  simp [execStartDeadline, hs, hx, Nat.not_le.2 hearly]

theorem exec_startInstant_early (hearly : s.ht < x.fields.instant) : exec (.startInstant e) s₀ = .next s := by
  change execStartInstant e s₀ = _
  simp [execStartInstant, hs, hx, Nat.not_le.2 hearly]

variable (hrun : controllersRun s = true)
include hrun

theorem exec_startAckCutoff_staged {tree : Nat} (htree : tree < 2) : exec (.startAckCutoff e tree) s₀ =
    .next (if x.fields.deadline ≤ s.ht + (x.fields.routeBound + heightOf (here s) x.fields.root * (x.fields.routeBound + 4000)) then
        pumpAck true tree s
      else s) := by
  change execStartAckCutoff e tree s₀ = _
  simp [execStartAckCutoff, hs, hrun, hx, htree, Nat.add_assoc]

theorem exec_startDeadline_due (hroot : x.isRoot = true) (hopen : x.decided = false) (hdue : x.fields.deadline ≤ s.ht) :
    exec (.startDeadline e) s₀ = .next (startEvent (startDecision s x) (startMissing s x).length ((minOf (startMissing s x)).getD 0xFFFF)
      (broadcastStart (startDecision s x) x.fields
        { s with job.staged := some { x with decided := true, outcome := startDecision s x } })) := by
  change execStartDeadline e s₀ = _
  simp only [execStartDeadline, hs, hx, hrun, hroot, hopen, hdue, List.isEmpty_iff]
  rfl

variable (hdue : x.fields.instant ≤ s.ht)
include hdue

theorem exec_startInstant_go (hgo : x.outcome = 1) : exec (.startInstant e) s₀ = .next { s with job := { s.job with
    staged := none, outcome := 1, live := true, liveAt := x.fields.instant, epoch := x.fields.epoch, mode := 0, held := false,
    pendingMode := none } } := by
  change execStartInstant e s₀ = _
  simp [execStartInstant, hs, hrun, hx, hdue, hgo]

theorem exec_startInstant_abort (habort : x.outcome = 2) :
    exec (.startInstant e) s₀ = .next { s with job := { s.job with staged := none, outcome := 2 } } := by
  change execStartInstant e s₀ = _
  simp [execStartInstant, hs, hrun, hx, hdue, habort]

theorem exec_startInstant_undecided (hnone : x.outcome = 0) :
    exec (.startInstant e) s₀ = .next (startEvent 3 0 0xFFFF { s with job := { s.job with staged := none, outcome := 3 } }) := by
  change execStartInstant e s₀ = _
  simp [execStartInstant, hs, hrun, hx, hdue, hnone]

end

/-! ### A mode change's instant (R344 to R346) -/

section
variable {e : Env} {s₀ s : State} {m : PendingMode} (hs : applyEnv e s₀ = s) (hm : s.job.pendingMode = some m)
include hs hm

theorem exec_modeChangeInstant_early (hearly : s.ht < m.instant) : exec (.modeChangeInstant e) s₀ = .next s := by
  change execModeChangeInstant e s₀ = _
  simp [execModeChangeInstant, hs, hm, hearly]

/-- At its instant a change that carries no commit takes effect. -/
theorem exec_modeChangeInstant_due (hrun : controllersRun s = true) (hlive : s.job.live = true) (hkept : m.missed = false)
    (hown : m.companion = false) (hdue : m.instant ≤ s.ht) (hflag : bit 0 m.flags = false) :
    exec (.modeChangeInstant e) s₀ = .next (dropLease (evalAll
      { s with job := { s.job with epoch := m.epoch, mode := m.mode, pendingMode := none, held := false } })) := by
  change execModeChangeInstant e s₀ = _
  simp [execModeChangeInstant, hs, hm, hrun, hlive, hkept, hown, Nat.not_lt.2 hdue, hflag]

end

/-- Settles O49: each command by whether its instant has come, the start's by the outcome held. -/
theorem startDecidedAndTaken : Obligations.StartDecidedAndTaken := by
  unfold Obligations.StartDecidedAndTaken
  refine ⟨?_, ?_, ?_, ?_⟩
  · intro e s₀ s x tree hs hrun hx htree cut
    rw [exec_startAckCutoff_staged hs hx hrun htree]
    exact ⟨fun hdue => by rw [if_pos hdue], fun hearly => by rw [if_neg (Nat.not_le.2 hearly)]⟩
  · intro e s₀ s x hs hrun hx hroot hopen missing n
    exact ⟨exec_startDeadline_due hs hx hrun hroot hopen, exec_startDeadline_early hs hx⟩
  · intro e s₀ s x hs hrun hx
    exact ⟨fun hdue => ⟨exec_startInstant_go hs hx hrun hdue, exec_startInstant_abort hs hx hrun hdue,
      exec_startInstant_undecided hs hx hrun hdue⟩, exec_startInstant_early hs hx⟩
  · intro e s₀ s m hs hrun hm hlive hkept hown
    exact ⟨exec_modeChangeInstant_due hs hm hrun hlive hkept hown, exec_modeChangeInstant_early hs hm⟩

end Sys2Proof.Machine
end
section
/-! PROOF. A step and the queue of waiting commands (spec/01_overview.md, assumptions 1 and 12). -/

namespace Sys2Proof.Machine

open Sys2Proof

/-- Settles O3: of what every command keeps (`keeps_exec`), the queue. -/
theorem execKeepsQueue : Obligations.ExecKeepsQueue := fun c s t hexec => (keeps_exec c s t hexec).1

theorem step_front {c : Instr} {rest : List Instr} {s : State} (h : s.pending = c :: rest) : step s = exec c { s with pending := rest } := by
  rw [step, h]

theorem step_idle {s : State} (h : s.pending = []) : step s = .next s := by
  rw [step, h]

/-- Settles O1: the two cases of the queue. -/
theorem stepRunsFrontCommand : Obligations.StepRunsFrontCommand := ⟨fun _ _ _ => step_front, fun _ => step_idle⟩

end Sys2Proof.Machine
end
section
/-! PROOF. Register writes that are ignored and counted, and writes that are staged (R10, R174, R384, R390, R393, R394). -/

namespace Sys2Proof.Machine

open Sys2Proof

/-! ### An access ignored and counted (R384) -/

theorem regsKept_badAccess (off : Nat) (s : State) : RegsKept [Reg.badAccess, Reg.badAccessAt] s (badAccess off s) := by
  intro o ho
  have hne : o ≠ Reg.badAccess ∧ o ≠ Reg.badAccessAt := by simpa using ho
  rw [badAccess, regPut, regGet_regSet_other hne.2, count, regPut, regGet_regSet_other hne.1]

theorem regNat_badAccess_count (off : Nat) (s : State) :
    regNat (badAccess off s) Reg.badAccess = min (regNat s Reg.badAccess + 1) 0xFFFFFFFF := by
  rw [badAccess, regNat_regPut_other (by decide), regNat_count_one]

theorem regNat_badAccess_at {off : Nat} (hoff : off < 2 ^ 20) (s : State) : regNat (badAccess off s) Reg.badAccessAt = off := by
  rw [badAccess, regNat_regPut_same]
  omega

theorem onlyRegs_badAccess (off : Nat) (s : State) : OnlyRegs s (badAccess off s) := rfl

/-- The last copy of every row lies in the window. -/
theorem rows_in_window : ∀ r ∈ regMap, r.off + r.cnt * r.stride < 2 ^ 20 := by decide +kernel

theorem offset_in_window {off n : Nat} {r : RegRow} (hr : rowAt off = some (r, n)) : off < 2 ^ 20 := by
  obtain ⟨hmem, hcopy⟩ := rowAt_some hr
  have hlast := rows_in_window r hmem
  by_cases hs : r.stride = 0
  · rw [RegRow.copy, if_pos hs] at hcopy
    split at hcopy
    · omega
    · cases hcopy
  · obtain ⟨hoff, hn⟩ := copy_some hs hcopy
    have : n * r.stride ≤ r.cnt * r.stride := Nat.mul_le_mul_right _ (Nat.le_of_lt hn)
    omega

/-- The two registers that show ignored accesses are no RW or RS registers. -/
theorem rowAt_badAccess : (rowAt Reg.badAccess).map (fun x => x.1.acc) = some .ctr ∧
    (rowAt Reg.badAccessAt).map (fun x => x.1.acc) = some .ro := by decide

theorem offset_ne_badAccess {off n : Nat} {r : RegRow} (hr : rowAt off = some (r, n)) (hacc : r.acc = .rw ∨ r.acc = .rs) :
    off ∉ [Reg.badAccess, Reg.badAccessAt] := by
  obtain ⟨hcount, hat⟩ := rowAt_badAccess
  intro h
  rcases (by simpa using h : off = Reg.badAccess ∨ off = Reg.badAccessAt) with rfl | rfl
  · simp only [hr, Option.map_some, Option.some.injEq] at hcount
    simp [hcount] at hacc
  · simp only [hr, Option.map_some, Option.some.injEq] at hat
    simp [hat] at hacc

/-- The addresses of a ring take any value. -/
theorem inRange_ringAddress : ∀ base ∈ [Reg.ringSqBaseLo, Reg.ringCqBaseLo, Reg.ringDbLo, Reg.ringSqBaseHi, Reg.ringCqBaseHi, Reg.ringDbHi],
    ∀ v, inRange base v = true := by
  intro base hbase v
  simp only [List.mem_cons, List.not_mem_nil, or_false] at hbase
  rcases hbase with rfl | rfl | rfl | rfl | rfl | rfl <;> rfl

theorem ringWrite_outOfRange {base n off : Nat} {v : Word} {s : State} (hsize : base = Reg.ringSize → (ringOf s (ringNo n)).enabled = false)
    (hout : inRange base (v.toNat &&& fieldMask base) = false) : ringWrite base n off v s = badAccess off s := by
  have haddress : base ∉ [Reg.ringSqBaseLo, Reg.ringCqBaseLo, Reg.ringDbLo, Reg.ringSqBaseHi, Reg.ringCqBaseHi, Reg.ringDbHi] := fun h => by
    simp [inRange_ringAddress base h] at hout
  simp only [List.mem_cons, List.not_mem_nil, or_false, not_or] at haddress
  obtain ⟨h1, h2, h3, h4, h5, h6⟩ := haddress
  have hclosed : ¬ (base = Reg.ringSize ∧ (ringOf s (ringNo n)).enabled = true) := fun h => by simp [hsize h.1] at h
  simp [ringWrite, h1, h2, h3, h4, h5, h6, hclosed, hout]

theorem plainWrite_outOfRange {off n : Nat} {v : Word} {r : RegRow} {s : State} (hr : rowAt off = some (r, n))
    (hacc : r.acc = .rw ∨ r.acc = .rs) (hown : ownCommand r.off = false) (hreset : r.off ≠ Reg.reset)
    (hsize : r.off = Reg.ringSize → (ringOf s (ringNo n)).enabled = false) (hout : inRange r.off (v.toNat &&& fieldMask r.off) = false) :
    plainWrite off v s = badAccess off s := by
  rw [plainWrite_rw hr hown hreset hacc]
  split
  · exact ringWrite_outOfRange hsize hout
  · rw [if_neg (by simp [hout])]

theorem exec_badRegisterAccess_up {e : Env} {s₀ s : State} (hs : applyEnv e s₀ = s) (hp : s.power.state ≠ 3) (off : Nat) (isWrite : Bool) :
    exec (.badRegisterAccess e off isWrite) s₀ =
      .next (badAccess off (if isWrite then s else { s with lastRead := BitVec.allOnes 32 })) := by
  change execBadRegisterAccess e off isWrite s₀ = _
  rw [execBadRegisterAccess, hs]
  cases isWrite <;> exact congrArg _ (if_neg hp)

/-! ### A write staged (R390) -/

theorem mem_unionIdx_single (l : List Nat) (x : Nat) : x ∈ unionIdx l [x] := by
  by_cases h : x ∈ l <;> simp [unionIdx, h]

theorem mem_unionIdx_left {l : List Nat} {x : Nat} (h : x ∈ l) (m : List Nat) : x ∈ unionIdx l m := List.mem_append_left _ h

theorem exec_shadowRegisterWrite_up {e : Env} {s₀ s : State} (hs : applyEnv e s₀ = s) (hp : s.power.state < 2) {off : Nat}
    (hoff : off ∈ shadowRegs) (hidle : s.pendingCommit = false) (v : Word) :
    exec (.shadowRegisterWrite e off v) s₀ = .next (stage off v false s) := by
  change execShadowRegisterWrite e off v s₀ = _
  have hlisted : shadowRegs.contains off = true := by simpa using hoff
  simp only [execShadowRegisterWrite, hs, hlisted, hostWriteTo_up hp, hidle]
  rfl

theorem shadow_ne_books : ∀ off ∈ shadowRegs, off ≠ Reg.cfgStaged ∧ off ≠ Reg.cfgStatus := by decide

theorem regGet_stageOne_same {off : Nat} (hoff : off ∈ shadowRegs) (v : Word) (byMap : Bool) (s : State) :
    regGet (stageOne off v byMap s) off = BitVec.ofNat 32 (v.toNat &&& fieldMask off) := by
  obtain ⟨hstaged, hstatus⟩ := shadow_ne_books off hoff
  rw [stageOne, regGet_markStaged hstaged hstatus, regGet_regSet_same]

theorem regGet_stageOne_other {off o : Nat} (ho : o ∉ [off, Reg.cfgStaged, Reg.cfgStatus]) (v : Word) (byMap : Bool) (s : State) :
    regGet (stageOne off v byMap s) o = regGet s o := by
  simp only [List.mem_cons, List.not_mem_nil, or_false, not_or] at ho
  obtain ⟨hoff, hstaged, hstatus⟩ := ho
  rw [stageOne, regGet_markStaged hstaged hstatus, regGet_regSet_other hoff]

/-- The fields of a word make no larger number than the word. -/
theorem toNat_ofNat_fields (v : Word) (m : Nat) : (BitVec.ofNat 32 (v.toNat &&& m)).toNat = v.toNat &&& m :=
  Nat.mod_eq_of_lt (Nat.lt_of_le_of_lt Nat.and_le_left v.isLt)

/-- The halves of the seed are fields of the whole word. -/
theorem ofNat_allFields (v : Word) : BitVec.ofNat 32 (v.toNat &&& 0xFFFFFFFF) = v := by
  rw [show (0xFFFFFFFF : Nat) = 2 ^ 32 - 1 from rfl, Nat.and_two_pow_sub_one_eq_mod, Nat.mod_eq_of_lt v.isLt, BitVec.ofNat_toNat,
    BitVec.setWidth_eq]

theorem stage_seedHigh {s : State} {lo : Word} (hlo : (s.loHold.find? fun x => x.1 = Reg.jobSeedLo) = some (Reg.jobSeedLo, lo)) (v : Word) :
    stage Reg.jobSeedHi v false s =
      stageOne Reg.jobSeedHi v false (stageOne Reg.jobSeedLo lo false { s with loHold := s.loHold.filter fun e => e.1 ≠ Reg.jobSeedLo }) := by
  rw [stage, if_neg (by decide), if_pos rfl, hlo]

/-- With the low half held, the high half stages the pair. -/
theorem seedPair_staged (lo v : Word) (s : State) :
    let t := stageOne Reg.jobSeedHi v false (stageOne Reg.jobSeedLo lo false { s with loHold := s.loHold.filter fun e => e.1 ≠ Reg.jobSeedLo })
    regGet t Reg.jobSeedLo = lo ∧ regGet t Reg.jobSeedHi = v ∧ 0 ∈ t.staged ∧ 1 ∈ t.staged ∧
      RegsKept [Reg.jobSeedLo, Reg.jobSeedHi, Reg.cfgStaged, Reg.cfgStatus] s t := by
  refine ⟨?_, ?_, ?_, ?_, fun o ho => ?_⟩
  · rw [regGet_stageOne_other (by decide), regGet_stageOne_same (by decide)]
    exact ofNat_allFields lo
  · rw [regGet_stageOne_same (by decide)]
    exact ofNat_allFields v
  · exact mem_unionIdx_left (mem_unionIdx_single _ 0) _
  · exact mem_unionIdx_single _ 1
  · simp only [List.mem_cons, List.not_mem_nil, or_false, not_or] at ho
    rw [regGet_stageOne_other (by simp [ho]), regGet_stageOne_other (by simp [ho])]
    rfl

/-! ### A commit that fails (R393, R394) -/

theorem requestCommit_fails {s : State} {f : Failure} (hdry : s.dry = false) (hplan : planActive s = false)
    (hf : validate { refreshCfg { s with pendingCommit := true } with pendingCommit := false } = some f) :
    requestCommit s = commitFailed f false { refreshCfg { s with pendingCommit := true } with pendingCommit := false } := by
  have hnow : ((refreshCfg { s with pendingCommit := true }).refill.frozen || !planActive (refreshCfg { s with pendingCommit := true })) = true := by
    have : planActive (refreshCfg { s with pendingCommit := true }) = planActive s := rfl
    rw [this, hplan, Bool.not_false, Bool.or_true]
  have happly : ((refreshCfg { s with pendingCommit := true }).pendingCommit && !(refreshCfg { s with pendingCommit := true }).dry) = true := by
    change (true && !s.dry) = true
    rw [hdry]
    rfl
  rw [requestCommit]
  simp only [hnow, if_true, applyPending, happly, applyCommit, hf]

theorem configKept_failedRequest (f : Failure) (s : State) :
    ∀ off ∈ shadowRegs, regGet (commitFailed f false { refreshCfg { s with pendingCommit := true } with pendingCommit := false }) (inForce off) =
      regGet s (inForce off) := by
  intro off hoff
  obtain ⟨-, hlo, hhi⟩ := shadowRegs_bounds off hoff
  have hrequested := configKept_refreshCfg (configKept_refl { s with pendingCommit := true })
  exact ((commitFailed_kept f _).1.regs hlo hhi).trans (hrequested.regs hlo hhi)

/-! ### The obligation -/

/-- Settles O7: an ignored write counts, a staged one keeps to its register and the books of the staged set, a failed commit keeps the
configuration. -/
theorem outOfRangeWriteIgnored : Obligations.OutOfRangeWriteIgnored := by
  unfold Obligations.OutOfRangeWriteIgnored
  refine ⟨?_, ?_, ?_, ?_⟩
  · intro e s₀ s off n v r hs hp hr hacc hown hreset hsize hout
    refine ⟨_, exec_registerWrite_up hs hp off v, ?_⟩
    rw [plainWrite_outOfRange hr hacc hown hreset hsize hout]
    exact ⟨regsKept_badAccess off s off (offset_ne_badAccess hr hacc), regNat_badAccess_count off s,
      regNat_badAccess_at (offset_in_window hr) s, regsKept_badAccess off s, onlyRegs_badAccess off s⟩
  · intro e s₀ s off isWrite hs hp hoff
    refine ⟨_, exec_badRegisterAccess_up hs hp off isWrite, ?_⟩
    cases isWrite
    · exact ⟨regNat_badAccess_count off _, regNat_badAccess_at hoff _, fun _ => rfl, regsKept_badAccess off { s with lastRead := _ }⟩
    · exact ⟨regNat_badAccess_count off s, regNat_badAccess_at hoff s, nofun, regsKept_badAccess off s⟩
  · intro e s₀ s off v hs hp hoff hidle
    have hexec := exec_shadowRegisterWrite_up hs hp hoff hidle v
    refine ⟨fun hlo hhi => ⟨_, hexec, ?_⟩, ?_, ?_⟩
    · have hone : stage off v false s = stageOne off v false s := by rw [stage, if_neg hlo, if_neg hhi]
      rw [hone]
      exact ⟨(congrArg BitVec.toNat (regGet_stageOne_same hoff v false s)).trans (toNat_ofNat_fields v _), mem_unionIdx_single _ _,
        fun o ho => regGet_stageOne_other ho v false s⟩
    · rintro rfl
      refine ⟨_, hexec, ?_⟩
      have hlow : stage Reg.jobSeedLo v false s = markStaged Reg.jobSeedLo false { s with loHold := putKey Reg.jobSeedLo v s.loHold } := if_pos rfl
      rw [hlow]
      refine ⟨rfl, mem_unionIdx_single _ 0, fun o ho => ?_⟩
      simp only [List.mem_cons, List.not_mem_nil, or_false, not_or] at ho
      exact regGet_markStaged ho.1 ho.2 false _
    · rintro lo rfl hlo
      exact ⟨_, hexec, (stage_seedHigh hlo v).symm ▸ seedPair_staged lo v s⟩
  · intro e s₀ s f hs hp hdry hidle hplan hf
    exact ⟨_, exec_configCommit_up hs hp hidle, (requestCommit_fails hdry hplan hf).symm ▸ configKept_failedRequest f s⟩

end Sys2Proof.Machine
end
section
/-! PROOF. The completion of a descriptor (R350, R363, R364, R378, R379): the bytes of its record, where they lie, and that nothing beyond
host memory, the ring, two registers and the messages changes. -/

namespace Sys2Proof.Machine

open Sys2Proof

/-! ### A record of one slot -/

theorem setRing_setRing (q : Fin 16) (r r' : Ring) (s : State) : setRing q r (setRing q r' s) = setRing q r s := by
  simp [setRing]

/-- The bytes of a completion record in one slot, with the phase of the ring's pass (R378, R379). -/
def recordBytes (s : State) (q : Fin 16) (d : Desc) (res : Result) : Bytes :=
  le 1 (1 - (ringOf s q).cqTail / cqSlots s q % 2) ++ le 1 1 ++ le 1 res.status ++ le 1 d.op ++ le 4 d.tag ++ le 8 s.hostTime ++
    le 1 res.detail ++ zeros 3 ++ le 4 res.word ++ le 8 res.quad

theorem cqSlots_setRing (q p : Fin 16) (r : Ring) (s : State) : cqSlots (setRing q r s) p = cqSlots s p := rfl
theorem cqBase_setRing (q p : Fin 16) (r : Ring) (s : State) : cqBase (setRing q r s) p = cqBase s p := rfl
theorem doorbell_setRing (q p : Fin 16) (r : Ring) (s : State) : doorbell (setRing q r s) p = doorbell s p := rfl

theorem length_recordBytes (s : State) (q : Fin 16) (d : Desc) (res : Result) : (recordBytes s q d res).length = 32 := by
  simp [recordBytes, length_leBytes, zeros]

/-- Host memory with the record in its slot and the completion tail copied to the doorbell block (R364). -/
def recordedMem (s : State) (q : Fin 16) (d : Desc) (res : Result) : Mem :=
  writeBytes (doorbell s q + 36) (le 4 (idxAdd (ringOf s q).cqTail 1)) (writeBytes (nextRecord s q) (recordBytes s q d res) s.hostMem)

/-- The record of a descriptor of one slot: the bytes in host memory, and the completion tail. -/
theorem putRecord_completion {q : Fin 16} {d : Desc} (hslots : d.slots = 1) (res : Result) (s : State) :
    putRecord q (completionSlots d s.hostTime res) s =
      { setRing q { ringOf s q with cqTail := idxAdd (ringOf s q).cqTail 1 } s with hostMem := recordedMem s q d res } := by
  have hlen : (le 1 0 ++ le 1 1 ++ le 1 res.status ++ le 1 d.op ++ le 4 d.tag ++ le 8 s.hostTime ++ le 1 res.detail ++ zeros 3 ++
      le 4 res.word ++ le 8 res.quad).length = 32 := by simp [length_leBytes, zeros]
  have hone : ¬ d.slots = 2 := by omega
  have hphase : ∀ n : Nat, n + 2 * b2n false = n := fun _ => rfl
  rw [completionSlots, if_neg hone, putRecord]
  simp only [putSlots, slice_whole hlen, ringOf_hostWrite, hphase, List.length_cons, List.length_nil, Nat.zero_add]
  rfl

theorem hostMem_recorded_slot {s : State} (hwf : Memory.wf s.hostMem = true) {q : Fin 16} (d : Desc) (res : Result)
    (hapart : nextRecord s q + 32 ≤ doorbell s q + 36 ∨ doorbell s q + 36 + 4 ≤ nextRecord s q) :
    readBytes (recordedMem s q d res) (nextRecord s q) 32 = recordBytes s q d res := by
  have hlen := length_recordBytes s q d res
  rw [recordedMem, readBytes_writeBytes_apart (writeBytes_wf _ _ hwf) _ (by rwa [length_leBytes])]
  exact hlen ▸ readBytes_writeBytes hwf (nextRecord s q) (recordBytes s q d res)

theorem hostMem_recorded_outside {s : State} {q : Fin 16} {x : Nat} (hslot : x < nextRecord s q ∨ nextRecord s q + 32 ≤ x)
    (htail : x < doorbell s q + 36 ∨ doorbell s q + 36 + 4 ≤ x) (d : Desc) (res : Result) :
    readByte (recordedMem s q d res) x = readByte s.hostMem x := by
  rw [recordedMem, readByte_writeBytes_out _ _ (by rwa [length_leBytes]), readByte_writeBytes_out _ _ (by rwa [length_recordBytes])]

/-! ### What follows the record -/

/-- A message sent or deferred changes the ring's books of messages and the list of messages. -/
theorem dueMsix_eq (q : Fin 16) (s : State) : ∃ last due m,
    dueMsix q s = { setRing q { ringOf s q with lastMsg := last, msgDue := due } s with msix := m } := by
  unfold dueMsix
  extract_lets r irq quiet
  split
  · exact ⟨_, _, _, rfl⟩
  · exact ⟨_, _, _, rfl⟩

/-- A completion's status raises a bit of OSE_EVENTS at most. -/
theorem flagStatus_eq (status : Nat) (s : State) : ∃ rs, flagStatus status s = { s with regs := rs } ∧
    ∀ o, o ≠ Reg.events → regGet (flagStatus status s) o = regGet s o := by
  have hflag : ∀ n : Nat, ∃ rs, flagEvent n s = { s with regs := rs } ∧ ∀ o, o ≠ Reg.events → regGet (flagEvent n s) o = regGet s o :=
    fun _ => ⟨_, rfl, fun _ ho => regGet_regSet_other ho _ s⟩
  unfold flagStatus
  split_ifs
  · exact hflag 0
  · exact hflag 3
  · exact hflag 5
  · exact hflag 7
  · exact ⟨_, rfl, fun _ _ => rfl⟩

theorem ringCompleted_ne_events (q : Fin 16) : ringReg q Reg.ringCompleted ≠ Reg.events :=
  Nat.ne_of_gt (Nat.lt_of_lt_of_le (by decide) (ringCtrl_le_ringReg (by decide) q))

/-- The ring that a completion leaves, but for its books of messages. -/
def completedRing (r : Ring) (d : Desc) : Ring :=
  { r with running := r.running.filter (· ≠ d), muted := r.muted.filter (· ≠ d.idx), cqTail := idxAdd r.cqTail 1 }

/-- The counter, the status bit and the message that follow a record. -/
def afterRecord (q : Fin 16) (d : Desc) (status : Nat) (s : State) : State :=
  let s := flagStatus status (count (ringReg q Reg.ringCompleted) 1 s)
  if d.irq then dueMsix q s else s

theorem afterRecord_eq (q : Fin 16) (d : Desc) (status : Nat) (s : State) : ∃ rs last due m,
    afterRecord q d status s = { setRing q { ringOf s q with lastMsg := last, msgDue := due } s with regs := rs, msix := m } ∧
    regNat (afterRecord q d status s) (ringReg q Reg.ringCompleted) = min (regNat s (ringReg q Reg.ringCompleted) + 1) 0xFFFFFFFF := by
  obtain ⟨rs, hflag, hregs⟩ := flagStatus_eq status (count (ringReg q Reg.ringCompleted) 1 s)
  have hflag : flagStatus status (count (ringReg q Reg.ringCompleted) 1 s) = { s with regs := rs } := hflag
  have hcount : regNat (flagStatus status (count (ringReg q Reg.ringCompleted) 1 s)) (ringReg q Reg.ringCompleted) =
      min (regNat s (ringReg q Reg.ringCompleted) + 1) 0xFFFFFFFF :=
    (congrArg BitVec.toNat (hregs _ (ringCompleted_ne_events q))).trans (regNat_count_one _ s)
  unfold afterRecord
  dsimp only
  split
  · obtain ⟨last, due, m, hdue⟩ := dueMsix_eq q (flagStatus status (count (ringReg q Reg.ringCompleted) 1 s))
    refine ⟨rs, last, due, m, ?_, (congrArg BitVec.toNat (regGet_of_regs (dueMsix_regs q _) _)).trans hcount⟩
    rw [hdue, hflag]
    have hring : ringOf { s with regs := rs } q = ringOf s q := rfl
    rw [hring]
    rfl
  · refine ⟨rs, (ringOf s q).lastMsg, (ringOf s q).msgDue, s.msix, ?_, hcount⟩
    have hsame : setRing q (ringOf s q) s = s := by simp [setRing, ringOf]
    rw [hflag]
    exact (congrArg (fun u : State => { u with regs := rs }) hsame).symm

/-! ### A completion -/

theorem complete_muted {q : Fin 16} {d : Desc} {s : State} (h : (ringOf s q).muted.contains d.idx = true) (res : Result) :
    complete q d res s = setRing q { ringOf s q with
      running := (ringOf s q).running.filter (· ≠ d), muted := (ringOf s q).muted.filter (· ≠ d.idx) } s := if_pos h

theorem complete_unmuted {q : Fin 16} {d : Desc} {s : State} (hslots : d.slots = 1) (h : (ringOf s q).muted.contains d.idx = false)
    (res : Result) : complete q d res s = afterRecord q d res.status
      { setRing q (completedRing (ringOf s q) d) s with hostMem := recordedMem s q d res } := by
  unfold complete
  extract_lets r gone put flagged
  have hput : put = { setRing q (completedRing r d) s with hostMem := recordedMem s q d res } := by
    have hmem : recordedMem (setRing q gone s) q d res = recordedMem s q d res := by
      simp only [recordedMem, recordBytes, nextRecord, ringOf_setRing_same, cqSlots_setRing, cqBase_setRing, doorbell_setRing,
        setRing_hostTime, setRing_hostMem, gone, r]
    have htime : s.hostTime = (setRing q gone s).hostTime := rfl
    rw [show put = putRecord q (completionSlots d s.hostTime res) (setRing q gone s) from rfl, htime, putRecord_completion hslots,
      ringOf_setRing_same, setRing_setRing, hmem]
    rfl
  rw [if_neg (by rw [h]; decide), ← hput, afterRecord]

/-- Beyond host memory, the rings, the registers and the messages a completion changes nothing. -/
theorem complete_frame {q : Fin 16} {d : Desc} {s : State} (hslots : d.slots = 1) (h : (ringOf s q).muted.contains d.idx = false)
    (res : Result) : { complete q d res s with hostMem := s.hostMem, rings := s.rings, regs := s.regs, msix := s.msix } = s := by
  obtain ⟨rs, last, due, m, hafter, -⟩ := afterRecord_eq q d res.status
    { setRing q (completedRing (ringOf s q) d) s with hostMem := recordedMem s q d res }
  rw [complete_unmuted hslots h, hafter]
  rfl

/-! ### The obligation -/

/-- Settles O16: the record put, and what follows it in the ring's books, the registers and the messages. -/
theorem completionRecord : Obligations.CompletionRecord := by
  unfold Obligations.CompletionRecord
  refine ⟨fun s q d res hwf hslots hmute => ?_, fun s q d res hmute => complete_muted hmute res⟩
  obtain ⟨rs, last, due, m, hafter, hcount⟩ := afterRecord_eq q d res.status
    { setRing q (completedRing (ringOf s q) d) s with hostMem := recordedMem s q d res }
  have hring : ringOf (complete q d res s) q = { completedRing (ringOf s q) d with lastMsg := last, msgDue := due } := by
    rw [complete_unmuted hslots hmute, hafter]
    exact (ringOf_setRing_same ..).trans (by rw [show ringOf { setRing q (completedRing (ringOf s q) d) s with
      hostMem := recordedMem s q d res } q = completedRing (ringOf s q) d from ringOf_setRing_same ..])
  have hmem : (complete q d res s).hostMem = recordedMem s q d res := by rw [complete_unmuted hslots hmute, hafter]; rfl
  refine ⟨by rw [hring]; rfl, by rw [hring]; rfl, ?_, fun hapart => ?_, fun x hslot htail => ?_, complete_frame hslots hmute res⟩
  · rw [complete_unmuted hslots hmute, hcount]
    rfl
  · rw [hostRead, hmem]
    exact hostMem_recorded_slot hwf d res hapart
  · rw [hmem]
    exact hostMem_recorded_outside hslot htail d res

end Sys2Proof.Machine
end
section
/-! PROOF. The start of a taken descriptor, and the control of a ring (R351, R358, R359, R367, R368, R382, R421): each command by the
branches of its function. -/

namespace Sys2Proof.Machine

open Sys2Proof

/-! ### The start of a descriptor (R358, R359) -/

/-- A descriptor taken starts: it runs, and its reserved fields are counted. -/
def startDesc (q : Fin 16) (d : Desc) (rest : List Desc) (s : State) : State :=
  let s := setRing q { ringOf s q with taken := rest, running := (ringOf s q).running ++ [d] } s
  let s := if d.wellFormed then count Reg.rsvdFields d.reservedSet s else s
  if d.op = Op.snapExport ∨ d.op = Op.streamWindow then refreshSlots s else s

section
variable {e : Env} {s₀ s : State} (hs : applyEnv e s₀ = s) {q : Fin 16}
include hs

theorem exec_descriptorStart_nothingTaken (h : (ringOf s q).taken = []) : exec (.descriptorStart e q) s₀ = .next s := by
  change execDescriptorStart e q s₀ = _
  simp only [execDescriptorStart, hs]
  rw [h]

theorem exec_descriptorStart_taken {d : Desc} {rest : List Desc} (h : (ringOf s q).taken = d :: rest) :
    exec (.descriptorStart e q) s₀ =
      .next (if flumeRuns s && ringsServed s && mayStart s q d then startDesc q d rest s else s) := by
  change execDescriptorStart e q s₀ = _
  simp only [execDescriptorStart, hs]
  rw [h]
  rfl

theorem exec_descriptorStart_held {d : Desc} {rest : List Desc} (h : (ringOf s q).taken = d :: rest) (hmay : mayStart s q d = false) :
    exec (.descriptorStart e q) s₀ = .next s := by
  rw [exec_descriptorStart_taken hs h, hmay, Bool.and_false]
  rfl

end

/-- A ring with 8 descriptors running starts none. -/
theorem mayStart_full {s : State} {q : Fin 16} (h : 8 ≤ (ringOf s q).running.length) (d : Desc) : mayStart s q d = false := by
  simp [mayStart, Nat.not_lt.2 h]

theorem onlyRings_setRing (q : Fin 16) (r : Ring) (s : State) : OnlyRings s (setRing q r s) := rfl

theorem OnlyRings.regPut {s t : State} (h : OnlyRings s t) (off n : Nat) : OnlyRings s (regPut off n t) := h

theorem OnlyRings.count {s t : State} (h : OnlyRings s t) (off n : Nat) : OnlyRings s (count off n t) := h.regPut off _

theorem OnlyRings.refreshSlots {s t : State} (h : OnlyRings s t) : OnlyRings s (refreshSlots t) := (h.regPut _ _).regPut _ _

/-- Beside its ring a start stores registers only. -/
theorem onlyRings_startDesc (q : Fin 16) (d : Desc) (rest : List Desc) (s : State) : OnlyRings s (startDesc q d rest s) := by
  unfold startDesc
  extract_lets r started counted
  have hstarted : OnlyRings s started := onlyRings_setRing q _ s
  have hcounted : OnlyRings s counted := by
    unfold counted
    split
    · exact hstarted.count _ _
    · exact hstarted
  split
  · exact hcounted.refreshSlots
  · exact hcounted

theorem ringOf_startDesc (q p : Fin 16) (d : Desc) (rest : List Desc) (s : State) : ringOf (startDesc q d rest s) p =
    ringOf (setRing q { ringOf s q with taken := rest, running := (ringOf s q).running ++ [d] } s) p := by
  unfold startDesc
  dsimp only
  split_ifs <;> simp only [ringOf_refreshSlots, ringOf_count]

/-- Settles O13: a ring by whether it has something taken that may start. -/
theorem descriptorStarts : Obligations.DescriptorStarts := by
  unfold Obligations.DescriptorStarts
  refine ⟨fun e s₀ s q d rest hs hf hserved htaken hmay => ?_, fun e s₀ s q hs =>
    ⟨fun d rest htaken hmay => exec_descriptorStart_held hs htaken hmay, exec_descriptorStart_nothingTaken hs, fun hfull => ?_⟩⟩
  · have hexec := exec_descriptorStart_taken hs htaken
    rw [hf, hserved, hmay, Bool.and_self, Bool.and_self, if_pos rfl] at hexec
    exact ⟨_, hexec, (ringOf_startDesc q q d rest s).trans (ringOf_setRing_same q _ s),
      fun p hp => (ringOf_startDesc q p d rest s).trans (ringOf_setRing_other hp _ s), onlyRings_startDesc q d rest s⟩
  · cases htaken : (ringOf s q).taken with
    | nil => exact exec_descriptorStart_nothingTaken hs htaken
    | cons d rest => exact exec_descriptorStart_held hs htaken (mayStart_full hfull d)

/-! ### Enable and disable (R351, R367) -/

section
variable {e : Env} {s₀ s : State} (hs : applyEnv e s₀ = s) {q : Fin 16}
include hs

section
variable (hp : s.power.state < 2)
include hp

theorem exec_ringEnable_up (irq : Bool) : exec (.ringEnable e q irq) s₀ = .next (enableRing q irq s) := by
  change execRingEnable e q irq s₀ = _
  rw [execRingEnable, hs, hostWriteTo_up hp]

theorem exec_ringDisable_up (irq : Bool) : exec (.ringDisable e q irq) s₀ = .next (disableRing q irq s) := by
  change execRingDisable e q irq s₀ = _
  rw [execRingDisable, hs, hostWriteTo_up hp]

theorem exec_ringReset_up : exec (.ringReset e q) s₀ = .next (resetRing q s) := by
  change execRingReset e q s₀ = _
  rw [execRingReset, hs, hostWriteTo_up hp]

end

theorem exec_ringDisableDone_idle (hclosing : (ringOf s q).closing = true) (hidle : (ringOf s q).running = []) :
    exec (.ringDisableDone e q) s₀ = .next (setRing q { ringOf s q with closing := false } s) := by
  change execRingDisableDone e q s₀ = _
  simp only [execRingDisableDone, hs]
  rw [if_pos ⟨hclosing, by rw [hidle]; rfl⟩]

theorem exec_ringResetDone_idle (hreset : (ringOf s q).resetting = true) (hidle : (ringOf s q).running = []) (hrestart : s.restarting = []) :
    exec (.ringResetDone e q) s₀ = .next (setRing q { ringOf s q with
      sqHead := 0, sqTail := 0, cqTail := 0, cqHead := 0, halted := false, enabled := false, resetting := false, muted := [],
      reportIrq := false, cause := 0 } s) := by
  change execRingResetDone e q s₀ = _
  simp only [execRingResetDone, hs]
  rw [if_pos ⟨hreset, by rw [hidle]; rfl, by rw [hrestart]; rfl⟩]

end

section
variable {s : State} {q : Fin 16} (hreset : (ringOf s q).resetting = false)
include hreset

theorem enableRing_disabled (h : (ringOf s q).enabled = false) (irq : Bool) : enableRing q irq s = setRing q { ringOf s q with
    enabled := true, closing := false, reportIrq := irq, sqHead := 0, sqTail := 0, cqTail := 0, cqHead := 0, copied := [] } s := by
  simp only [enableRing, hreset, h, Bool.false_eq_true, if_false]

theorem enableRing_enabled (h : (ringOf s q).enabled = true) (irq : Bool) :
    enableRing q irq s = setRing q { ringOf s q with reportIrq := irq } s := by
  simp only [enableRing, hreset, h, Bool.false_eq_true, if_false, if_true]

theorem disableRing_disabled (h : (ringOf s q).enabled = false) (irq : Bool) :
    disableRing q irq s = setRing q { ringOf s q with reportIrq := irq } s := by
  simp only [disableRing, hreset, h, Bool.false_eq_true, if_false, Bool.not_false, if_true]

theorem disableRing_enabled (h : (ringOf s q).enabled = true) (irq : Bool) :
    disableRing q irq s = (ringOf s q).taken.foldl (fun s d => complete q d (refusedFor d 0xE4) s)
      (setRing q { ringOf s q with enabled := false, closing := !(ringOf s q).running.isEmpty, reportIrq := irq, copied := [], taken := [],
                                   running := (ringOf s q).running ++ (ringOf s q).taken } s) := by
  simp only [disableRing, hreset, h, Bool.false_eq_true, if_false, Bool.not_true]

theorem resetRing_begins : resetRing q s = refreshSlots (setRing q { (ringOf s q).stopped with resetting := true, closing := false } s) := by
  simp only [resetRing, hreset, Bool.false_eq_true, if_false]

end

/-- Settles O14: each write of a ring's control register, and the two ends, by the ring as it is. -/
theorem ringControl : Obligations.RingControl := by
  unfold Obligations.RingControl
  refine ⟨?_, ?_, fun e s₀ s q hs => exec_ringDisableDone_idle hs, ?_, fun e s₀ s q hs => exec_ringResetDone_idle hs⟩
  · intro e s₀ s q irq hs hp hreset
    rw [exec_ringEnable_up hs hp]
    exact ⟨fun h => congrArg _ (enableRing_disabled hreset h irq), fun h => congrArg _ (enableRing_enabled hreset h irq)⟩
  · intro e s₀ s q irq hs hp hreset
    rw [exec_ringDisable_up hs hp]
    exact ⟨fun h => congrArg _ (disableRing_disabled hreset h irq), fun h => congrArg _ (disableRing_enabled hreset h irq)⟩
  · intro e s₀ s q hs hp hreset
    have hexec := exec_ringReset_up hs (q := q) hp
    rw [resetRing_begins hreset] at hexec
    exact ⟨_, hexec, ringOf_setRing_same q _ s, fun p hp => ringOf_setRing_other hp _ s, (onlyRings_setRing q _ s).refreshSlots⟩

end Sys2Proof.Machine
end
section
/-! PROOF. The poll of a ring (R352 to R357, R365, R369): its indices read, what is copied, and what is then taken. -/

namespace Sys2Proof.Machine

open Sys2Proof

/-! ### Indices (R352) -/

/-- A tail one ahead of the head is level with the head advanced by one. -/
theorem idxSub_idxAdd_one {tail head : Nat} (h : idxSub tail head = 1) : idxSub tail (idxAdd head 1) = 0 := by
  unfold idxSub idxAdd at *
  omega

/-! ### The parts of a poll -/

theorem flushLost_none {q : Fin 16} {s : State} (h : (ringOf s q).lostNow = 0) : flushLost q s = s := by
  simp only [flushLost, h, Nat.lt_irrefl, false_and, if_false]

theorem copySlots_level {q : Fin 16} {s : State} (h : idxSub (ringOf s q).sqTail (ringOf s q).sqHead = 0) (fuel budget : Nat) :
    copySlots q fuel budget s = s := by
  cases fuel with
  | zero => rfl
  | succ n => simp only [copySlots, h, Nat.min_zero, if_true]

/-- With one new descriptor of one slot, it alone is copied. -/
theorem copySlots_one {q : Fin 16} {s : State} (h : idxSub (ringOf s q).sqTail (ringOf s q).sqHead = 1)
    (hext : (fetchDesc s q (ringOf s q).sqHead).ext = false) (fuel budget : Nat) :
    copySlots q (fuel + 1) (budget + 1) s = setRing q { ringOf s q with
      copied := (ringOf s q).copied ++ [fetchDesc s q (ringOf s q).sqHead], sqHead := idxAdd (ringOf s q).sqHead 1 } s := by
  have hspan : (fetchDesc s q (ringOf s q).sqHead).span = 1 := by rw [Desc.span, hext]; rfl
  have havail : min (budget + 1) 1 = 1 := by omega
  rw [copySlots]
  simp only [h, havail, hspan, Nat.one_ne_zero, Nat.lt_irrefl, if_false]
  exact copySlots_level (by rw [ringOf_setRing_same]; exact idxSub_idxAdd_one h) _ _

/-- A descriptor of one slot is the slot's bytes. -/
theorem fetchDesc_oneSlot {q : Fin 16} {j : Nat} {s : State} (hext : (fetchDesc s q j).ext = false) :
    (fetchDesc s q j).bytes = hostRead s (sqBase s q + j % sqSlots s q * 64) 64 := by
  have hfirst : ∀ bs : Bytes, field 1 1 (hostRead s (sqBase s q + j % sqSlots s q * 64) 64 ++ bs) =
      field 1 1 (hostRead s (sqBase s q + j % sqSlots s q * 64) 64) := by
    intro bs
    have hlen : (hostRead s (sqBase s q + j % sqSlots s q * 64) 64).length = 64 := length_readFrom ..
    rw [field, field, slice, slice, List.drop_append_of_le_length (by omega), List.take_append_of_le_length (by simp [hlen])]
  unfold fetchDesc at *
  dsimp only at *
  split at hext
  case isTrue h => rw [Desc.ext, Desc.f, hfirst, h] at hext; cases hext
  case isFalse h => rw [if_neg h]

/-- A transition given up is a matter of the power manager's books and of one register; the state stays. -/
theorem abandonMove_power (s : State) : ∃ w rs, abandonMove s = { s with power := w, regs := rs } ∧ w.state = s.power.state := by
  unfold abandonMove
  split
  · split
    · exact ⟨_, _, rfl, rfl⟩
    · exact ⟨_, _, rfl, rfl⟩
  · exact ⟨_, _, rfl, rfl⟩

theorem wake_power (s : State) : ∃ w rs, wake s = { s with power := w, regs := rs } := by
  obtain ⟨w, rs, h, -⟩ := abandonMove_power s
  unfold wake
  split_ifs
  · exact ⟨w, rs, h⟩
  · exact ⟨_, _, rfl⟩
  · exact ⟨_, _, rfl⟩

theorem wake_dry (s : State) : (wake s).dry = s.dry := by
  obtain ⟨w, rs, h⟩ := wake_power s
  rw [h]

/-- A descriptor as it is taken (R360, R362). -/
def takenDesc (d : Desc) (s : State) : Desc := { d with takeSeq := s.takeCount, noTag := decide (tagOf s = 0) }

/-- Outside dry mode one copied descriptor waits on, or is taken. -/
theorem ringOf_takeReady_one {q : Fin 16} {s : State} {d : Desc} (hd : (ringOf s q).copied = [d]) (hdry : s.dry = false) :
    takeReady q 1 s = s ∨ ∃ u, ringOf (takeReady q 1 s) q =
      { ringOf s q with copied := [], taken := (ringOf s q).taken ++ [takenDesc d u] } := by
  rw [takeReady]
  simp only [hd]
  split
  · exact .inl rfl
  · refine .inr ⟨if quietOps.contains d.op then s else wake s, ?_⟩
    have hwoken : (if quietOps.contains d.op then s else wake s).dry = false := by
      split
      · exact hdry
      · rw [wake_dry, hdry]
    simp only [hwoken, Bool.false_eq_true, if_false, takeReady]
    exact ringOf_setRing_same ..

/-! ### A poll of an open ring -/

/-- A ring with its host indices as a poll reads them. -/
def polled (q : Fin 16) (tail head : Nat) (s : State) : State := setRing q { ringOf s q with sqTail := tail, cqHead := head } s

theorem sqSlots_setRing (q p : Fin 16) (r : Ring) (s : State) : sqSlots (setRing q r s) p = sqSlots s p := rfl

/-- What a poll does once its indices are read and found in bounds. -/
def afterIndices (q : Fin 16) (oldHead : Nat) (s : State) : State :=
  let s := flushLost q s
  let s := takeReady q (ringOf s q).copied.length s
  let s := writeHead q oldHead (copySlots q 16 16 s)
  takeReady q (ringOf s q).copied.length s

section
variable {e : Env} {s₀ s : State} (hs : applyEnv e s₀ = s) {q : Fin 16} (hserved : ringsServed s = true) (hopen : (ringOf s q).isOpen = true)
  {tail head : Nat} (htail : field 0 4 (hostRead s (doorbell s q) 4) = tail) (hhead : field 0 4 (hostRead s (doorbell s q + 4) 4) = head)
include hs hserved hopen htail hhead

theorem exec_ringPoll_open : exec (.ringPoll e q) s₀ =
    .next (if sqSlots s q < idxSub tail (ringOf s q).sqHead ∨ cqSlots s q < idxSub (ringOf s q).cqTail head then
      haltRing q 3 0 (polled q tail head s) else afterIndices q (ringOf s q).sqHead (polled q tail head s)) := by
  change execRingPoll e q s₀ = _
  rw [execRingPoll, hs, pollRing, hserved, hopen]
  simp only [htail, hhead, Bool.and_self, Bool.not_true, Bool.false_eq_true, if_false, sqSlots_setRing, cqSlots_setRing, polled, afterIndices]

theorem exec_ringPoll_inBounds (hnew : idxSub tail (ringOf s q).sqHead ≤ 1) (hroom : idxSub (ringOf s q).cqTail head ≤ cqSlots s q) :
    exec (.ringPoll e q) s₀ = .next (afterIndices q (ringOf s q).sqHead (polled q tail head s)) := by
  have hlong : 1 ≤ sqSlots s q := Nat.one_le_two_pow
  rw [exec_ringPoll_open hs hserved hopen htail hhead, if_neg (by omega)]

end

theorem ringOf_polled (q : Fin 16) (tail head : Nat) (s : State) :
    ringOf (polled q tail head s) q = { ringOf s q with sqTail := tail, cqHead := head } := ringOf_setRing_same ..

/-- With nothing copied and no report lost, taking and flushing do nothing before the copy. -/
theorem afterIndices_idle {q : Fin 16} {s : State} (hcopied : (ringOf s q).copied = []) (hlost : (ringOf s q).lostNow = 0) (old : Nat) :
    afterIndices q old s = takeReady q (ringOf (writeHead q old (copySlots q 16 16 s)) q).copied.length (writeHead q old (copySlots q 16 16 s)) := by
  simp only [afterIndices, flushLost_none hlost, hcopied, List.length_nil, takeReady]

theorem ringOf_writeHead (q : Fin 16) (old : Nat) (s : State) : ringOf (writeHead q old s) q = ringOf s q := by
  unfold writeHead
  dsimp only
  split <;> rfl

theorem dry_writeHead (q : Fin 16) (old : Nat) (s : State) : (writeHead q old s).dry = s.dry := by
  unfold writeHead
  dsimp only
  split <;> rfl

/-- Settles O12: the poll by how far the host's tail is ahead. -/
theorem ringPollCopies : Obligations.RingPollCopies := by
  unfold Obligations.RingPollCopies
  refine ⟨?_, ?_, ?_⟩
  · intro e s₀ s q tail head hs hserved hdry hopen hcopied hlost htail hhead hnew hroom hext
    refine ⟨_, exec_ringPoll_inBounds hs hserved hopen htail hhead (Nat.le_of_eq hnew) hroom, ?_⟩
    have hring := ringOf_polled q tail head s
    have hfetch : fetchDesc (polled q tail head s) q (ringOf s q).sqHead = fetchDesc s q (ringOf s q).sqHead := rfl
    have hcopy := copySlots_one (s := polled q tail head s) (q := q) (by rw [hring]; exact hnew) (by rw [hring]; exact hext) 15 15
    rw [hring, hfetch] at hcopy
    simp only [hcopied, List.nil_append] at hcopy
    rw [afterIndices_idle (by rw [hring]; exact hcopied) (by rw [hring]; exact hlost), hcopy, ringOf_writeHead, polled, setRing_setRing]
    generalize hu : writeHead q _ _ = u
    have hucopied : ringOf u q = { ringOf s q with
        sqTail := tail, cqHead := head, copied := [fetchDesc s q (ringOf s q).sqHead], sqHead := idxAdd (ringOf s q).sqHead 1 } := by
      rw [← hu, ringOf_writeHead, ringOf_setRing_same]
    have hudry : u.dry = false := by rw [← hu, dry_writeHead]; exact hdry
    rw [ringOf_setRing_same]
    rcases ringOf_takeReady_one (congrArg Ring.copied hucopied) hudry with hwaits | ⟨v, htaken⟩
    · refine ⟨fetchDesc s q (ringOf s q).sqHead, fetchDesc_oneSlot hext, rfl, rfl, ?_⟩
      rw [List.length_singleton, hwaits, hucopied]
      exact ⟨rfl, rfl, rfl, .inl ⟨rfl, rfl⟩⟩
    · refine ⟨takenDesc (fetchDesc s q (ringOf s q).sqHead) v, fetchDesc_oneSlot hext, rfl, rfl, ?_⟩
      rw [List.length_singleton, htaken, hucopied]
      exact ⟨rfl, rfl, rfl, .inr ⟨rfl, rfl⟩⟩
  · intro e s₀ s q tail head hs hserved hopen hcopied hlost htail hhead hnone hroom
    rw [exec_ringPoll_inBounds hs hserved hopen htail hhead (by omega) hroom]
    have hring := ringOf_polled q tail head s
    have hlevel : copySlots q 16 16 (polled q tail head s) = polled q tail head s := copySlots_level (by rw [hring]; exact hnone) 16 16
    have hhead : writeHead q (ringOf s q).sqHead (polled q tail head s) = polled q tail head s := if_pos (by rw [hring])
    rw [afterIndices_idle (by rw [hring]; exact hcopied) (by rw [hring]; exact hlost), hlevel, hhead, hring, hcopied]
    rfl
  · intro e s₀ s q tail head hs hserved hopen htail hhead hover
    refine ⟨_, exec_ringPoll_open hs hserved hopen htail hhead, ?_⟩
    have hrunning : (ringOf (polled q tail head s) q).halted = false := by
      rw [ringOf_polled]
      simp only [Ring.isOpen, Bool.and_eq_true, Bool.not_eq_true'] at hopen
      exact hopen.1.2
    obtain ⟨u, -, -, hhalt⟩ := haltRing_of_running hrunning 3 0
    rw [if_pos hover, hhalt]
    beta_reduce
    rw [ringOf_haltAfter]
    exact ⟨rfl, rfl⟩

end Sys2Proof.Machine
end
section
/-! PROOF. FENCE, unknown opcodes, and a FENCE that ends with a fault in the engine (R360, R371, R381). -/

namespace Sys2Proof.Machine

open Sys2Proof

/-! ### FENCE (R360) -/

section
variable {e : Env} {s₀ s : State} {q : Fin 16} {j : Nat} {d : Desc} (hs : applyEnv e s₀ = s) (hd : descAt s q j Op.fence d = true)
include hs hd

theorem exec_fence_otherScope (hscope : 1 < d.f 8 1) :
    exec (.fence e q j) s₀ = .next (charge (traffic s) (complete q d (refusedWith 0xE3) s)) := by
  subst hs
  exact next_of_descAt hd rfl (if_pos hscope)

theorem exec_fence_done (hscope : d.f 8 1 < 2) (hown : earlierDone s q d = true) (hall : d.f 8 1 = 1 → ∀ r, earlierDone s r d = true) :
    exec (.fence e q j) s₀ = .next (charge (traffic s) (complete q d {} s)) := by
  subst hs
  have hdone : (d.f 8 1 = 0 || (List.finRange 16).all fun r => earlierDone (applyEnv e s₀) r d) = true := by
    rcases (by omega : d.f 8 1 = 0 ∨ d.f 8 1 = 1) with h | h
    · simp [h]
    · simp [hall h]
  exact next_of_descAt hd rfl (by rw [if_neg (by omega), hown, hdone]; rfl)

/-- A descriptor taken earlier that has not completed holds it, in its own ring or, under scope 1, in any. -/
theorem exec_fence_waits (hscope : d.f 8 1 < 2) {r : Fin 16} (hring : r = q ∨ d.f 8 1 = 1) (hearlier : earlierDone s r d = false) :
    exec (.fence e q j) s₀ = .next (charge (traffic s) s) := by
  subst hs
  have hopen : (earlierDone (applyEnv e s₀) q d && (d.f 8 1 = 0 || (List.finRange 16).all fun r => earlierDone (applyEnv e s₀) r d)) = false := by
    rcases hring with rfl | h
    · rw [hearlier, Bool.false_and]
    · have : ((List.finRange 16).all fun r => earlierDone (applyEnv e s₀) r d) = false :=
        List.all_eq_false.2 ⟨r, List.mem_finRange r, by simp [hearlier]⟩
      rw [this, h]
      simp
  exact next_of_descAt hd rfl (by rw [if_neg (by omega), hopen]; rfl)

end

/-! ### Unknown opcodes (R371) -/

theorem exec_unknownOpcode_malformed {e : Env} {s₀ s : State} {q : Fin 16} {j : Nat} {d : Desc} (hs : applyEnv e s₀ = s)
    (hc : controllersRun s = true) (hr : runningAt s q j = some d) (hbad : d.wellFormed = false) :
    exec (.unknownOpcode e q j) s₀ = .next (complete q d (refusedFor d (if opcodes.contains d.op then 0xE2 else 0xE1)) s) := by
  change execUnknownOpcode e q j s₀ = _
  simp only [execUnknownOpcode, hs, hc, hr, hbad, Bool.not_true, Bool.false_eq_true, if_false]

/-! ### A fault in the engine (R381) -/

theorem withDesc_selfFault {s : State} {q : Fin 16} {j op : Nat} {d : Desc} (hc : controllersRun s = true) (hr : runningAt s q j = some d)
    (hop : d.op = op) (hw : d.wellFormed = true) (htag : d.noTag = false) (hfault : s.selfFault = true) (go : Desc → State → State) :
    withDesc q j op go s = internalFault q d s := by
  simp only [withDesc, hc, hr, hop, hw, htag, hfault, Bool.not_true, Bool.false_eq_true, if_false, Bool.false_and, and_self, if_true]

/-- A FENCE names no range. -/
theorem undefineNamed_fence {d : Desc} (hop : d.op = Op.fence) (s : State) : undefineNamed d s = s := by
  simp only [undefineNamed, hop]
  rfl

/-- While no restore runs, the work given up is that of the page guard, the regions and the pond. -/
theorem dropWork_eq {s : State} (hrestore : s.restore.running = false) (q : Fin 16) (d : Desc) :
    ∃ g w p, dropWork q d s = { s with guard := g, regionWait := w, pond := p } := by
  unfold dropWork
  extract_lets mine oldGuard oldPond dropped undrainedPond undrained
  have hundrained : ∃ g w p, undrained = { s with guard := g, regionWait := w, pond := p } := by
    unfold undrained
    split <;> exact ⟨_, _, _, rfl⟩
  obtain ⟨g, w, p, hu⟩ := hundrained
  rw [hu]
  exact ⟨g, w, p, if_neg (by simp [hrestore])⟩

theorem slots_of_fence {d : Desc} (hop : d.op = Op.fence) : d.slots = 1 := by
  rw [Desc.slots, hop]
  rfl

/-- A completion with INTERNAL shows in OSE_EVENTS. -/
theorem events_complete_internal {q : Fin 16} {d : Desc} {s : State} (hslots : d.slots = 1)
    (hmute : (ringOf s q).muted.contains d.idx = false) :
    (regNat (complete q d { status := Code.internal } s) Reg.events).testBit 7 = true := by
  have hflag : ∀ u : State, flagStatus Code.internal u = flagEvent 7 u := fun _ => rfl
  rw [complete_unmuted hslots hmute, afterRecord]
  dsimp only
  rw [hflag]
  split
  · rw [regNat, regGet_of_regs (dueMsix_regs q _), ← regNat]
    exact testBit_flagEvent (by decide) _
  · exact testBit_flagEvent (by decide) _

theorem idx_of_runningAt {s : State} {q : Fin 16} {j : Nat} {d : Desc} (h : runningAt s q j = some d) : d.idx = j := by
  simpa using List.find?_some h

theorem event_queued {s : State} (h : s.culvert.queue.length < 64) (code status cause : Nat) (detail : Bytes) :
    event code status cause detail s =
      { s with culvert.queue := s.culvert.queue ++ [⟨code, status, cause, s.ht, detail, tagOf s⟩] } := if_pos h

/-- With room for the event, a FENCE at fault completes in a state that differs where the work was given up, and by the event. -/
theorem internalFault_fence {s : State} {q : Fin 16} {j : Nat} {d : Desc} (hr : runningAt s q j = some d) (hop : d.op = Op.fence)
    (hroom : s.culvert.queue.length < 64) (hrestore : s.restore.running = false) :
    ∃ g w p rs, internalFault q d s = refreshSlots (complete q d { status := Code.internal } { s with
      guard := g, regionWait := w, pond := p, regs := rs,
      culvert.queue := s.culvert.queue ++ [⟨0x16, Code.internal, 0, s.ht, le 1 Op.fence, tagOf s⟩] }) := by
  obtain ⟨g, w, p, hdrop⟩ := dropWork_eq hrestore q d
  obtain ⟨rs, hrs⟩ : ∃ rs, rs = (flagEvent 7 { s with guard := g, regionWait := w, pond := p }).regs := ⟨_, rfl⟩
  have hreported : event 0x16 Code.internal 0 (le 1 d.op) (flagEvent 7 (dropWork q d (undefineNamed d s))) = { s with
      guard := g, regionWait := w, pond := p, regs := rs,
      culvert.queue := s.culvert.queue ++ [⟨0x16, Code.internal, 0, s.ht, le 1 Op.fence, tagOf s⟩] } := by
    rw [undefineNamed_fence hop, hdrop, hop, event_queued (by exact hroom), tagOf_flagEvent, hrs]
    rfl
  refine ⟨g, w, p, rs, ?_⟩
  have hstill : ∀ rs c, runningAt { s with guard := g, regionWait := w, pond := p, regs := rs, culvert := c } q d.idx = some d := fun _ _ =>
    (congrArg (runningAt s q) (idx_of_runningAt hr)).trans hr
  rw [internalFault]
  simp only [hreported, hstill]

theorem exec_fence_selfFault {e : Env} {s₀ s : State} {q : Fin 16} {j : Nat} {d : Desc} (hs : applyEnv e s₀ = s)
    (hc : controllersRun s = true) (hr : runningAt s q j = some d) (hop : d.op = Op.fence) (hw : d.wellFormed = true)
    (htag : d.noTag = false) (hfault : s.selfFault = true) : exec (.fence e q j) s₀ = .next (internalFault q d s) := by
  subst hs
  exact congrArg _ (withDesc_selfFault hc hr hop hw htag hfault _)

/-- Settles O17: a FENCE by its scope and by what its ring, or every ring, took earlier; the fault by what it gives up and what it completes. -/
theorem fenceAndUnknownOpcodes : Obligations.FenceAndUnknownOpcodes := by
  unfold Obligations.FenceAndUnknownOpcodes
  refine ⟨fun e s₀ s q j d hs hd => ⟨?_, ?_, ?_, ?_, exec_fence_otherScope hs hd⟩, ?_, ?_⟩
  · exact fun hscope hown => exec_fence_done hs hd (by omega) hown fun h => by omega
  · exact fun hscope hall => exec_fence_done hs hd (by omega) (hall q) fun _ => hall
  · exact fun hscope hearlier => exec_fence_waits hs hd hscope (.inl rfl) hearlier
  · exact fun r hscope hearlier => exec_fence_waits hs hd (by omega) (.inr hscope) hearlier
  · exact fun e s₀ s q j d hs hc hr hbad => exec_unknownOpcode_malformed hs hc hr hbad
  · intro e s₀ s q j d hs hc hr hop hw htag hfault hroom hrestore hmute
    have hexec := exec_fence_selfFault hs hc hr hop hw htag hfault
    obtain ⟨g, w, p, rs, hend⟩ := internalFault_fence hr hop hroom hrestore
    rw [hend] at hexec
    refine ⟨_, hexec, ?_⟩
    generalize hu : ({ s with guard := g, regionWait := w, pond := p, regs := rs, culvert.queue := _ } : State) = u
    have hrings : ringOf u q = ringOf s q := by rw [← hu]; rfl
    have hslots := slots_of_fence hop
    have hunmuted : (ringOf u q).muted.contains d.idx = false := by rw [hrings, idx_of_runningAt hr, hmute]
    have hframe := complete_frame hslots hunmuted { status := Code.internal }
    refine ⟨?_, ?_, ?_, ?_, ?_⟩
    · rw [ringOf_refreshSlots, running_complete, hrings]
    · rw [regNat_refreshSlots (by decide) (by decide)]
      exact events_complete_internal hslots hunmuted
    · exact (congrArg (·.culvert.queue) hframe).trans (by rw [← hu])
    · exact (congrArg (·.hbm) hframe).trans (by rw [← hu])
    · exact (congrArg (·.flash) hframe).trans (by rw [← hu])

end Sys2Proof.Machine
end
section
/-! PROOF. FW_STAGE (R371, R374, R379, R441): a package staged, or refused by its fields, by an activation, by its content, by its binding. -/

namespace Sys2Proof.Machine

open Sys2Proof

/-! ### The checks of FW_STAGE (R441) -/

/-- The fields of an FW_STAGE are within what R374 gives: an aligned address, a length in whole units, a base numbered 0 or a patch 1 to 8. -/
def StageFieldsFit (d : Desc) : Prop :=
  d.f 8 8 % 64 = 0 ∧ d.f 16 4 % 4096 = 0 ∧ d.f 16 4 ≠ 0 ∧ d.f 16 4 ≤ 2 ^ 26 ∧
    (d.f 20 1 = 0 ∧ d.f 24 4 = 0 ∨ d.f 20 1 = 1 ∧ 1 ≤ d.f 24 4 ∧ d.f 24 4 ≤ 8)

theorem stageFieldsFit_iff_not_refused (d : Desc) : StageFieldsFit d ↔
    ¬ (d.f 8 8 % 64 ≠ 0 ∨ d.f 16 4 % 4096 ≠ 0 ∨ d.f 16 4 = 0 ∨ 2 ^ 26 < d.f 16 4 ∨ 1 < d.f 20 1 ∨ (d.f 20 1 = 0 ∧ d.f 24 4 ≠ 0) ∨
      (d.f 20 1 = 1 ∧ ¬ (1 ≤ d.f 24 4 ∧ d.f 24 4 ≤ 8))) := by
  unfold StageFieldsFit
  omega

/-- A package is good and is the part that its descriptor names. -/
def PackageFits (d : Desc) (b : Bytes) : Prop :=
  packOk b = true ∧ field 6 1 b = d.f 20 1 ∧ field 7 1 b = d.f 24 4 ∧ (d.f 20 1 = 0 → segmentsOk b = true)

theorem packageFits_iff_not_refused (d : Desc) (b : Bytes) : PackageFits d b ↔
    (!packOk b || field 6 1 b ≠ d.f 20 1 || field 7 1 b ≠ d.f 24 4 || (d.f 20 1 = 0 && !segmentsOk b)) = false := by
  unfold PackageFits
  by_cases hpart : d.f 20 1 = 0
  · simp [hpart, and_assoc]
  · simp [hpart, and_assoc]

/-- The package of a descriptor, as host memory holds it. -/
def hostPackage (s : State) (d : Desc) : Bytes := hostRead s (d.f 8 8) (d.f 16 4)

/-- The parts held once a part is staged: an image begins the list anew, a patch joins it. -/
def stagedParts (s : State) (d : Desc) : List Nat := if d.f 24 4 = 0 then [0] else unionIdx s.fw.parts [d.f 24 4]

/-- A result given, and left as the last status of OSE_FW_STATE. -/
def stageEnds (q : Fin 16) (d : Desc) (r : Result) (s : State) : State := complete q d r { s with fw.lastStatus := r.status }

section
variable {e : Env} {s₀ s : State} {q : Fin 16} {j : Nat} {d : Desc} (hs : applyEnv e s₀ = s) (hd : descAt s q j Op.fwStage d = true)
include hs hd

theorem exec_fwStageDesc_misfit (hfits : ¬ StageFieldsFit d) :
    exec (.fwStageDesc e q j) s₀ = .next (charge (traffic s) (stageEnds q d (refusedWith 0xE3) s)) := by
  rw [stageFieldsFit_iff_not_refused, not_not] at hfits
  subst hs
  exact next_of_descAt hd rfl (if_pos hfits)

section
variable (hfits : StageFieldsFit d)
include hfits

theorem exec_fwStageDesc_activation (hact : s.fw.activation.isSome = true) :
    exec (.fwStageDesc e q j) s₀ = .next (charge (traffic s) (stageEnds q d (refusedWith 0xE4) s)) := by
  rw [stageFieldsFit_iff_not_refused] at hfits
  subst hs
  exact next_of_descAt hd rfl ((if_neg hfits).trans (if_pos hact))

section
variable (hact : s.fw.activation = none)
include hact

/-- With no activation pending, what an FW_STAGE comes to is a matter of its package. -/
theorem exec_fwStageDesc_fits : exec (.fwStageDesc e q j) s₀ = .next (charge (traffic s)
    (if (!packOk (hostPackage s d) || field 6 1 (hostPackage s d) ≠ d.f 20 1 || field 7 1 (hostPackage s d) ≠ d.f 24 4 ||
        (d.f 20 1 = 0 && !segmentsOk (hostPackage s d))) then stageEnds q d (refusedWith 0xE3) s
      else if bindFault s (hostPackage s d) ≠ 0 then
        stageEnds q d { status := Code.imageBinding, detail := bindFault s (hostPackage s d) } s
      else stageEnds q d { detail := (stagedParts s d).length, word := d.f 16 4 }
        (flashWrite (partAddr 3 (d.f 24 4)) (hostPackage s d) { s with fw.parts := stagedParts s d }))) := by
  rw [stageFieldsFit_iff_not_refused] at hfits
  subst hs
  exact next_of_descAt hd rfl ((if_neg hfits).trans (if_neg (by rw [hact]; decide)))

theorem exec_fwStageDesc_badPackage (hbad : ¬ PackageFits d (hostPackage s d)) :
    exec (.fwStageDesc e q j) s₀ = .next (charge (traffic s) (stageEnds q d (refusedWith 0xE3) s)) := by
  rw [packageFits_iff_not_refused, Bool.not_eq_false] at hbad
  rw [exec_fwStageDesc_fits hs hd hfits hact, if_pos hbad]

theorem exec_fwStageDesc_foreign (hgood : PackageFits d (hostPackage s d)) (hbind : bindFault s (hostPackage s d) ≠ 0) :
    exec (.fwStageDesc e q j) s₀ = .next (charge (traffic s)
      (stageEnds q d { status := Code.imageBinding, detail := bindFault s (hostPackage s d) } s)) := by
  rw [packageFits_iff_not_refused] at hgood
  rw [exec_fwStageDesc_fits hs hd hfits hact, if_neg (Bool.not_eq_true _ ▸ hgood), if_pos hbind]

theorem exec_fwStageDesc_staged (hgood : PackageFits d (hostPackage s d)) (hbind : bindFault s (hostPackage s d) = 0) :
    exec (.fwStageDesc e q j) s₀ = .next (charge (traffic s) (stageEnds q d { detail := (stagedParts s d).length, word := d.f 16 4 }
      (flashWrite (partAddr 3 (d.f 24 4)) (hostPackage s d) { s with fw.parts := stagedParts s d }))) := by
  rw [packageFits_iff_not_refused] at hgood
  rw [exec_fwStageDesc_fits hs hd hfits hact, if_neg (Bool.not_eq_true _ ▸ hgood), if_neg (not_not.2 hbind)]

end

end

end

/-- Settles O25: the checks in their order, and a write of flash read back. -/
theorem packageStaged : Obligations.PackageStaged := by
  unfold Obligations.PackageStaged
  refine ⟨fun e s₀ s q j d hs hd => ⟨?_, ?_, ?_, ?_, ?_⟩, fun s a b hwf => readBytes_writeBytes hwf a b⟩
  · exact fun hfits hact hgood hbind => exec_fwStageDesc_staged hs hd hfits hact hgood hbind
  · exact fun hfits hact hgood hbind => exec_fwStageDesc_foreign hs hd hfits hact hgood hbind
  · exact fun hfits hact hbad => exec_fwStageDesc_badPackage hs hd hfits hact hbad
  · exact fun hfits hact => exec_fwStageDesc_activation hs hd hfits hact
  · exact fun hfits => exec_fwStageDesc_misfit hs hd hfits

end Sys2Proof.Machine
end
section
/-! PROOF. Events, heartbeats and the repeated DRY event (R404, R436, R451, R452). -/

namespace Sys2Proof.Machine

open Sys2Proof

/-- When the events of the last second went. -/
def recentEvents (s : State) : List Nat := s.culvert.sentAt.filter fun t => decide (s.ht < t + 1000000000)

section
variable {s : State} {ev : Event} {rest : List Event} (hq : s.culvert.queue = ev :: rest)
include hq

/-- The oldest event, where the rate allows it, goes with the next sequence number and the number lost. -/
theorem sendEvent_goes (hrate : (recentEvents s).length < 20000) : sendEvent s = count Reg.culTx 1 { s with culvert := { s.culvert with
    queue := rest, lost := 0, evSeq := (s.culvert.evSeq + 1) % 65536, sentAt := s.ht :: recentEvents s, txLast := 0x80,
    sent := s.culvert.sent ++ [.event ((s.culvert.evSeq + 1) % 65536) (min s.culvert.lost 65535) ev] } } := by
  unfold sendEvent
  simp only [hq]
  exact (if_neg (Nat.not_le.2 hrate)).trans rfl

theorem sendEvent_waits (hrate : 20000 ≤ (recentEvents s).length) : sendEvent s = s := by
  unfold sendEvent
  simp only [hq]
  exact if_pos hrate

end

section
variable {e : Env} {s₀ s : State} (hs : applyEnv e s₀ = s)
include hs

theorem exec_event_sends (hsends : culvertSends s = true) : exec (.event e) s₀ = .next (sendEvent s) := by
  change execEvent e s₀ = _
  simp only [execEvent, hs, hsends, if_true]

theorem exec_heartbeat_due (hsends : culvertSends s = true) (hon : s.culvert.heartbeats = true)
    (hdue : (s.culvert.hbAt.all fun t => decide (t + 1000000 ≤ s.ht)) = true) :
    exec (.heartbeat e) s₀ = .next (count Reg.culTx 1 { s with culvert := { s.culvert with
      hbSeq := u32 (s.culvert.hbSeq + 1), hbAt := some s.ht, txLast := 0x81,
      sent := s.culvert.sent ++ [.heartbeat (u32 (s.culvert.hbSeq + 1)) s.ht (statusWord s) s.scratch.count (stepNum s) (committedWord s)
        s.culvert.evSeq s.job.epoch s.fw.runVersion (tagOf s)] } }) := by
  change execHeartbeat e s₀ = _
  simp only [execHeartbeat, hs, hsends, hon, hdue, Bool.and_self, if_true]
  rfl

theorem exec_dryEventRepeat_due (hdry : s.dry = true) (hp : s.power.state < 2) (hdue : s.dryEventAt + 10000000000 ≤ s.ht) :
    exec (.dryEventRepeat e) s₀ =
      .next (event 0x03 Code.dryMode 0 (le 1 s.scratch.count ++ le 1 s.scratch.cause) { s with dryEventAt := s.ht }) := by
  change execDryEventRepeat e s₀ = _
  simp only [execDryEventRepeat, hs, hdry, hp, hdue, decide_true, Bool.and_self, if_true]

end

/-- Settles O32: the oldest event by the rate, the heartbeat and the DRY event when they are due. -/
theorem framesSent : Obligations.FramesSent := by
  unfold Obligations.FramesSent
  refine ⟨fun e s₀ s ev rest hs hsends hq => ?_, fun e s₀ s hs hsends hon hdue => exec_heartbeat_due hs hsends hon hdue,
    fun e s₀ s hs hdry hp hdue => exec_dryEventRepeat_due hs hdry hp hdue⟩
  rw [exec_event_sends hs hsends]
  exact ⟨fun hrate => congrArg _ (sendEvent_goes hq hrate), fun hrate => congrArg _ (sendEvent_waits hq hrate)⟩

end Sys2Proof.Machine
end
section
/-! PROOF. Power requests and the ends of power transitions (R405 to R410, R413). -/

namespace Sys2Proof.Machine

open Sys2Proof

/-! ### The request register acted on (R406, R407) -/

/-- The state that OSE_PWR_CTRL asks for. -/
def askedState (s : State) : Nat := regNat s Reg.pwrCtrl % 4

theorem actOnRequest_waits {s : State}
    (h : s.power.moving ≠ none ∨ askedState s = s.power.state ∨ (s.power.state = 0 ∧ runningTurns s ≠ [])) : actOnRequest s = s := by
  have hwait : (s.power.moving.isSome || decide (askedState s = s.power.state) || (s.power.state = 0 && !(runningTurns s).isEmpty)) = true := by
    rcases h with h | h | ⟨h, h'⟩
    · simp [Option.isSome_iff_ne_none.2 h]
    · simp [h]
    · simp [h, h']
  exact if_pos hwait

section
variable {s : State} (hstill : s.power.moving = none) (hother : askedState s ≠ s.power.state)
  (hquiet : s.power.state = 0 → runningTurns s = [])
include hstill hother hquiet

/-- A request that nothing holds up is judged. -/
theorem actOnRequest_judged : actOnRequest s = if mayMove s.power.state (askedState s) s then { s with power.moving := some (askedState s) }
    else regPut Reg.pwrCtrl s.power.state { s with power.refused := true } := by
  have hgo : (s.power.moving.isSome || decide (askedState s = s.power.state) || (s.power.state = 0 && !(runningTurns s).isEmpty)) = false := by
    rw [hstill, decide_eq_false hother]
    by_cases hactive : s.power.state = 0
    · simp [hquiet hactive]
    · simp [hactive]
  exact if_neg (ne_true_of_eq_false hgo)

theorem actOnRequest_begins (hmay : mayMove s.power.state (askedState s) s = true) :
    actOnRequest s = { s with power.moving := some (askedState s) } := by
  rw [actOnRequest_judged hstill hother hquiet, if_pos hmay]

theorem actOnRequest_refused (hmay : mayMove s.power.state (askedState s) s = false) :
    actOnRequest s = regPut Reg.pwrCtrl s.power.state { s with power.refused := true } := by
  rw [actOnRequest_judged hstill hother hquiet, if_neg (by rw [hmay]; decide)]

end

/-- The request register as a write leaves it. -/
def requested (v : Word) (s : State) : State := regPut Reg.pwrCtrl (v.toNat % 4) { s with power.refused := false }

theorem askedState_requested (v : Word) (s : State) : askedState (requested v s) = v.toNat % 4 := by
  rw [askedState, requested, regNat_regPut_same]
  omega

section
variable {e : Env} {s₀ s : State} (hs : applyEnv e s₀ = s)
include hs

theorem exec_powerRequest_accepted {v : Word} (h : s.power.state ≠ 3 ∨ v.toNat % 4 = 0) :
    exec (.powerRequest e v) s₀ = .next (actOnRequest (requested v s)) := by
  change execPowerRequest e v s₀ = _
  simp only [execPowerRequest, hs]
  rw [if_neg (by omega)]
  rfl

theorem exec_powerRequest_off {v : Word} (h3 : s.power.state = 3) (hv : v.toNat % 4 ≠ 0) : exec (.powerRequest e v) s₀ = .next s := by
  change execPowerRequest e v s₀ = _
  simp only [execPowerRequest, hs]
  rw [if_pos ⟨h3, hv⟩]

/-! ### Ends of transitions (R407, R408, R410, R413) -/

theorem exec_powerTransitionDone_none (st : StartIn) (h : s.power.moving = none) :
    exec (.powerTransitionDone e st) s₀ = .next (actOnRequest s) := by
  change execPowerTransitionDone e st s₀ = _
  simp only [execPowerTransitionDone, hs, h]

theorem exec_powerTransitionDone_idle (st : StartIn) (h : s.power.moving = some 1) :
    exec (.powerTransitionDone e st) s₀ = .next (actOnRequest { s with power.state := 1, power.moving := none }) := by
  change execPowerTransitionDone e st s₀ = _
  simp only [execPowerTransitionDone, hs, h]
  rfl

/-- An entry into E2 or E3 is done after the events that waited have gone. -/
theorem exec_powerTransitionDone_deep (st : StartIn) {goal : Nat} (h : s.power.moving = some goal) (hgoal : 2 ≤ goal)
    (hmay : mayMove s.power.state goal s = true) : exec (.powerTransitionDone e st) s₀ = .next (actOnRequest
      { flushEvents (powerEvent goal 0 s).culvert.queue.length (powerEvent goal 0 s) with
        power.state := goal, power.moving := none, power.replicas := [] }) := by
  change execPowerTransitionDone e st s₀ = _
  simp only [execPowerTransitionDone, hs, h]
  rw [if_neg (by omega), if_neg (by omega), if_neg (by rw [hmay]; decide)]

section
variable (st : StartIn) (h : s.power.moving = some 0)
include h

theorem exec_powerTransitionDone_active (h3 : s.power.state ≠ 3) :
    exec (.powerTransitionDone e st) s₀ = .next (actOnRequest (handleHeld st (reachActive s))) := by
  change execPowerTransitionDone e st s₀ = _
  simp only [execPowerTransitionDone, hs, h, if_true]
  rw [if_neg h3]

/-- An exit from E3 is a start; POWER is reported where the start has ended. -/
theorem exec_powerTransitionDone_start (h3 : s.power.state = 3) : exec (.powerTransitionDone e st) s₀ =
    .next (actOnRequest (if (runStart st (survivors 5 s)).ready || (runStart st (survivors 5 s)).dry then
      powerEvent 3 1 (runStart st (survivors 5 s)) else runStart st (survivors 5 s))) := by
  change execPowerTransitionDone e st s₀ = _
  simp only [execPowerTransitionDone, hs, h, if_true]
  rw [if_pos h3]

end

end

theorem reachActive_idle {s : State} (h : s.power.state = 1) : reachActive s = { s with power.state := 0, power.moving := none } :=
  if_neg (by omega)

theorem reachActive_retained {s : State} (h : s.power.state = 2) :
    reachActive s = powerEvent 2 1 { s with power.state := 0, power.moving := none, power.replicas := [] } := if_pos h

/-! ### An entry whose conditions fail (R407, R408) -/

section
variable {s : State} {goal : Nat} (h : s.power.moving = some goal)
include h

theorem checkEntry_allowed (hmay : mayMove s.power.state goal s = true) : checkEntry s = s := by
  simp only [checkEntry, h, hmay, Bool.not_true, Bool.and_false, Bool.false_eq_true, if_false]

theorem checkEntry_abandoned (hgoal : 2 ≤ goal) (hmay : mayMove s.power.state goal s = false) : checkEntry s = abandonMove s := by
  simp only [checkEntry, h, hmay, Bool.not_false, hgoal, decide_true, Bool.and_self, if_true]

theorem abandonMove_entry (hgoal : 2 ≤ goal) : abandonMove s = regPut Reg.pwrCtrl 0
    { s with power.moving := if s.power.state = 0 then none else some 0, power.refused := true } := by
  have hne : goal ≠ 0 := by omega
  simp only [abandonMove, h, hne, if_false]

end

/-- Settles O59: the request register by what holds a request up, the end of a transition by its goal and the state left. -/
theorem powerRequestsAndTransitions : Obligations.PowerRequestsAndTransitions := by
  unfold Obligations.PowerRequestsAndTransitions
  refine ⟨?_, ?_, fun e s₀ s st hs hnone => exec_powerTransitionDone_none hs st hnone, ?_⟩
  · intro e s₀ s v hs
    have hasked := askedState_requested v s
    refine ⟨fun hon hstill hother hquiet => ?_, fun hon hwait => ?_, exec_powerRequest_off hs⟩
    · rw [exec_powerRequest_accepted hs hon]
      have hother' : askedState (requested v s) ≠ (requested v s).power.state := by rw [hasked]; exact hother
      refine ⟨fun hmay => ?_, fun hmay => ?_⟩
      · rw [actOnRequest_begins (s := requested v s) hstill hother' hquiet (by rw [hasked]; exact hmay), hasked]
        rfl
      · rw [actOnRequest_refused (s := requested v s) hstill hother' hquiet (by rw [hasked]; exact hmay)]
        rfl
    · rw [exec_powerRequest_accepted hs (.inl hon), actOnRequest_waits (s := requested v s) (by rw [hasked]; exact hwait)]
      rfl
  · intro e s₀ s st goal hs hmoving
    refine ⟨?_, exec_powerTransitionDone_deep hs st hmoving, ?_, ?_, ?_⟩
    · rintro rfl
      exact exec_powerTransitionDone_idle hs st hmoving
    · rintro rfl h1
      rw [exec_powerTransitionDone_active hs st hmoving (by omega), reachActive_idle h1]
    · rintro rfl h2
      rw [exec_powerTransitionDone_active hs st hmoving (by omega), reachActive_retained h2]
    · rintro rfl h3
      have hexec := exec_powerTransitionDone_start hs st hmoving h3
      refine ⟨fun hup => hexec.trans (congrArg _ (congrArg _ (if_pos (by simpa using hup)))), fun hready hdry => ?_⟩
      exact hexec.trans (congrArg _ (congrArg _ (if_neg (by rw [hready, hdry]; decide))))
  · intro s goal hmoving hgoal
    refine ⟨checkEntry_allowed hmoving, fun hmay => ?_⟩
    have habandon := checkEntry_abandoned hmoving hgoal hmay
    rw [habandon, abandonMove_entry hmoving hgoal]
    exact ⟨rfl, rfl, rfl, regNat_regPut_same ..⟩

end Sys2Proof.Machine
end
section
/-! PROOF. Traps, watchdogs and restarts of the controllers (R399, R404, R408, R418, R423). -/

namespace Sys2Proof.Machine

open Sys2Proof

/-! ### Controllers -/

theorem ctlOf_setCtl_same (c : Fin 4) (r : Controller) (s : State) : ctlOf (setCtl c r s) c = r := by
  simp [ctlOf, setCtl]

theorem ctlOf_setCtl_other {c c' : Fin 4} (h : c' ≠ c) (r : Controller) (s : State) : ctlOf (setCtl c r s) c' = ctlOf s c' := by
  have : c.val ≠ c'.val := fun e => h (Fin.ext e.symm)
  simp [ctlOf, setCtl, this]

/-! ### Controllers that begin to restart (R404, R418) -/

/-- One controller that begins to restart. -/
def restartOne (s : State) (c : Fin 4) : State :=
  if s.restarting.contains c then s
  else
    let s := count (ctlReg c Reg.ctlRestarts) 1 (setCtl c { ctlOf s c with state := 1 } s)
    { s with restarting := s.restarting ++ [c] }

theorem beginRestart_eq (cs : List (Fin 4)) (s : State) :
    beginRestart cs s = cs.foldl restartOne (lapseActivation (abandonMove s)) := rfl

/-- Some controllers have begun to restart: each is loading and was counted, and they wait for the restart's end. -/
structure Restarting (cs : List (Fin 4)) (s t : State) : Prop where
  frame : { t with ctl := s.ctl, regs := s.regs, restarting := s.restarting } = s
  ctl : ∀ c, ctlOf t c = if c ∈ cs then { ctlOf s c with state := 1 } else ctlOf s c
  regs : ∀ o, (∀ c, o ≠ ctlReg c Reg.ctlRestarts) → regGet t o = regGet s o
  restarting : t.restarting = s.restarting ++ cs

section
variable {cs : List (Fin 4)} {s t : State} (h : Restarting cs s t)
include h

theorem Restarting.power : t.power = s.power := (congrArg State.power h.frame :)
theorem Restarting.step : t.step = s.step := (congrArg State.step h.frame :)
theorem Restarting.hbm : t.hbm = s.hbm := (congrArg State.hbm h.frame :)
theorem Restarting.sent : t.sent = s.sent := (congrArg State.sent h.frame :)

end

theorem restartOne_new {c : Fin 4} {s : State} (h : c ∉ s.restarting) : Restarting [c] s (restartOne s c) := by
  have hnew : ¬ s.restarting.contains c = true := by simpa using h
  rw [restartOne, if_neg hnew]
  refine ⟨rfl, fun c' => ?_, fun o ho => ?_, rfl⟩
  · by_cases hc : c' = c
    · subst hc
      rw [if_pos (List.mem_singleton_self _)]
      exact ctlOf_setCtl_same ..
    · rw [if_neg (by simpa using hc)]
      exact ctlOf_setCtl_other hc ..
  · exact regGet_regSet_other (ho c) _ _

theorem Restarting.cons {c : Fin 4} {cs : List (Fin 4)} {s t u : State} (h : Restarting [c] s t) (h' : Restarting cs t u) (hc : c ∉ cs) :
    Restarting (c :: cs) s u := by
  refine ⟨?_, fun c' => ?_, fun o ho => (h'.regs o ho).trans (h.regs o ho), ?_⟩
  · calc { u with ctl := s.ctl, regs := s.regs, restarting := s.restarting }
        = { ({ u with ctl := t.ctl, regs := t.regs, restarting := t.restarting } : State) with
            ctl := s.ctl, regs := s.regs, restarting := s.restarting } := rfl
      _ = s := by rw [h'.frame, h.frame]
  · rw [h'.ctl, h.ctl]
    by_cases hcc : c' = c
    · subst hcc
      simp [hc]
    · simp [hcc]
  · rw [h'.restarting, h.restarting, List.append_assoc, List.singleton_append]

theorem restarting_foldl : ∀ {cs : List (Fin 4)} {s : State}, (s.restarting ++ cs).Nodup → Restarting cs s (cs.foldl restartOne s)
  | [], s, _ => ⟨rfl, fun _ => rfl, fun _ _ => rfl, (List.append_nil _).symm⟩
  | c :: cs, s, hnodup => by
    have hfirst := restartOne_new (s := s) (c := c) fun h => (List.nodup_append.1 hnodup).2.2 c h c (List.mem_cons_self ..) rfl
    have hrest : ((restartOne s c).restarting ++ cs).Nodup := by
      rw [hfirst.restarting, List.append_assoc, List.singleton_append]
      exact hnodup
    exact hfirst.cons (restarting_foldl hrest) (List.nodup_cons.1 (List.nodup_append.1 hnodup).2.1).1

/-! ### A trap (R404, R418) -/

theorem abandonMove_still {s : State} (h : s.power.moving = none) : abandonMove s = s := by
  simp only [abandonMove, h]

theorem lapseActivation_none {s : State} (h : s.fw.activation = none) : lapseActivation s = s := by
  simp only [lapseActivation, h]

/-- A trap counted, its address and cause recorded, and flagged. -/
def trapNoted (c : Fin 4) (cause addr : Nat) (s : State) : State :=
  let s := flagEvent 8 (regPut (ctlReg c Reg.ctlTrapAt) addr (count (ctlReg c Reg.ctlTraps) 1 s))
  setCtl c { ctlOf s c with state := 3, cause := cause } s

/-- The controllers that a trap of one restarts. -/
def restartedBy (c : Fin 4) : List (Fin 4) := if c = 0 then allControllers else [c]

theorem trapController_eq {s : State} (hact : s.fw.activation = none) (hstill : s.power.moving = none) (c : Fin 4) (cause addr : Nat) :
    trapController c cause addr s =
      { (restartedBy c).foldl restartOne (trapNoted c cause addr s) with restartCause := cause } := by
  have hcalm : lapseActivation (abandonMove (trapNoted c cause addr s)) = trapNoted c cause addr s := by
    rw [abandonMove_still (by exact hstill), lapseActivation_none (by exact hact)]
  conv => rhs; rw [← hcalm]
  rfl

/-- The registers of a trap lie apart from each other, from every count of restarts and from OSE_EVENTS. -/
theorem trapRegs_apart : ∀ c : Fin 4, ctlReg c Reg.ctlTraps ≠ ctlReg c Reg.ctlTrapAt ∧ ctlReg c Reg.ctlTraps ≠ Reg.events ∧
    ctlReg c Reg.ctlTrapAt ≠ Reg.events ∧ ∀ c' : Fin 4, ctlReg c Reg.ctlTraps ≠ ctlReg c' Reg.ctlRestarts ∧
      ctlReg c Reg.ctlTrapAt ≠ ctlReg c' Reg.ctlRestarts ∧ Reg.events ≠ ctlReg c' Reg.ctlRestarts := by decide

theorem regNat_setCtl (c : Fin 4) (r : Controller) (s : State) (o : Nat) : regNat (setCtl c r s) o = regNat s o := rfl

theorem trapNoted_regs (c : Fin 4) (cause : Nat) {addr : Nat} (haddr : addr < 2 ^ 32) (s : State) :
    regNat (trapNoted c cause addr s) (ctlReg c Reg.ctlTraps) = min (regNat s (ctlReg c Reg.ctlTraps) + 1) 0xFFFFFFFF ∧
    regNat (trapNoted c cause addr s) (ctlReg c Reg.ctlTrapAt) = addr ∧
    (regNat (trapNoted c cause addr s) Reg.events).testBit 8 = true := by
  obtain ⟨hat, htraps, hatEvents, -⟩ := trapRegs_apart c
  have hnoted : ∀ o, regNat (trapNoted c cause addr s) o =
      regNat (flagEvent 8 (regPut (ctlReg c Reg.ctlTrapAt) addr (count (ctlReg c Reg.ctlTraps) 1 s))) o := fun o => regNat_setCtl c _ _ o
  rw [hnoted, hnoted, hnoted]
  refine ⟨?_, ?_, testBit_flagEvent (by decide) _⟩
  · rw [flagEvent, regOr, regNat_regPut_other htraps, regNat_regPut_other hat, regNat_count_one]
  · rw [flagEvent, regOr, regNat_regPut_other hatEvents, regNat_regPut_same, Nat.mod_eq_of_lt haddr]

theorem mem_restartedBy (c : Fin 4) : c ∈ restartedBy c := by
  unfold restartedBy
  split
  · next h => rw [h]; decide
  · exact List.mem_singleton_self c

theorem nodup_restartedBy : ∀ c, (restartedBy c).Nodup := by decide

/-- What a trap leaves, where no other command is cut short by it. -/
theorem trapController_leaves {s : State} (hact : s.fw.activation = none) (hstill : s.power.moving = none) (hnone : s.restarting = [])
    (c : Fin 4) (cause : Nat) {addr : Nat} (haddr : addr < 2 ^ 32) :
    let t := trapController c cause addr s
    regNat t (ctlReg c Reg.ctlTraps) = min (regNat s (ctlReg c Reg.ctlTraps) + 1) 0xFFFFFFFF ∧ regNat t (ctlReg c Reg.ctlTrapAt) = addr ∧
      (ctlOf t c).cause = cause ∧ (ctlOf t c).state = 1 ∧ (regNat t Reg.events).testBit 8 = true ∧ t.restartCause = cause ∧
      t.restarting = restartedBy c ∧ t.hbm = s.hbm ∧ t.sent = s.sent := by
  intro t
  have ht : t = { (restartedBy c).foldl restartOne (trapNoted c cause addr s) with restartCause := cause } :=
    trapController_eq hact hstill c cause addr
  clear_value t
  have hnodup : ((trapNoted c cause addr s).restarting ++ restartedBy c).Nodup := by
    rw [show (trapNoted c cause addr s).restarting = [] from hnone]
    exact nodup_restartedBy c
  have hrestart := restarting_foldl hnodup
  obtain ⟨htraps, hat, hevents⟩ := trapNoted_regs c cause haddr s
  have hapart := (trapRegs_apart c).2.2.2
  generalize (restartedBy c).foldl restartOne _ = u at hrestart ht
  have hctl : ctlOf t c = { ctlOf (trapNoted c cause addr s) c with state := 1 } := by
    rw [ht]
    exact (hrestart.ctl c).trans (if_pos (mem_restartedBy c))
  have hregs : ∀ o, (∀ c', o ≠ ctlReg c' Reg.ctlRestarts) → regNat t o = regNat (trapNoted c cause addr s) o := fun o ho => by
    rw [ht]
    exact congrArg BitVec.toNat (hrestart.regs o ho)
  refine ⟨?_, ?_, ?_, ?_, ?_, by rw [ht], ?_, ?_, ?_⟩
  · rw [hregs _ fun c' => (hapart c').1, htraps]
  · rw [hregs _ fun c' => (hapart c').2.1, hat]
  · rw [hctl, trapNoted, ctlOf_setCtl_same]
  · rw [hctl]
  · rw [hregs _ fun c' => (hapart c').2.2, hevents]
  · rw [ht]
    exact hrestart.restarting.trans (by rw [show (trapNoted c cause addr s).restarting = [] from hnone, List.nil_append])
  · rw [ht]
    exact hrestart.hbm
  · rw [ht]
    exact hrestart.sent

section
variable {e : Env} {s₀ s : State} (hs : applyEnv e s₀ = s) (hf : flumeRuns s = true)
include hs hf

theorem exec_controllerTrap_up (c : Fin 4) (cause addr : Nat) :
    exec (.controllerTrap e c cause addr) s₀ = .next (trapController c cause addr s) := by
  change execControllerTrap e c cause addr s₀ = _
  simp only [execControllerTrap, hs, hf, if_true]

theorem exec_watchdogExpiry_up (c : Fin 4) (addr : Nat) : exec (.watchdogExpiry e c addr) s₀ = .next (trapController c 4 addr s) := by
  change execWatchdogExpiry e c addr s₀ = _
  simp only [execWatchdogExpiry, hs, hf, if_true]

end

/-! ### A restart by the host (R399, R408) -/

/-- The engine brought to E0 for a restart. -/
def activated (s : State) : State :=
  if s.power.state = 0 then s
  else regPut Reg.pwrCtrl 0 (reachActive { s with power.refused := s.power.refused || s.power.moving.any (· ≠ 0) })

theorem reachActive_eq (s : State) : ∃ w c, reachActive s = { s with power := w, culvert := c } ∧ w.state = 0 := by
  unfold reachActive
  dsimp only
  split
  · obtain ⟨c, hc⟩ := event_culvert 0x10 0 0 (le 1 2 ++ le 1 1) { s with power.state := 0, power.moving := none, power.replicas := [] }
    exact ⟨_, c, hc, rfl⟩
  · exact ⟨_, _, rfl, rfl⟩

theorem activated_eq (s : State) : ∃ w c rs, activated s = { s with power := w, culvert := c, regs := rs } ∧ w.state = 0 := by
  unfold activated
  split
  · next h => exact ⟨_, _, _, rfl, h⟩
  · obtain ⟨w, c, h, hw⟩ := reachActive_eq { s with power.refused := s.power.refused || s.power.moving.any (· ≠ 0) }
    rw [h]
    exact ⟨w, c, _, rfl, hw⟩

theorem lapseActivation_eq (s : State) : ∃ f c, lapseActivation s = { s with fw := f, culvert := c } := by
  unfold lapseActivation
  split
  · obtain ⟨c, hc⟩ := event_culvert 0x13 Code.refusedTurn 0 _ _
    exact ⟨_, c, hc⟩
  · exact ⟨_, _, rfl⟩

/-- Before the controllers begin to restart the engine is in E0, and its step, its HBM and the list of those that restart are as they were. -/
theorem preparedRestart (s : State) : ∃ w f c rs, lapseActivation (abandonMove (activated s)) =
    { s with power := w, fw := f, culvert := c, regs := rs } ∧ w.state = 0 := by
  obtain ⟨w, c, rs, hactive, hstate⟩ := activated_eq s
  obtain ⟨w', rs', habandon, hstate'⟩ := abandonMove_power { s with power := w, culvert := c, regs := rs }
  obtain ⟨f, c', hlapse⟩ := lapseActivation_eq { s with power := w', culvert := c, regs := rs' }
  refine ⟨w', f, c', rs', ?_, hstate'.trans hstate⟩
  rw [hactive, habandon]
  exact hlapse

section
variable {e : Env} {s₀ s : State} (hs : applyEnv e s₀ = s)
include hs

theorem exec_controllerRestart_ignored (h : s.dry = true ∨ s.ready = false ∨ s.power.state = 3) : exec (.controllerRestart e) s₀ = .next s := by
  change execControllerRestart e s₀ = _
  simp only [execControllerRestart, hs]
  rw [if_pos (by rcases h with h | h | h <;> simp [h])]

theorem exec_controllerRestart_up (hp : s.power.state < 3) (hdry : s.dry = false) (hready : s.ready = true) :
    exec (.controllerRestart e) s₀ = .next { beginRestart allControllers (activated s) with restartCause := 0 } := by
  change execControllerRestart e s₀ = _
  simp only [execControllerRestart, hs]
  rw [if_neg (by simp [hdry, hready, Nat.ne_of_lt hp])]
  rfl

/-! ### The end of a restart (R418) -/

theorem exec_controllerRestartDone_none (h : s.restarting = []) : exec (.controllerRestartDone e) s₀ = .next s := by
  change execControllerRestartDone e s₀ = _
  simp only [execControllerRestartDone, hs, h, List.isEmpty_nil, if_true]

end

/-- The images of the controllers that restarted run again. -/
def imagesRun (s : State) : State :=
  s.restarting.foldl (fun s c => setCtl c { ctlOf s c with state := 2, image := BitVec.ofNat 32 s.fw.runVersion } s) s

theorem foldl_setCtl (f : State → Fin 4 → Controller) : ∀ (l : List (Fin 4)) (s : State),
    ∃ x, l.foldl (fun s c => setCtl c (f s c) s) s = { s with ctl := x }
  | [], s => ⟨s.ctl, rfl⟩
  | c :: l, s => by
    obtain ⟨x, hx⟩ := foldl_setCtl f l (setCtl c (f s c) s)
    exact ⟨x, hx⟩

theorem exec_controllerRestartDone_ends {e : Env} {s₀ s : State} (hs : applyEnv e s₀ = s) (h : s.restarting ≠ []) :
    exec (.controllerRestartDone e) s₀ = .next (poke (handleHeld noStart (finishRegions
      (event 0x11 0 0 (le 1 (sumOf (s.restarting.map fun c => 2 ^ c.val)) ++ le 1 s.restartCause)
        { imagesRun s with restarting := [], sent := s.sent ++ s.delayed, delayed := [] })))) := by
  obtain ⟨x, hx⟩ : ∃ x, imagesRun s = { s with ctl := x } := foldl_setCtl _ s.restarting s
  have hbusy : ¬ s.restarting.isEmpty = true := by simpa using h
  change execControllerRestartDone e s₀ = _
  simp only [execControllerRestartDone, hs]
  rw [if_neg hbusy]
  change Host.Outcome.next (poke (handleHeld noStart (finishRegions
    (event 0x11 0 0 (le 1 (sumOf (s.restarting.map fun c => 2 ^ c.val)) ++ le 1 (imagesRun s).restartCause)
      { imagesRun s with restarting := [], sent := (imagesRun s).sent ++ (imagesRun s).delayed, delayed := [] })))) = _
  rw [hx]

/-- Settles O58: a trap by what it notes and restarts, a restart by the host from the engine brought to E0, its end step by step. -/
theorem controllersTrapAndRestart : Obligations.ControllersTrapAndRestart := by
  unfold Obligations.ControllersTrapAndRestart
  refine ⟨fun e s₀ s c cause addr hs hf hact hstill hnone haddr => ⟨?_, ?_⟩, fun e s₀ s hs => ⟨fun hp hdry hready hnone => ?_, ?_⟩,
    fun e s₀ s hs => ⟨exec_controllerRestartDone_none hs, exec_controllerRestartDone_ends hs⟩⟩
  · exact ⟨_, exec_controllerTrap_up hs hf c cause addr, trapController_leaves hact hstill hnone c cause haddr⟩
  · exact ⟨_, exec_watchdogExpiry_up hs hf c addr, trapController_leaves hact hstill hnone c 4 haddr⟩
  · refine ⟨_, exec_controllerRestart_up hs hp hdry hready, ?_⟩
    obtain ⟨w, f, k, rs, hprep, hstate⟩ := preparedRestart s
    have hrestart := restarting_foldl (cs := allControllers) (s := { s with power := w, fw := f, culvert := k, regs := rs })
      (by rw [show _ = [] from hnone]; decide)
    rw [beginRestart_eq, hprep]
    generalize allControllers.foldl restartOne _ = u at hrestart ⊢
    refine ⟨hrestart.restarting.trans (by rw [hnone]; rfl), fun c => ?_, rfl, ?_, ?_, ?_⟩
    · have hc : c ∈ allControllers := by revert c; decide
      exact congrArg Controller.state ((hrestart.ctl c).trans (if_pos hc))
    · exact (congrArg Power.state hrestart.power).trans hstate
    · exact hrestart.step
    · exact hrestart.hbm
  · exact exec_controllerRestart_ignored hs

end Sys2Proof.Machine
end
section
/-! PROOF. The culvert's messages about firmware (R437, R440, R442, R443, R446). -/

namespace Sys2Proof.Machine

open Sys2Proof

/-! ### FIRMWARE_STAGE (R440) -/

/-- Writing a list of parts changes the flash alone. -/
theorem foldl_flashWrite_eq (f : Nat × Bytes → Nat) : ∀ (xs : List (Nat × Bytes)) (s : State),
    ∃ fl bad, xs.foldl (fun s x => flashWrite (f x) x.2 s) s = { s with flash := fl, badUnits := bad }
  | [], s => ⟨s.flash, s.badUnits, rfl⟩
  | x :: xs, s => by
    obtain ⟨fl, bad, h⟩ := foldl_flashWrite_eq f xs (flashWrite (f x) x.2 s)
    exact ⟨fl, bad, h⟩

section
variable {s : State} {cause action parts version : Nat} {digest : Bytes}

theorem stageFirmware_staged {ps : List Bytes} (htrial : inTrial s = false) (hact : s.fw.activation = none)
    (hcheck : stageCheck s action parts version digest = (0, ps)) :
    stageFirmware cause action parts version digest s = fwEvent 0 action version 0 cause (writeJournal
      (setBank (standbyIndex s) { state := .staged, patches := ps.length - 1, version := version }
        ((indexed 0 ps).foldl (fun t x => flashWrite (partAddr (standbyIndex s) x.1) x.2 t) s))) := by
  have hfree : ¬ (inTrial s || s.fw.activation.isSome) = true := by simp [htrial, hact]
  rw [stageFirmware, if_neg hfree, hcheck]
  rfl

/-- A stage that is refused only reports it. -/
theorem stageFirmware_refused (h : inTrial s = true ∨ s.fw.activation.isSome = true ∨ (stageCheck s action parts version digest).1 ≠ 0) :
    ∃ status check, stageFirmware cause action parts version digest s = fwEvent status action version check cause s := by
  unfold stageFirmware
  dsimp only
  split
  · exact ⟨_, _, rfl⟩
  · next hfree =>
    split
    · next hcheck =>
      rcases h with htrial | hact | hbad
      · exact absurd (by simp [htrial]) hfree
      · exact absurd (by simp [hact]) hfree
      · exact absurd (by rw [hcheck]) hbad
    · exact ⟨_, _, rfl⟩

theorem stageFirmware_ready {ps : List Bytes} (i : Nat) (b : Bank) (status check : Nat) :
    (fwEvent status action version check cause (writeJournal (setBank i b
      ((indexed 0 ps).foldl (fun t x => flashWrite (partAddr i x.1) x.2 t) s)))).ready = s.ready := by
  obtain ⟨fl, bad, h⟩ := foldl_flashWrite_eq (fun x => partAddr i x.1) (indexed 0 ps) s
  rw [h]
  exact event_ready ..

end

/-! ### FIRMWARE_ACTIVATE (R443) -/

section
variable {e : Env} {s₀ s : State} {f : FrameHead} {version deadline : Nat} (hs : applyEnv e s₀ = s)
include hs

theorem exec_firmwareActivate_taken (hm : heard s f (.fwActivate version deadline) = true) (hact : s.fw.activation = none)
    (hto : activateFirmware f.seq version deadline (counted (.fwActivate version deadline) s) =
      { counted (.fwActivate version deadline) s with fw.activation := some (version, deadline) }) :
    exec (.firmwareActivate e f version deadline) s₀ = .next (noted f (.fwActivate version deadline)
      { counted (.fwActivate version deadline) s with fw.activation := some (version, deadline) }) := by
  refine frameRow_acted hs hm ?_ rfl
  have hnone : (counted (.fwActivate version deadline) s).fw.activation = none := hact
  simp only [actFrame, hto, hnone]
  rfl

theorem exec_firmwareActivate_ignored (hm : heard s f (.fwActivate version deadline) = true)
    (hto : activateFirmware f.seq version deadline (counted (.fwActivate version deadline) s) =
      ignored 0x0B 9 0 0 f.seq (counted (.fwActivate version deadline) s)) :
    exec (.firmwareActivate e f version deadline) s₀ = .next (ignored 0x0B 9 0 0 f.seq (counted (.fwActivate version deadline) s)) := by
  refine frameRow_ignored hs hm ?_
  have hsame : (ignored 0x0B 9 0 0 f.seq (counted (.fwActivate version deadline) s)).fw = (counted (.fwActivate version deadline) s).fw :=
    event_fw ..
  simp only [actFrame, hto, hsame, bne_self_eq_false]

end

theorem heard_dry {s : State} {f : FrameHead} {m : CulMsg} (hm : heard s f m = true) : s.dry = false := by
  simp only [heard, Bool.and_eq_true, Bool.not_eq_true'] at hm
  obtain ⟨⟨⟨⟨-, hdry⟩, -⟩, -⟩, -⟩ := hm.1
  exact hdry

/-- A heard activation is taken where the standby bank holds its version, ready to run, and nothing else is under way. -/
theorem activateFirmware_heard {s : State} {f : FrameHead} {m : CulMsg} (hm : heard s f m = true) (cause version deadline : Nat) :
    let c := counted m s
    let b := bankAt c (standbyIndex c)
    activateFirmware cause version deadline c =
      if (b.state = .staged ∨ b.state = .previous) ∧ b.version = version ∧ inTrial c = false ∧ s.fw.activation = none then
        { c with fw.activation := some (version, deadline) }
      else ignored 0x0B 9 0 0 cause c := by
  have hready : (counted m s).ready = true := (heard_ready hm :)
  have hdry : (counted m s).dry = false := (heard_dry hm :)
  have hfw : (counted m s).fw.activation = s.fw.activation := rfl
  simp only [activateFirmware, hready, hdry, hfw, Option.isNone_iff_eq_none, Bool.not_eq_true', Bool.not_false, and_true]

/-! ### FIRMWARE_CONFIRM (R446) -/

/-- The bank confirmed, where it is the first of two. -/
theorem confirmedBank_first {s : State} {a b : Bank} (hbanks : s.fw.banks = [a, b]) (ha : a.state = .confirmed) : confirmedBank s = 0 := by
  simp [confirmedBank, hbanks, ha, positionIn, b2n, List.findIdx_cons]

theorem standbyIndex_second {s : State} {a b : Bank} (hbanks : s.fw.banks = [a, b]) (ha : a.state = .confirmed) : standbyIndex s = 1 := by
  rw [standbyIndex, confirmedBank_first hbanks ha]

theorem bankAt_second {s : State} {a b : Bank} (hbanks : s.fw.banks = [a, b]) : bankAt s 1 = b := by
  rw [bankAt, hbanks]
  rfl

section
variable {s : State} {version : Nat} {a b : Bank} (hbanks : s.fw.banks = [a, b]) (ha : a.state = .confirmed)
include hbanks ha

/-- The version on trial is confirmed: its bank becomes the confirmed one, the other the previous one. -/
theorem confirmFirmware_confirms (cause : Nat) (hb : b.state = .trial) (hv : b.version = version) :
    let t := confirmFirmware cause version s
    t.fw.banks = [{ a with state := .previous }, { b with state := .confirmed }] ∧ t.fw.unconfirmed = false ∧ t.hbm = s.hbm := by
  have htrial : (bankAt s (standbyIndex s)).state = .trial ∧ (bankAt s (standbyIndex s)).version = version := by
    rw [standbyIndex_second hbanks ha, bankAt_second hbanks]
    exact ⟨hb, hv⟩
  rw [confirmFirmware]
  dsimp only
  rw [if_pos htrial, standbyIndex_second hbanks ha, confirmedBank_first hbanks ha, bankAt_second hbanks]
  obtain ⟨fl, bad, hz⟩ : ∃ fl bad, (if s.fw.defaults then s else zeroSettings (s.fw.settings.getD 0 0) s) =
      { s with flash := fl, badUnits := bad } := by
    split <;> exact ⟨_, _, rfl⟩
  rw [hz, fwEvent, event_fw, event_hbm]
  refine ⟨?_, rfl, rfl⟩
  change (s.fw.banks.set 0 { s.fw.banks.getD 0 {} with state := .previous }).set 1 { b with state := .confirmed } = _
  rw [hbanks]
  rfl

theorem confirmFirmware_ignored (cause : Nat) (h : b.state ≠ .trial ∨ b.version ≠ version) :
    confirmFirmware cause version s = ignored 0x0C 9 0 0 cause s := by
  have hnot : ¬ ((bankAt s (standbyIndex s)).state = .trial ∧ (bankAt s (standbyIndex s)).version = version) := by
    rw [standbyIndex_second hbanks ha, bankAt_second hbanks]
    exact not_and_or.2 h
  exact if_neg hnot

end

section
variable {e : Env} {s₀ s : State} {f : FrameHead} {version : Nat} {a b : Bank} (hs : applyEnv e s₀ = s)
  (hm : heard s f (.fwConfirm version) = true) (hbanks : s.fw.banks = [a, b]) (ha : a.state = .confirmed)
include hs hm hbanks ha

theorem exec_firmwareConfirm_confirms (hb : b.state = .trial) (hv : b.version = version) :
    NextWith (exec (.firmwareConfirm e f version) s₀) fun t =>
      t.fw.banks = [{ a with state := .previous }, { b with state := .confirmed }] ∧ t.fw.unconfirmed = false ∧ t.hbm = s.hbm := by
  have hto := confirmFirmware_confirms (s := counted (.fwConfirm version) s) hbanks ha f.seq hb hv
  refine ⟨_, congrArg Host.Outcome.next ((congrArg _ hs).trans (acceptFrame_heard hm)), ?_⟩
  dsimp only
  split
  · exact hto
  · exact hto

theorem exec_firmwareConfirm_ignored (h : b.state ≠ .trial ∨ b.version ≠ version) :
    exec (.firmwareConfirm e f version) s₀ = .next (ignored 0x0C 9 0 0 f.seq (counted (.fwConfirm version) s)) := by
  have hto := confirmFirmware_ignored (s := counted (.fwConfirm version) s) hbanks ha f.seq h
  have htrial : inTrial (ignored 0x0C 9 0 0 f.seq (counted (.fwConfirm version) s)) = inTrial (counted (.fwConfirm version) s) :=
    congrArg (fun w : Firmware => w.banks.any fun b => decide (b.state = .trial)) (event_fw ..)
  refine frameRow_ignored hs hm ?_
  simp only [actFrame, hto, htrial, Bool.and_not_self]

end

/-! ### CLEAR_DRY (R437) -/

/-- CLEAR_DRY with the engine's serial, in dry mode, clears the start count and runs a start. -/
theorem acceptFrame_clearDry {st : StartIn} {f : FrameHead} {serial : Nat} {s : State} (hawake : awake s = true) (hdry : s.dry = true)
    (hnone : s.restarting = []) (hformat : f.format = 2)
    (hfresh : (s.culvert.acted.find? fun a => a.1 = culType (.clearDry serial)) ≠ some (culType (.clearDry serial), f.tag, .clearDry serial))
    (hserial : serial = s.fw.serial % 2 ^ 32) :
    let c := counted (.clearDry serial) s
    let u := runStart st (writeJournal { c with
      scratch := { c.scratch with count := 0, dry := false, cause := 0 }, culvert := { c.culvert with acted := [], heldFrames := [] } })
    acceptFrame st f (.clearDry serial) s = if u.ready || u.dry then noted f (.clearDry serial) u else u := by
  intro c u
  simp only [awake, Bool.and_eq_true, decide_eq_true_eq, Option.isNone_iff_eq_none] at hawake
  obtain ⟨hp, hmoving⟩ := hawake
  have hup : ¬ (s.power.state = 3 || !(s.ready || s.dry)) = true := by simp [hp, hdry]
  have hwake : wakeFrame (decide (CulMsg.clearDry serial = .queryStatus)) s = s := by simp [wakeFrame, wake, hp, hmoving]
  have hrun : ¬ (s.power.state = 2 ∨ (!s.restarting.isEmpty) = true) := by simp [hp, hnone]
  have hrepeat : ¬ (!ownRepeat (.clearDry serial) && decide ((c.culvert.acted.find? fun a => a.1 = culType (.clearDry serial)) =
      some (culType (.clearDry serial), f.tag, .clearDry serial))) = true := by
    have hacted : c.culvert.acted = s.culvert.acted := rfl
    rw [hacted]
    simpa [ownRepeat] using hfresh
  have hact : actFrame st f (.clearDry serial) c = (true, u) := if_pos ⟨hdry, hserial⟩
  rw [acceptFrame, if_neg hup]
  dsimp only
  rw [hwake, if_neg hrun, handleFrame, if_neg (not_not.2 hformat)]
  refine (if_neg (by simp [dryAccepts])).trans ((if_neg (by simp [tagChecked])).trans ((if_neg hrepeat).trans ?_))
  refine (congrArg (fun r : Bool × State => if r.1 && r.2.ready || r.1 && r.2.dry then noted f (.clearDry serial) r.2 else r.2) hact).trans ?_
  simp only [Bool.true_and]

/-- Settles O30: each message acts on the state that counted its frame, and is noted where it acted. -/
theorem firmwareMessages : Obligations.FirmwareMessages := by
  unfold Obligations.FirmwareMessages
  refine ⟨?_, ?_, ?_, ?_⟩
  · intro e s₀ s f action parts version digest hs m hm
    refine ⟨fun ps htrial hact hcheck => ?_, fun h => ?_⟩
    · exact frameRow_acted hs hm (congrArg (Prod.mk true) (stageFirmware_staged htrial hact hcheck)) (stageFirmware_ready ..)
    · obtain ⟨status, check, ht⟩ := stageFirmware_refused (s := counted m s) (cause := f.seq) h
      exact ⟨_, frameRow_acted hs hm (congrArg (Prod.mk true) ht) (event_ready ..), event_flash .., event_fw ..⟩
  · intro e s₀ s f version deadline hs m b may hm
    have hto := activateFirmware_heard hm f.seq version deadline
    refine ⟨fun hmay => ?_, fun hmay => ?_⟩
    · exact exec_firmwareActivate_taken hs hm hmay.2.2.2 (hto.trans (if_pos hmay))
    · exact exec_firmwareActivate_ignored hs hm (hto.trans (if_neg hmay))
  · intro e s₀ s f version a b hs hm hbanks ha
    refine ⟨fun hb hv => ?_, fun h => ?_⟩
    · exact exec_firmwareConfirm_confirms hs hm hbanks ha hb hv
    · exact exec_firmwareConfirm_ignored hs hm hbanks ha h
  · intro e s₀ s f serial st hs m hawake hdry hnone hformat hfresh hserial
    exact congrArg Host.Outcome.next ((congrArg _ hs).trans (acceptFrame_clearDry hawake hdry hnone hformat hfresh hserial))

end Sys2Proof.Machine
end
section
/-! PROOF. The handover of an activation and its lapse (R443, R444, R445). -/

namespace Sys2Proof.Machine

open Sys2Proof

/-! ### The pieces of a handover -/

/-- Where time, culvert and tag agree, an event leaves the same culvert. -/
theorem event_culvert_congr {s t : State} (hculvert : t.culvert = s.culvert) (hht : t.ht = s.ht) (htag : tagOf t = tagOf s)
    (code status cause : Nat) (detail : Bytes) : (event code status cause detail t).culvert = (event code status cause detail s).culvert := by
  unfold event
  rw [hculvert, hht, htag]
  split <;> rfl

/-- The settings handed to a new version change the flash and the firmware's settings, trims and default use. -/
theorem settingsAt_eq (new version : Nat) (s : State) : ∃ xs ds ts fl bad, settingsAt new version s =
    { s with fw.settings := xs, fw.defaults := ds, fw.trims := ts, flash := fl, badUnits := bad } := by
  unfold settingsAt
  dsimp only
  split
  · exact ⟨_, _, _, _, _, rfl⟩
  · exact ⟨_, _, _, _, _, rfl⟩

/-- A handover whose image is ready: it runs in every controller, its bank is in trial. -/
def imageStarts (i v : Nat) (s : State) : State :=
  let s := { s with fw.activation := none }
  let b := bankAt s i
  let s := settingsAt i v (setBank i { b with state := .trial } s)
  let base := flashRead s (partAddr i 0) 4096
  writeJournal { s with
    fw := { s.fw with
      running := some i, runVersion := v, codeBank := 1, unconfirmed := true, patches := b.patches, serialBound := bit 0 (field 20 1 base),
      lastStatus := 0 },
    ctl := s.ctl.map fun c => { c with state := 2, image := BitVec.ofNat 32 v } }

/-- A handover whose image is not ready: its bank is rejected. -/
def imageRejected (i : Nat) (s : State) : State :=
  let s := { s with fw.activation := none }
  { writeJournal (setBank i { bankAt s i with state := .rejected } s) with fw.lastStatus := Code.internal }

theorem ctlOf_map {s t : State} {f : Controller → Controller} (h : t.ctl = s.ctl.map f) (c : Fin 4) : ctlOf t c = f (ctlOf s c) := by
  simp [ctlOf, h]

/-- The image that starts runs in every controller; the culvert, the registers and HBM stay as they are. -/
theorem imageStarts_leaves {s : State} {a b : Bank} (hbanks : s.fw.banks = [a, b]) (v : Nat) :
    let t := imageStarts 1 v s
    (t.culvert = s.culvert ∧ t.ht = s.ht ∧ t.regs = s.regs ∧ t.hbm = s.hbm) ∧
    t.fw.activation = none ∧ t.fw.banks = [a, { b with state := .trial }] ∧ t.fw.running = some 1 ∧ t.fw.runVersion = v ∧
    t.fw.unconfirmed = true ∧ t.fw.lastStatus = 0 ∧ t.ctl = s.ctl.map fun c => { c with state := 2, image := BitVec.ofNat 32 v } := by
  have hsecond : bankAt { s with fw.activation := none } 1 = b := bankAt_second (b := b) hbanks
  simp only [imageStarts]
  rw [hsecond]
  obtain ⟨xs, ds, ts, fl, bad, h⟩ := settingsAt_eq 1 v (setBank 1 { b with state := .trial } { s with fw.activation := none })
  rw [h]
  refine ⟨⟨rfl, rfl, rfl, rfl⟩, rfl, ?_, rfl, rfl, rfl, rfl, rfl⟩
  change s.fw.banks.set 1 { b with state := .trial } = _
  rw [hbanks]
  rfl

/-- A rejected image leaves what runs as it is. -/
theorem imageRejected_leaves {s : State} {a b : Bank} (hbanks : s.fw.banks = [a, b]) :
    let t := imageRejected 1 s
    (t.culvert = s.culvert ∧ t.ht = s.ht ∧ t.regs = s.regs ∧ t.hbm = s.hbm) ∧
    t.fw.activation = none ∧ t.fw.banks = [a, { b with state := .rejected }] ∧ t.fw.running = s.fw.running ∧
    t.fw.runVersion = s.fw.runVersion ∧ t.fw.lastStatus = Code.internal ∧ t.ctl = s.ctl := by
  simp [imageRejected, writeJournal, issueBarrier, setBank, bankAt, hbanks]

theorem tagOf_regs {s t : State} (h : t.regs = s.regs) : tagOf t = tagOf s := by
  rw [tagOf, regNat, regGet, h]
  rfl

section
variable {e : Env} {s₀ s : State} {v deadline : Nat} (hs : applyEnv e s₀ = s) (hact : s.fw.activation = some (v, deadline))
include hs hact

theorem exec_handover_waits (h : controllersRun s = false ∨ deadline < s.ht ∨ handoverPoint s = false) (ready : Bool) :
    exec (.handover e ready) s₀ = .next s := by
  change execHandover e ready s₀ = _
  simp only [execHandover, hs, hact]
  exact if_pos (by rcases h with h | h | h <;> simp [h])

section
variable (hrun : controllersRun s = true) (hin : s.ht ≤ deadline) (hpoint : handoverPoint s = true)
include hrun hin hpoint

theorem exec_handover_ready : exec (.handover e true) s₀ = .next (fwEvent 0 3 v 0 0 (imageStarts (standbyIndex s) v s)) := by
  have hgo : ¬ (!controllersRun s || decide (deadline < s.ht) || !handoverPoint s) = true := by simp [hrun, hpoint, hin]
  change execHandover e true s₀ = _
  simp only [execHandover, hs, hact]
  exact if_neg hgo

theorem exec_handover_unready : exec (.handover e false) s₀ =
    .next (fwEvent Code.internal 3 v 0 0 (flagEvent 7 (imageRejected (standbyIndex s) s))) := by
  have hgo : ¬ (!controllersRun s || decide (deadline < s.ht) || !handoverPoint s) = true := by simp [hrun, hpoint, hin]
  change execHandover e false s₀ = _
  simp only [execHandover, hs, hact]
  exact if_neg hgo

end

/-- Before its deadline an activation does not lapse; after it, it does. -/
theorem exec_activationLapse_run (hrun : controllersRun s = true) : exec (.activationLapse e) s₀ = .next (if deadline < s.ht then
    fwEvent Code.refusedTurn 3 v 0 0 { s with fw.activation := none, fw.lastStatus := Code.refusedTurn } else s) := by
  change execActivationLapse e s₀ = _
  simp only [execActivationLapse, hs, hact, hrun, Bool.and_true, decide_eq_true_eq, lapseActivation]

end

/-- Settles O57: at a handover point the image starts or is rejected, and the report is the same event as on the state before it. -/
theorem handoverAndLapse : Obligations.HandoverAndLapse := by
  unfold Obligations.HandoverAndLapse
  refine ⟨fun e s₀ s v deadline a b hs hact hrun => ⟨fun hin hpoint hbanks ha _ => ⟨?_, ?_⟩, fun h ready => ?_⟩,
    fun e s₀ s v deadline hs hact hrun => ⟨fun hpast => ?_, fun hin => ?_⟩⟩
  · obtain ⟨⟨hculvert, hht, hregs, hhbm⟩, hnone, hbank, hrunning, hversion, hunconfirmed, hstatus, hctl⟩ := imageStarts_leaves hbanks v
    have hto := exec_handover_ready hs hact hrun hin hpoint
    rw [standbyIndex_second hbanks ha] at hto
    refine ⟨_, hto, event_culvert_congr hculvert hht (tagOf_regs hregs) .., ?_⟩
    rw [fwEvent, event_fw, event_hbm]
    exact ⟨hnone, hbank, hrunning, hversion, hunconfirmed, hstatus, fun c => ctlOf_map ((event_ctl ..).trans hctl) c, hhbm⟩
  · obtain ⟨⟨hculvert, hht, hregs, hhbm⟩, hnone, hbank, hrunning, hversion, hstatus, hctl⟩ := imageRejected_leaves hbanks
    have hto := exec_handover_unready hs hact hrun hin hpoint
    rw [standbyIndex_second hbanks ha] at hto
    have htag : tagOf (flagEvent 7 (imageRejected 1 s)) = tagOf s := (tagOf_flagEvent ..).trans (tagOf_regs hregs)
    refine ⟨_, hto, event_culvert_congr (s := s) (t := flagEvent 7 (imageRejected 1 s)) hculvert hht htag .., ?_⟩
    rw [fwEvent, event_fw, event_hbm, event_ctl, regNat_event]
    exact ⟨hnone, hbank, hrunning, hversion, hstatus, hctl, testBit_flagEvent (by decide) _, hhbm⟩
  · exact exec_handover_waits hs hact (.inr h) ready
  · have hto := (exec_activationLapse_run hs hact hrun).trans (congrArg Host.Outcome.next (if_pos hpast))
    refine ⟨hto, _, hto, ?_⟩
    dsimp only
    rw [fwEvent, event_fw, event_hbm]
    exact ⟨rfl, rfl, rfl, rfl⟩
  · exact (exec_activationLapse_run hs hact hrun).trans (congrArg Host.Outcome.next (if_neg (Nat.not_lt.2 hin)))

end Sys2Proof.Machine
end
